-- ==== Sys2Proof/Word.lean ====
section
/-! DEFINITION. The word types of the block. -/

namespace Sys2Proof

/-- A byte on the wire or in memory. -/
abbrev Byte := BitVec 8

/-- An engine word (09 R196). -/
abbrev Word := BitVec 32

/-- A condition word (00 R8). -/
abbrev Cond := BitVec 16

/-- Sparse data by key: keys strictly rising, no entry equal to what an unlisted key reads as. -/
abbrev SMap (α : Type) := List (Nat × α)

end Sys2Proof
end

