-- ==== Sys2Proof/Syntax.lean ====
section
/-! DEFINITION. The commands the block takes, as syntax: one constructor of `Instr` per row of the opcode table, with
the operands the rule of that row names. The table gives no row bits or fields, so the operands are this model's
(assumption log 2, DESIGN CHOICE). -/

namespace Sys2Proof

/-- Element numbers (00 R5, R13). -/
abbrev Ch := Fin 256
abbrev Cl := Fin 64
abbrev Rg := Fin 16
abbrev Rd := Fin 8
abbrev Se := Fin 256
abbrev Bk := Fin 16
abbrev Ln := Fin 48
abbrev Hk := Fin 9
/-- A candidate identifier (13 R288). -/
abbrev Cand := Fin 8192
/-- A TDC by its source code (14 R317): 0-255 inputs, 256-271 external timing inputs, 272 the PPS converter. -/
abbrev TdcId := Fin 273

/-- The roles of a session (17 R394). -/
inductive Role where
  | observer | operator | engineer | owner
deriving DecidableEq, Repr

/-- The code of a role (17 R394). -/
def Role.code : Role → Nat
  | .observer => 0 | .operator => 1 | .engineer => 2 | .owner => 3

/-- What a TDC sees of an edge (14 R309): the TDC clock period of the tick before the edge (64 TU each), the fine
code, the direction, and the voltage across the lands that the movement reaches, in microvolts, which the discriminator of an input
compares (14 R307). The sample of the tick it falls in is `period / 2`. -/
structure TdcEdge where
  period : Fin 8192
  code   : Fin 64
  rising : Bool
  uv     : Int := 0
deriving DecidableEq, Repr

/-- A clock-domain crossing by its source clock (02 R536). -/
inductive Crossing where
  | reader (d : Rd) | lane (l : Ln) | dram (st : Fin 4) | concentrator (clock : Fin 3) | fieldNet
deriving DecidableEq, Repr

/-- The outcome of a die-to-die transfer of the tick (01 R19). -/
inductive D2d where
  | retried | failed
deriving DecidableEq, Repr

/-- An object address (17 R390). -/
structure ObjAddr where
  index : Nat
  sub   : Nat
  kind  : Nat
  num   : Nat
deriving DecidableEq, Repr

/-- A crossing whose samples did not agree within 8 destination cycles (02 R55): the destination's die (0-7 the reader dies, 8 the
concentrator), and, where what crossed is a setting that takes effect at the boundary, its address: the destination keeps
its previous value. -/
structure Unstable where
  die     : Nat
  setting : Option ObjAddr := none
deriving DecidableEq, Repr

/-- What a tick brings in from outside the block at its boundary. `frames`: the raw words the converters gave in the tick
just ended (an unlisted input gave none: its linear samples are 0). `late`: the work of the tick that begins which will not
complete, as unit and element (02 R35; units 1 channelizer, 2 context update, 3 beams, 5 spectra, 6 slot
bookkeeping). `d2d`: the die-to-die transfers of the tick just ended that did not pass at once (01 R19). `unstable`: the
crossings of the tick that kept a value, each once (02 R55). `badBlocks`: the blocks of the tick just
ended whose verification in the coder failed (12 R279, R280: input, block, and whether the fallback failed as well).
`lostBlocks`: the blocks that the history writer could not write (11 R247: input, block). `hkDone`: the members of a group whose
averaging was completed in the tick just ended, in order: the converter and the conversions (04 R95, R100). -/
structure TickEnv where
  frames   : List (Nat × List (BitVec 12)) := []
  late     : List (Nat × Nat) := []
  d2d      : List (Nat × D2d) := []
  unstable : List Unstable := []
  badBlocks : List (Nat × Nat × Bool) := []
  lostBlocks : List (Nat × Nat) := []
  hkDone   : List (Nat × List Int) := []
deriving DecidableEq, Repr

/-- A 32-byte engine message as its eight words (08 R189, 09 R209): word 0 is the header. -/
structure Msg where
  words : List (BitVec 32)
deriving DecidableEq, Repr

/-- What a trigger path has seen up to a sample of the current tick (10 R216-R218): the sample's number, and the input's linear samples up
to it, newest first: those the comparator has not taken yet, and the 63 before them. -/
structure CrossingIn where
  sample : Fin 4096
  lin    : List Int
deriving DecidableEq, Repr

/-- The coincidence levels that take members (10 R223). -/
inductive CoinLevel where
  | cluster | region | die | module
deriving DecidableEq, Repr

/-- A member's trigger as it reaches a level (10 R222, R226): the member's number among the level's members (at the
module level 0-7 the dies, 8-23 the external timing inputs, 24 the engines, 25 the array), its stamp, what the
trigger word of R226 will say of it, and the inputs that contributed. -/
structure MemberTrig where
  member  : Nat
  stamp   : Nat
  level   : Nat
  element : Nat
  members : Nat
  origin  : Nat
  cond    : BitVec 16
  uncal   : Bool
  inputs  : List Nat := []
deriving DecidableEq, Repr

/-- What a sweep of the roaming sampler measured (15 R350-R352): the longest error-free runs and their centres
relative to the present offsets, whether clock recovery is locked, and how many of the last 65,536 received symbols
were K28.5. -/
structure Eye where
  w       : Nat
  h       : Nat
  phaseCentre : Int
  voltCentre  : Int
  locked  : Bool
  idle    : Nat
deriving DecidableEq, Repr

/-- Why a received frame is discarded (16 R362, R363): `control` is a special code group that cut a control-symbol sequence
inside the frame short (15 R337); `sequence` is one that cut a sequence short and ended no frame. -/
inductive RxFault where
  | crc | length | noEnd | special | control | sequence | direction
deriving DecidableEq, Repr

/-- A received frame (16 R360, R361). -/
structure RxFrame where
  vc     : Fin 8
  type_  : Fin 32
  alive  : BitVec 8
  gseq   : BitVec 32
  module : BitVec 12
  ftick  : BitVec 20
  payload : List (BitVec 8)
deriving DecidableEq, Repr

/-- Where an SDP message comes from (17 R398): an IPv4 address and UDP port, or VC0 and a module number. -/
inductive Source where
  | udp (ip : BitVec 32) (port : BitVec 16)
  | vc0 (module : BitVec 12)
deriving DecidableEq, Repr

/-- The header of an SDP request with its source and its MAC (17 R398, R399). -/
structure SdpHdr where
  src     : Source
  session : Nat
  reqId   : BitVec 32
  resp    : Bool
  lengthOk : Bool
  mac     : BitVec 64
deriving DecidableEq, Repr

/-- One item of a `WRITE` (17 R400). -/
structure WItem where
  addr  : ObjAddr
  value : List (BitVec 8)
deriving DecidableEq, Repr

/-- A subscription (17 R413). -/
structure EvSub where
  code : BitVec 16
  mask : BitVec 16
  kind : Nat
  num  : Nat
deriving DecidableEq, Repr

/-- Which object of a key slot is written (17 R405, R422). -/
inductive KeyPart where
  | pubKey | secret | slotRole
deriving DecidableEq, Repr

/-- The elements `SOFT_RESET` is scoped to (20 R476, R487). -/
inductive ResetElem where
  | channel (n : Ch) | cluster (c : Cl) | region (g : Rg) | die (d : Rd)
deriving DecidableEq, Repr

/-- The ECC domains (18 R423); the MRAM has no scope of its own. -/
inductive Domain where
  | stack (st : Fin 4) | cd | reader (d : Rd) | mram
deriving DecidableEq, Repr

/-- What a read of a granule finds (18 R427-R429). -/
inductive EccError where
  | none | dataBit (bit : Nat) | checkBit | uncorrectable (address : Bool) (syndrome : BitVec 8)
deriving DecidableEq, Repr

/-- Where a particle strikes (21 R489). -/
inductive Upset where
  | config (kind num : Nat) (addr : ObjAddr) (copies : Fin 4) (bit : Nat)
  | granule (dom : Domain) (granule : Nat) (err : EccError)
  | candidate (c : Cand) (bit : Nat)
  | lockstep
deriving DecidableEq, Repr

/-- `REFCLK` as the module meets it (02 R45): the measurement against the boot oscillator in kHz, and how far the reference lies in truth
from the permitted frequency nearest to that measurement, which the PLL meets at its lock. -/
structure RefClock where
  khz : Nat
  ppm : Int
deriving DecidableEq, Repr

/-- The current of a feed (03 R79). -/
structure FeedCurrent where
  input     : Ch
  microamps : Nat
deriving DecidableEq, Repr

/-- The commands of the block: one constructor per row of the opcode table, in the table's order. -/
inductive Instr where
  /-- `PWR_GOOD_RISE` (R468). -/
  | pwrGoodRise
  /-- `PWR_GOOD_FALL` (R473). -/
  | pwrGoodFall
  /-- `RESET_N_LOW` (R473). -/
  | resetNLow (lowNs : Nat)
  /-- `RESET_N_RELEASE` (R472). -/
  | resetNRelease
  /-- `START_UP_BEGIN` (R469). -/
  | startUpBegin (straps : BitVec 12)
  /-- `ROM_BOOT_DONE` (R469). -/
  | romBootDone (fillFailure : Option (Fin 4))
  /-- `FUSE_READ_DONE` (R469). -/
  | fuseReadDone
  /-- `MEMORY_FILL_DONE` (R424). -/
  | memoryFillDone (ticks : Nat) (fillFailure : Option (Fin 4))
  /-- `KERNEL_VERIFY_DONE` (R469). -/
  | kernelVerifyDone
  /-- `SAFE_ENTRY` (R469). -/
  | safeEntry (bootTicks : Nat)
  /-- `APP_START_DONE` (R460). -/
  | appStartDone
  /-- `REFCLK_MEASURE` (R45). -/
  | refclkMeasure (ref : RefClock)
  /-- `CD_PLL_LOCK` (R49). -/
  | cdPllLock
  /-- `PLL_LOCK_TIMEOUT` (R45). -/
  | pllLockTimeout
  /-- `REFCLK_LOSS` (R46). -/
  | refclkLoss
  /-- `REFCLK_RETURN` (R46). -/
  | refclkReturn (ppm : Int)
  /-- `PLL_SLEW_DONE` (R46). -/
  | pllSlewDone
  /-- `READER_PLL_UNLOCK` (R47). -/
  | readerPllUnlock (d : Rd)
  /-- `READER_PLL_RELOCK` (R47). -/
  | readerPllRelock (d : Rd)
  /-- `READER_PLL_RELOCK_TIMEOUT` (R47). -/
  | readerPllRelockTimeout (d : Rd)
  /-- `TIME_SET` (R50). -/
  | timeSet (r : Role) (value : Nat)
  /-- `PPS_EDGE` (R51). -/
  | ppsEdge (e : TdcEdge)
  /-- `TIME_SET_TIMEOUT` (R50). -/
  | timeSetTimeout
  /-- `PPS_MISSING` (R51). -/
  | ppsMissing
  /-- `SECOND_BOUNDARY` (R51). -/
  | secondBoundary
  /-- `CLOCK_STOPPED` (R56). -/
  | clockStopped (c : Crossing)
  /-- `CDC_HANDSHAKE_DONE` (R57). -/
  | cdcHandshakeDone (c : Crossing)
  /-- `TICK_BOUNDARY` (R33). -/
  | tickBoundary (env : TickEnv)
  /-- `TICK_CUTOFF` (R33). -/
  | tickCutoff
  /-- `TABLE_SWAP_REQUEST` (R39). -/
  | tableSwapRequest (r : Role) (table : Fin 12) (elem : Nat) (target : Nat)
  /-- `TABLE_SWAP_CANCEL` (R40). -/
  | tableSwapCancel (table : Fin 12) (elem : Nat)
  /-- `LIN_TABLE_BUILD` (R113). -/
  | linTableBuild (g : Rg)
  /-- `LIN_BUILD_DONE` (R113). -/
  | linBuildDone (g : Rg)
  /-- `LIN_COEFF_COMMIT` (R115). -/
  | linCoeffCommit (r : Role) (g : Rg)
  /-- `LIN_REBUILD` (R116). -/
  | linRebuild (r : Role) (g : Rg)
  /-- `LIN_DEFERRED_BUILD` (R116). -/
  | linDeferredBuild (g : Rg)
  /-- `RANGE_ATTACK` (R64). -/
  | rangeAttack (n : Ch) (sample : Fin 4096) (word next : BitVec 12)
  /-- `RANGE_RELEASE` (R64). -/
  | rangeRelease (n : Ch) (words : List (BitVec 12))
  /-- `CLAMP_EPISODE_BEGIN` (R71). -/
  | clampEpisodeBegin (c : Cl) (sample : Fin 4096) (sources : BitVec 4)
  /-- `CLAMP_EPISODE_END` (R71). -/
  | clampEpisodeEnd (c : Cl) (sample : Fin 4096) (sources : BitVec 4)
  /-- `NBR_PERIOD_END` (R73). -/
  | nbrPeriodEnd (c : Cl)
  /-- `CLAMP_SOURCE_CLEAR` (R72). -/
  | clampSourceClear (r : Role) (c : Cl) (bits : Nat)
  /-- `BLANK_PIN_EDGE` (R74). -/
  | blankPinEdge (pin : Fin 4) (level : Bool) (sample : Fin 4096) (widthSamples : Nat)
  /-- `BLANK_APPLY` (R74). -/
  | blankApply (pin : Fin 4)
  /-- `FEED_COMPARATOR_SAMPLE` (R79). -/
  | feedComparatorSample (n : Ch) (microamps : Nat)
  /-- `FEED_FOLD_BACK` (R80). -/
  | feedFoldBack (current : FeedCurrent)
  /-- `FEED_ENABLE` (R81). -/
  | feedEnable (r : Role) (n : Ch) (value : Nat)
  /-- `VFEED_LOW_SET` (R85). -/
  | vfeedLowSet (d : Rd)
  /-- `VFEED_LOW_CLEAR` (R85). -/
  | vfeedLowClear (d : Rd)
  /-- `EXC_WINDOW_END` (R89). -/
  | excWindowEnd (n : Ch)
  /-- `HK_PASS_START` (R96). -/
  | hkPassStart (h : Hk)
  /-- `HK_BURST_DONE` (R95). -/
  | hkBurstDone (h : Hk) (codes : List (List Int))
  /-- `HK_SEQ_COMMIT` (R97). -/
  | hkSeqCommit (r : Role) (h : Hk)
  /-- `HK_URGENT_REQUEST` (R102). -/
  | hkUrgentRequest (r : Role) (h : Hk) (source : Nat)
  /-- `HK_URGENT_START` (R104). -/
  | hkUrgentStart (h : Hk) (codes : List (List Int))
  /-- `WARM_END` (R120). -/
  | warmEnd (g : Rg)
  /-- `SPECTRA_PERIOD_END` (R125). -/
  | spectraPeriodEnd (g : Rg)
  /-- `SUPP_CTX_WRITE` (R152). -/
  | suppCtxWrite (r : Role) (k : Se) (value : BitVec 128)
  /-- `SUPP_CTX_APPLY` (R152). -/
  | suppCtxApply
  /-- `CTX_HOLD` (R153). -/
  | ctxHold (n : Ch) (first last : Fin 2048)
  /-- `CTX_RELEASE` (R153). -/
  | ctxRelease (n : Ch) (first last : Fin 2048)
  /-- `CTX_MASK` (R153). -/
  | ctxMask (n : Ch) (first last : Fin 2048)
  /-- `CTX_UNMASK` (R153). -/
  | ctxUnmask (n : Ch) (first last : Fin 2048)
  /-- `CTX_RESEED` (R153). -/
  | ctxReseed (n : Ch) (first last : Fin 2048)
  /-- `CTX_SET_K` (R153). -/
  | ctxSetK (n : Ch) (first last : Fin 2048) (k : BitVec 8)
  /-- `SUPP_BOOST_FALL` (R149). -/
  | suppBoostFall (k : Se)
  /-- `DIE_ISOLATE` (R16). -/
  | dieIsolate (r : Role) (d : Rd)
  /-- `DIE_RELEASE` (R21). -/
  | dieRelease (r : Role) (d : Rd)
  /-- `DIE_ISOLATION_APPLY` (R17). -/
  | dieIsolationApply (d : Rd)
  /-- `ENG_HANDLER_START` (R178). -/
  | engHandlerStart (k : Se)
  /-- `ADD` (R200). -/
  | add (k : Se)
  /-- `SUB` (R200). -/
  | sub (k : Se)
  /-- `ADDS` (R200). -/
  | adds (k : Se)
  /-- `SUBS` (R200). -/
  | subs (k : Se)
  /-- `ADDI` (R200). -/
  | addi (k : Se)
  /-- `MUL` (R200). -/
  | mul (k : Se)
  /-- `MIN` (R200). -/
  | min (k : Se)
  /-- `MAX` (R200). -/
  | max (k : Se)
  /-- `RCP` (R200). -/
  | rcp (k : Se)
  /-- `SQRT` (R200). -/
  | sqrt (k : Se)
  /-- `FCVT` (R200). -/
  | fcvt (k : Se)
  /-- `AND` (R200). -/
  | and (k : Se)
  /-- `OR` (R200). -/
  | or (k : Se)
  /-- `XOR` (R200). -/
  | xor (k : Se)
  /-- `CLZ` (R200). -/
  | clz (k : Se)
  /-- `BEXT` (R200). -/
  | bext (k : Se)
  /-- `BINS` (R200). -/
  | bins (k : Se)
  /-- `SHL` (R200). -/
  | shl (k : Se)
  /-- `SHR` (R200). -/
  | shr (k : Se)
  /-- `SAR` (R200). -/
  | sar (k : Se)
  /-- `LI` (R200). -/
  | li (k : Se)
  /-- `LIH` (R200). -/
  | lih (k : Se)
  /-- `CMP` (R201). -/
  | cmp (k : Se)
  /-- `CMPI` (R201). -/
  | cmpi (k : Se)
  /-- `PAND` (R201). -/
  | pand (k : Se)
  /-- `POR` (R201). -/
  | por (k : Se)
  /-- `PXOR` (R201). -/
  | pxor (k : Se)
  /-- `PANDN` (R201). -/
  | pandn (k : Se)
  /-- `PSET` (R201). -/
  | pset (k : Se)
  /-- `PCLR` (R201). -/
  | pclr (k : Se)
  /-- `RDP` (R201). -/
  | rdp (k : Se)
  /-- `WRP` (R201). -/
  | wrp (k : Se)
  /-- `LD` (R202). -/
  | ld (k : Se)
  /-- `ST` (R202). -/
  | st (k : Se)
  /-- `VLD` (R202). -/
  | vld (k : Se)
  /-- `VST` (R202). -/
  | vst (k : Se)
  /-- `VADD` (R204). -/
  | vadd (k : Se)
  /-- `VSUB` (R204). -/
  | vsub (k : Se)
  /-- `VMIN` (R204). -/
  | vmin (k : Se)
  /-- `VMAX` (R204). -/
  | vmax (k : Se)
  /-- `VMUL` (R204). -/
  | vmul (k : Se)
  /-- `VAND` (R204). -/
  | vand (k : Se)
  /-- `VOR` (R204). -/
  | vor (k : Se)
  /-- `VXOR` (R204). -/
  | vxor (k : Se)
  /-- `VSHL` (R204). -/
  | vshl (k : Se)
  /-- `VSHR` (R204). -/
  | vshr (k : Se)
  /-- `VSAR` (R204). -/
  | vsar (k : Se)
  /-- `VCMP` (R204). -/
  | vcmp (k : Se)
  /-- `VSPLAT` (R204). -/
  | vsplat (k : Se)
  /-- `VEXT` (R204). -/
  | vext (k : Se)
  /-- `VINS` (R204). -/
  | vins (k : Se)
  /-- `VRED_ADD` (R204). -/
  | vredAdd (k : Se)
  /-- `VRED_MAX` (R204). -/
  | vredMax (k : Se)
  /-- `VRED_MIN` (R204). -/
  | vredMin (k : Se)
  /-- `VPOW_B` (R204). -/
  | vpowB (k : Se)
  /-- `VPOW_H` (R204). -/
  | vpowH (k : Se)
  /-- `CLD` (R205). -/
  | cld (k : Se)
  /-- `CWR` (R206). -/
  | cwr (k : Se)
  /-- `CCMD_HOLD` (R205). -/
  | ccmdHold (k : Se)
  /-- `CCMD_RELEASE` (R205). -/
  | ccmdRelease (k : Se)
  /-- `CCMD_MASK` (R205). -/
  | ccmdMask (k : Se)
  /-- `CCMD_UNMASK` (R205). -/
  | ccmdUnmask (k : Se)
  /-- `CCMD_RESEED` (R205). -/
  | ccmdReseed (k : Se)
  /-- `CVB` (R205). -/
  | cvb (k : Se)
  /-- `BWX` (R208). -/
  | bwx (k : Se)
  /-- `BWC` (R208). -/
  | bwc (k : Se)
  /-- `BRX` (R208). -/
  | brx (k : Se)
  /-- `BRC` (R208). -/
  | brc (k : Se)
  /-- `TRIG` (R209). -/
  | trig (k : Se)
  /-- `MEAS` (R209). -/
  | meas (k : Se)
  /-- `SEND` (R209). -/
  | send (k : Se)
  /-- `RECV` (R209). -/
  | recv (k : Se)
  /-- `BR` (R210). -/
  | br (k : Se)
  /-- `JAL` (R210). -/
  | jal (k : Se)
  /-- `JR` (R210). -/
  | jr (k : Se)
  /-- `LOOP` (R211). -/
  | loop (k : Se)
  /-- `LOOPI` (R211). -/
  | loopi (k : Se)
  /-- `YIELD` (R212). -/
  | yield (k : Se)
  /-- `WAIT` (R210). -/
  | wait (k : Se)
  /-- `ENG_WAIT_END` (R210). -/
  | engWaitEnd (k : Se)
  /-- `RDCYC` (R210). -/
  | rdcyc (k : Se)
  /-- `ENG_AUTO_RESTART` (R185). -/
  | engAutoRestart (k : Se)
  /-- `ENG_LOAD` (R193). -/
  | engLoad (r : Role) (k : Se)
  /-- `ENG_LOAD_COPY_DONE` (R193). -/
  | engLoadCopyDone (k : Se)
  /-- `ENG_RESTART` (R185). -/
  | engRestart (r : Role) (k : Se)
  /-- `ENG_QUARANTINE_CMD` (R192). -/
  | engQuarantineCmd (r : Role) (k : Se)
  /-- `ENG_UNLOAD` (R192). -/
  | engUnload (r : Role) (k : Se)
  /-- `ENG_MSG_IN` (R194). -/
  | engMsgIn (r : Role) (k : Se) (m : Msg)
  /-- `SUPP_PARAM` (R190). -/
  | suppParam (k : Se) (req : Msg)
  /-- `SPILL_WRITE` (R190). -/
  | spillWrite (k : Se) (req : Msg)
  /-- `SPILL_READ` (R190). -/
  | spillRead (k : Se) (req : Msg)
  /-- `SPILL_COPY_DONE` (R191). -/
  | spillCopyDone (k : Se)
  /-- `ENG_REPLY_DELIVER` (R189). -/
  | engReplyDeliver (k : Se)
  /-- `TRIG_CROSSING` (R218). -/
  | trigCrossing (n : Ch) (x : CrossingIn)
  /-- `COIN_MEMBER_TRIGGER` (R222). -/
  | coinMemberTrigger (lvl : CoinLevel) (elem : Nat) (t : MemberTrig)
  /-- `COIN_WINDOW_CLOSE` (R222). -/
  | coinWindowClose (lvl : CoinLevel) (elem : Nat)
  /-- `TRIG_REARM_END` (R227). -/
  | trigRearmEnd (level : Fin 8) (elem : Nat)
  /-- `TRIG_RR_RELEASE` (R229). -/
  | trigRrRelease
  /-- `DOMINO_REPORT` (R234). -/
  | dominoReport (l : Ln) (m : BitVec 128) (arrival : Nat)
  /-- `DOMINO_CONFIRM` (R235). -/
  | dominoConfirm (l : Ln) (m : BitVec 128) (arrival : Nat)
  /-- `DOMINO_VETO` (R235). -/
  | dominoVeto (l : Ln) (m : BitVec 128) (arrival : Nat)
  /-- `DOMINO_ARRAY_TRIG` (R235). -/
  | dominoArrayTrig (l : Ln) (m : BitVec 128) (arrival : Nat)
  /-- `DOMINO_PROBE` (R236). -/
  | dominoProbe (l : Ln) (m : BitVec 128) (arrival departure : Nat)
  /-- `DOMINO_ECHO` (R236). -/
  | dominoEcho (l : Ln) (m : BitVec 128) (arrival : Nat)
  /-- `DOMINO_RATE` (R232). -/
  | dominoRate (l : Ln) (m : BitVec 128) (arrival : Nat)
  /-- `ARR_WINDOW_CLOSE` (R234). -/
  | arrWindowClose
  /-- `DOMINO_PROBE_SEND` (R236). -/
  | dominoProbeSend (l : Ln) (departure : Nat)
  /-- `TRGO_PULSE_START` (R238). -/
  | trgoPulseStart
  /-- `TRGO_PULSE_END` (R238). -/
  | trgoPulseEnd
  /-- `TRGI_EDGE` (R239). -/
  | trgiEdge (stamp : Nat) (uncal : Bool)
  /-- `SLOT_ALLOCATE` (R246). -/
  | slotAllocate
  /-- `RECORD_CUT_DONE` (R257). -/
  | recordCutDone (c : Cand)
  /-- `REC_MEASURE` (R262). -/
  | recMeasure (c : Cand)
  /-- `DRAM_ARBITRATION` (R263). -/
  | dramArbitration (want : List Nat)
  /-- `SEGMENT_START` (R277). -/
  | segmentStart
  /-- `RECORD_EXPORT` (R295). -/
  | recordExport (c : Cand)
  /-- `CANDIDATE_SEAL` (R290). -/
  | candidateSeal (c : Cand)
  /-- `CANDIDATE_EXPIRE` (R292). -/
  | candidateExpire (c : Cand)
  /-- `CANDIDATE_OUTCOME_APPLY` (R293). -/
  | candidateOutcomeApply
  /-- `SEND_AHEAD` (R299). -/
  | sendAhead (c : Cand)
  /-- `SPEC_COMMIT_SEND` (R300). -/
  | specCommitSend (c : Cand)
  /-- `TDC_EDGE` (R309). -/
  | tdcEdge (t : TdcId) (e : TdcEdge)
  /-- `TDC_CAL_UPDATE` (R313). -/
  | tdcCalUpdate (t : TdcId)
  /-- `TDC_DLL_LOCK` (R310). -/
  | tdcDllLock (d : Fin 9)
  /-- `TDC_DLL_UNLOCK` (R310). -/
  | tdcDllUnlock (d : Fin 9)
  /-- `TDC_START_SETTLE` (R323). -/
  | tdcStartSettle (t : TdcId)
  /-- `FREQ_GATE_END` (R326). -/
  | freqGateEnd (t : TdcId)
  /-- `FREQ_RESULT_PUBLISH` (R327). -/
  | freqResultPublish (t : TdcId)
  /-- `LANE_SIGNAL_PRESENT` (R340). -/
  | laneSignalPresent (l : Ln)
  /-- `LANE_EYE_SWEEP` (R350). -/
  | laneEyeSweep (l : Ln) (eye : Eye)
  /-- `LANE_BIT_LOCK` (R340). -/
  | laneBitLock (l : Ln)
  /-- `LANE_SYMBOL_LOCK` (R340). -/
  | laneSymbolLock (l : Ln)
  /-- `EXCHANGE_MESSAGE_SEND` (R339). -/
  | exchangeMessageSend (l : Ln)
  /-- `EXCHANGE_MESSAGE` (R344). -/
  | exchangeMessage (l : Ln) (m : BitVec 128)
  /-- `LANE_ENTER_ACTIVE` (R344). -/
  | laneEnterActive (l : Ln)
  /-- `LANE_TRAIN_TIMEOUT` (R340). -/
  | laneTrainTimeout (l : Ln)
  /-- `LANE_EXCHANGE_TIMEOUT` (R340). -/
  | laneExchangeTimeout (l : Ln)
  /-- `LANE_LOSS_OF_SIGNAL` (R340). -/
  | laneLossOfSignal (l : Ln)
  /-- `LANE_ERROR_RETRAIN` (R340). -/
  | laneErrorRetrain (l : Ln) (errors : Nat)
  /-- `LANE_PARTNER_RETRAIN` (R340). -/
  | lanePartnerRetrain (l : Ln)
  /-- `LANE_BACKOFF_END` (R341). -/
  | laneBackoffEnd (l : Ln)
  /-- `LANE_RESET` (R340). -/
  | laneReset (r : Role) (l : Ln)
  /-- `LANE_DISABLE` (R340). -/
  | laneDisable (r : Role) (l : Ln)
  /-- `LANE_ENABLE` (R359). -/
  | laneEnable (r : Role) (l : Ln)
  /-- `LINK_RATE_WRITE` (R333). -/
  | linkRateWrite (r : Role) (cascade : Bool) (rate : Nat)
  /-- `LINK_FRAME` (R364). -/
  | linkFrame (l : Ln) (w : BitVec 64)
  /-- `REPLAY_TIMEOUT` (R366). -/
  | replayTimeout (l : Ln)
  /-- `LINK_FRAME_SEND` (R365). -/
  | linkFrameSend (l : Ln)
  /-- `FRAME_DISCARD_RX` (R362). -/
  | frameDiscardRx (l : Ln) (why : RxFault) (alive : BitVec 8) (gseq : BitVec 32) (length : Nat)
  /-- `FRAME_HANDOUT` (R355). -/
  | frameHandout
  /-- `QUEUE_AGE_DROP` (R384). -/
  | queueAgeDrop
  /-- `SDP_FRAME` (R388). -/
  | sdpFrame (l : Ln) (f : RxFrame)
  /-- `DOMINO_FRAME` (R379). -/
  | dominoFrame (l : Ln) (f : RxFrame)
  /-- `CASCADE_FRAME` (R385). -/
  | cascadeFrame (l : Ln) (f : RxFrame)
  /-- `CASCADE_GAP_SKIP` (R368). -/
  | cascadeGapSkip
  /-- `CASCADE_HOLD_EXPIRE` (R387). -/
  | cascadeHoldExpire
  /-- `HELLO` (R401). -/
  | hello (h : SdpHdr) (role : Nat) (slot : Nat) (clientNonce : List Byte)
  /-- `AUTH` (R402). -/
  | auth (h : SdpHdr) (signature : List Byte)
  /-- `CLOSE` (R405). -/
  | close (h : SdpHdr)
  /-- `READ` (R406). -/
  | read (h : SdpHdr) (addrs : List ObjAddr)
  /-- `WRITE` (R407). -/
  | write (h : SdpHdr) (items : List WItem)
  /-- `READ_SEG` (R410). -/
  | readSeg (h : SdpHdr) (addr : ObjAddr) (offset length : Nat)
  /-- `WRITE_SEG` (R411). -/
  | writeSeg (h : SdpHdr) (addr : ObjAddr) (offset : Nat) (data : List Byte) (last : Bool)
  /-- `SUBSCRIBE` (R413). -/
  | subscribe (h : SdpHdr) (sub : EvSub)
  /-- `UNSUBSCRIBE` (R413). -/
  | unsubscribe (h : SdpHdr) (sub : Nat)
  /-- `EVENT_READ` (R414). -/
  | eventRead (h : SdpHdr) (first count : Nat)
  /-- `SET_SAVE` (R417). -/
  | setSave (h : SdpHdr) (slot : Nat) (name : List Byte)
  /-- `SET_SAVE_DONE` (R417). -/
  | setSaveDone
  /-- `SET_RESTORE` (R418). -/
  | setRestore (h : SdpHdr) (slot : Nat)
  /-- `SET_RESTORE_DONE` (R418). -/
  | setRestoreDone
  /-- `PING` (R400). -/
  | ping (h : SdpHdr) (data : List Byte)
  /-- `SDP_UNKNOWN_OPCODE` (R400). -/
  | sdpUnknownOpcode (h : SdpHdr) (opcode : BitVec 8) (body : List Byte)
  /-- `SDP_MALFORMED_DATAGRAM` (R396). -/
  | sdpMalformedDatagram
  /-- `SESSION_AUTH_TIMEOUT` (R401). -/
  | sessionAuthTimeout (session : Nat)
  /-- `SESSION_IDLE_TIMEOUT` (R405). -/
  | sessionIdleTimeout (session : Nat)
  /-- `WRITE_SEG_TIMEOUT` (R411). -/
  | writeSegTimeout (addr : ObjAddr)
  /-- `EVENT_SEND` (R414). -/
  | eventSend (session : Nat)
  /-- `KEY_SLOT_WRITE` (R405). -/
  | keySlotWrite (r : Role) (slot : Fin 8) (what : KeyPart) (value : List Byte)
  /-- `SET_ERASE` (R422). -/
  | setErase (r : Role) (slot : Fin 8)
  /-- `GENERIC_OBJECT_WRITE` (R407). -/
  | genericObjectWrite (r : Role) (addr : ObjAddr) (value : List Byte)
  /-- `APP_OBJ_READ` (R463). -/
  | appObjRead (addr : ObjAddr)
  /-- `APP_OBJ_WRITE` (R463). -/
  | appObjWrite (addr : ObjAddr) (value : List Byte)
  /-- `APP_ENG_SEND` (R463). -/
  | appEngSend (k : Se) (m : Msg)
  /-- `APP_ENG_RECV` (R463). -/
  | appEngRecv (k : Se)
  /-- `APP_CVU` (R463). -/
  | appCvu (u : Fin 4) (desc : BitVec 256)
  /-- `APP_DATA_RW` (R463). -/
  | appDataRw (offset length : Nat) (write : Bool) (data : List Byte)
  /-- `APP_LOG_FAULT` (R463). -/
  | appLogFault (code : Nat) (arg : List Byte)
  /-- `APP_KICK` (R463). -/
  | appKick
  /-- `APP_CONFIRM` (R463). -/
  | appConfirm
  /-- `APP_OBJ_REPLY` (R463). -/
  | appObjReply (request : Nat) (status : Nat) (value : List Byte)
  /-- `APP_BAD_SERVICE` (R463). -/
  | appBadService (number : Nat)
  /-- `APP_ACCESS_FAULT` (R461). -/
  | appAccessFault
  /-- `APP_WATCHDOG_EXPIRE` (R461). -/
  | appWatchdogExpire
  /-- `APP_TRIAL_TIMEOUT` (R460). -/
  | appTrialTimeout
  /-- `APP_REPLY_TIMEOUT` (R464). -/
  | appReplyTimeout (request : Nat)
  /-- `KERNEL_CONFIRM` (R459). -/
  | kernelConfirm (r : Role)
  /-- `KERNEL_TRIAL_TIMEOUT` (R459). -/
  | kernelTrialTimeout
  /-- `ROLLBACK_COMMIT` (R456). -/
  | rollbackCommit (r : Role)
  /-- `FUSE_OWNER_KEY` (R455). -/
  | fuseOwnerKey (r : Role) (key : Fin 4) (hash : List Byte)
  /-- `FUSE_OWNER_REVOKE` (R455). -/
  | fuseOwnerRevoke (r : Role) (key : Fin 4)
  /-- `IMAGE_VERIFY` (R465). -/
  | imageVerify (r : Role) (slot : Fin 68)
  /-- `IMAGE_VERIFY_DONE` (R454). -/
  | imageVerifyDone (slot : Fin 68)
  /-- `IMAGE_ERASE` (R466). -/
  | imageErase (r : Role) (slot : Fin 68)
  /-- `IMAGE_ACTIVATE` (R465). -/
  | imageActivate (r : Role) (slot : Fin 4)
  /-- `MODE_REQUEST` (R482). -/
  | modeRequest (r : Role) (value : BitVec 64) (afterCutoff : Bool)
  /-- `MODE_CANCEL` (R484). -/
  | modeCancel (r : Role)
  /-- `MODE_CUTOFF_CHECK` (R484). -/
  | modeCutoffCheck
  /-- `MODE_CHANGE_APPLY` (R485). -/
  | modeChangeApply
  /-- `SOFT_RESET` (R477). -/
  | softReset (r : Role) (e : ResetElem)
  /-- `SOFT_RESET_APPLY` (R476). -/
  | softResetApply
  /-- `DIE_SOFT_RESET_DONE` (R476). -/
  | dieSoftResetDone (d : Rd)
  /-- `RESET_CMD_WARM` (R472). -/
  | resetCmdWarm (r : Role)
  /-- `RESET_CMD_DUMP_PRESERVING` (R472). -/
  | resetCmdDumpPreserving (r : Role)
  /-- `FATAL_FAULT` (R504). -/
  | fatalFault (code : BitVec 16) (kind num : Nat)
  /-- `LOCKSTEP_MISMATCH` (R447). -/
  | lockstepMismatch
  /-- `DUMP_WRITE_DONE` (R504). -/
  | dumpWriteDone
  /-- `DUMP_COPY_DONE` (R504). -/
  | dumpCopyDone
  /-- `DUMP_ACK` (R508). -/
  | dumpAck (r : Role)
  /-- `HALT_AUTO_RESET` (R474). -/
  | haltAutoReset
  /-- `HALT_AUTO_HOUR_END` (R474). -/
  | haltAutoHourEnd
  /-- `SCRUB_GRANULE` (R436). -/
  | scrubGranule (dom : Domain) (err : EccError)
  /-- `ECC_BUCKET_LEAK` (R434). -/
  | eccBucketLeak (dom : Domain)
  /-- `SCRUB_SLOW` (R437). -/
  | scrubSlow (dom : Domain)
  /-- `CVU_SUBMIT` (R439). -/
  | cvuSubmit (r : Role) (u : Fin 4) (desc : BitVec 256)
  /-- `CVU_JOB_DONE` (R443). -/
  | cvuJobDone (u : Fin 4)
  /-- `CVU_CONTEXT_WRITE` (R442). -/
  | cvuContextWrite (r : Role) (u : Fin 4) (value : BitVec 96)
  /-- `CFG_MASTER_CHECK` (R494). -/
  | cfgMasterCheck
  /-- `CFG_MASTER_REPAIR` (R494). -/
  | cfgMasterRepair
  /-- `FAULT_SPAN_END` (R498). -/
  | faultSpanEnd (code : BitVec 16) (kind num : Nat)
  /-- `CONVERTER_STUCK` (R496). -/
  | converterStuck (n : Ch)
  /-- `CH_QUARANTINE` (R496). -/
  | chQuarantine (r : Role) (n : Ch)
  /-- `CH_RELEASE` (R497). -/
  | chRelease (r : Role) (n : Ch)
  /-- `CH_QUARANTINE_APPLY` (R497). -/
  | chQuarantineApply (n : Ch)
  /-- `SELFTEST_START` (R500). -/
  | selftestStart (r : Role) (mask : BitVec 64)
  /-- `SELFTEST_PARTITION_DONE` (R501). -/
  | selftestPartitionDone (signature : BitVec 64) (ticks : Nat)
  /-- `SINGLE_EVENT_UPSET` (R489). -/
  | singleEventUpset (u : Upset)
  /-- `APP_POISON_STOP` (R461). -/
  | appPoisonStop
  /-- `TEMPERATURE_COMPARATOR_TRIP` (R102). -/
  | temperatureComparatorTrip (h : Hk)
  /-- `FUSE_BURN_DONE` (R455). -/
  | fuseBurnDone
  /-- `NET_LINK_STATE_CHANGE` (R422). -/
  | netLinkStateChange (state : Fin 3)
  /-- `ARP_REQUEST` (R9). -/
  | arpRequest (senderIp targetIp : BitVec 32) (senderMac : BitVec 48)
  /-- `READER_PLL_LOCK` (R310). -/
  | readerPllLock (d : Rd)
deriving DecidableEq, Repr

end Sys2Proof
end

