-- ==== Sys2Proof/Config.lean ====
section
/-! DEFINITION. What the spec leaves open, as constants without a body. Nothing can be proved of their values. -/

namespace Sys2Proof.Config

/-- The `n`th free value of a run, applied to the state's counter (assumption log 5, DESIGN CHOICE). -/
opaque free : Nat → Nat

/-- The golden signature of a self-test partition for a die stepping, held in ROM (21 R500, R509; assumption log 7, DESIGN CHOICE). -/
opaque golden (partition step : Nat) : BitVec 64

/-- The order in which a sum of products is evaluated in binary32 (04 R99, 05 R108; assumption log 8, DESIGN CHOICE). -/
opaque f32Form : Nat

/-- Whether a component of a channel value is rounded up (05 R117 states no rounding; assumption log 9, DESIGN CHOICE), by input, channel,
component and tick. -/
opaque chanUp (input channel part tick : Nat) : Bool

/-- The dump sections whose bytes the spec does not lay out (21 R505; assumption log 10, DESIGN CHOICE), by section, offset and tick. -/
opaque dumpByte (section_ offset tick : Nat) : Byte

/-- The granules of a reader die's SRAM, whose size the spec does not give (18 R423; assumption log 28, DESIGN CHOICE), less one. -/
opaque dieGranules : Nat

/-- What the granule of a reader die's SRAM at a granule address holds, as a number that the model reads as a word of a live table or as
something else (18 R423, R432; assumption log 28, DESIGN CHOICE). -/
opaque dieWord (die granule : Nat) : Nat

/-- The write role that the application image in a slot declares for an object of 0xC000-0xEFFF (17 R420; 19 R464; assumption log
34, DESIGN CHOICE). -/
opaque appRole (slot index : Nat) : Nat

end Sys2Proof.Config
end

