-- ==== Sys2Proof/Machine/SMap.lean ====
section
/-! DEFINITION. The operations of sparse maps and of byte lists. `d` is always what an unlisted key reads as. -/

namespace Sys2Proof.Machine

/-- What key `i` holds. -/
def smGet {α : Type} (d : α) : SMap α → Nat → α
  | [], _ => d
  | (k, v) :: m, i => if k = i then v else smGet d m i

/-- The map with the entry `(i, v)` in its place. -/
def smIns {α : Type} (i : Nat) (v : α) : SMap α → SMap α
  | [] => [(i, v)]
  | (k, w) :: r => if i < k then (i, v) :: (k, w) :: r else if i = k then (i, v) :: r else (k, w) :: smIns i v r

/-- The map with `v` at `i`, in canonical form: the default is not listed. -/
def smPut {α : Type} [DecidableEq α] (d : α) (m : SMap α) (i : Nat) (v : α) : SMap α :=
  if v = d then m.filter fun e => e.1 != i else smIns i v m

/-- The map with the value at `i` changed by `f`. -/
def smUpd {α : Type} [DecidableEq α] (d : α) (m : SMap α) (i : Nat) (f : α → α) : SMap α :=
  smPut d m i (f (smGet d m i))

/-- The canonical form: keys above `lo` (when given) and strictly rising, no entry equal to the default. -/
def smWfFrom {α : Type} [DecidableEq α] (d : α) : Option Nat → SMap α → Bool
  | _, [] => true
  | lo, (k, v) :: m => (match lo with | none => true | some l => decide (l < k)) && decide (v ≠ d) && smWfFrom d (some k) m

/-- The canonical form of a sparse map. -/
def smWf {α : Type} [DecidableEq α] (d : α) (m : SMap α) : Bool := smWfFrom d none m

/-- The entries of `n` keys from `i` whose values `f` gives, the default ones left out. -/
def smBuild {α : Type} [DecidableEq α] (d : α) (f : Nat → α) : Nat → Nat → SMap α
  | 0, _ => []
  | n + 1, i => if f i = d then smBuild d f n (i + 1) else (i, f i) :: smBuild d f n (i + 1)

/-- Every one of `n` keys from `i` mapped by `f key old`; the entries are walked once. -/
def smMap {α β : Type} [DecidableEq β] (d : α) (e : β) (f : Nat → α → β) : Nat → Nat → SMap α → SMap β
  | 0, _, _ => []
  | n + 1, i, m =>
    let (v, r) := match m with
      | [] => (d, [])
      | (k, w) :: r => if k = i then (w, r) else (d, m)
    if f i v = e then smMap d e f n (i + 1) r else (i, f i v) :: smMap d e f n (i + 1) r

/-- Every listed value mapped, the entries that become the default left out. -/
def smEach {α : Type} [DecidableEq α] (d : α) (f : Nat → α → α) : SMap α → SMap α
  | [] => []
  | (k, v) :: m => if f k v = d then smEach d f m else (k, f k v) :: smEach d f m

/-- The entries whose keys `p` keeps. -/
def smKeep {α : Type} (p : Nat → Bool) (m : SMap α) : SMap α := m.filter fun e => p e.1

/-- The entries of `dst` outside `p` and those of `src` inside it. -/
def smCopy {α : Type} (p : Nat → Bool) : SMap α → SMap α → SMap α
  | src, dst => ((src.filter fun e => p e.1) ++ (dst.filter fun e => !p e.1)).mergeSort fun a b => decide (a.1 ≤ b.1)

/-- `v` as `n` bytes, least-significant first (00 R4). -/
def leBytes (n : Nat) (v : Nat) : List Byte :=
  (List.range n).map fun i => BitVec.ofNat 8 (v >>> (8 * i))

/-- The number that bytes spell, least-significant first (00 R4). -/
def leNat : List Byte → Nat
  | [] => 0
  | b :: r => b.toNat + 256 * leNat r

/-- Two's complement of an integer in `n` bits, as a natural number. -/
def toTwos (n : Nat) (v : Int) : Nat := (v % (2 ^ n : Int)).toNat

/-- The integer that `n` bits hold in two's complement. -/
def ofTwos (n : Nat) (v : Nat) : Int :=
  let u := v % 2 ^ n
  if u < 2 ^ (n - 1) then (u : Int) else (u : Int) - (2 ^ n : Int)

/-- An integer as `n` little-endian bytes of two's complement. -/
def leInt (n : Nat) (v : Int) : List Byte := leBytes n (toTwos (8 * n) v)

/-- `n` bytes of `l` from offset `o`, zeros beyond its end. -/
def slice (l : List Byte) (o n : Nat) : List Byte :=
  (List.range n).map fun i => (l[o + i]?).getD 0

/-- Cuts a list into pieces of at most `n`. -/
def chunks {α : Type} (n : Nat) : Nat → List α → List (List α)
  | 0, _ => []
  | fuel + 1, l => if l.isEmpty then [] else l.take n :: chunks n fuel (l.drop n)

/-- `l` with `v` written over it from offset `o`; its length stays. -/
def overlay (l : List Byte) (o : Nat) (v : List Byte) : List Byte :=
  l.take o ++ (v ++ l.drop (o + v.length)) |>.take l.length

/-- A value rounded to the nearest multiple of 2^n and divided by it, halves away from negative infinity (`floor(x + 1/2)`). -/
def roundShift (x : Int) (n : Nat) : Int := if n = 0 then x else (x + 2 ^ (n - 1)) / (2 ^ n : Int)

/-- A value held inside `[lo, hi]`. -/
def clampInt (lo hi x : Int) : Int := if x < lo then lo else if x > hi then hi else x

/-- A list's element, `d` outside it. -/
def nth {α : Type} (d : α) (l : List α) (i : Nat) : α := (l[i]?).getD d

/-- `l` with element `i` changed by `f`. -/
def modNth {α : Type} (l : List α) (i : Nat) (f : α → α) : List α :=
  match l, i with
  | [], _ => []
  | a :: r, 0 => f a :: r
  | a :: r, i + 1 => a :: modNth r i f

/-- Bit `i` of a number. -/
def bitOf (v i : Nat) : Bool := v.testBit i

/-- The number with the bits of `bs` at its places. -/
def ofBits (bs : List Bool) : Nat := bs.foldr (fun b acc => (if b then 1 else 0) + 2 * acc) 0

/-- The number with bit `i` set. -/
def setBit (v i : Nat) : Nat := v ||| (1 <<< i)

/-- The number with bit `i` cleared. -/
def clrBit (v i : Nat) : Nat := if v.testBit i then v - (1 <<< i) else v

/-- Integer square root: the greatest `r` with `r * r ≤ n`, found bit by bit. -/
def isqrtStep (n : Nat) : Nat → Nat → Nat
  | 0, r => r
  | b + 1, r => let c := r + 2 ^ b; isqrtStep n b (if c * c ≤ n then c else r)

/-- The integer square root of `n`. -/
def isqrt (n : Nat) : Nat := isqrtStep n (Nat.log2 n / 2 + 1) 0

end Sys2Proof.Machine
end

