-- ==== Sys2Proof/Machine/Numeric.lean ====
section
/-! DEFINITION. Arithmetic the rules share: rounding, binary32 values (00 R9), fixed-point sines and cosines, and the
check values of 18 R438. -/

namespace Sys2Proof.Machine

/-! ### Rounding -/

/-- `a / b` rounded to nearest, ties away from zero (for `b > 0`). -/
def divAway (a : Int) (b : Nat) : Int :=
  if a ≥ 0 then (2 * a + b) / (2 * b : Int) else -((2 * (-a) + b) / (2 * b : Int))

/-- `a / b` rounded to nearest, ties to even (for `b > 0`). -/
def divEven (a : Nat) (b : Nat) : Nat :=
  let q := a / b
  let r := a % b
  if 2 * r < b then q else if 2 * r > b then q + 1 else q + q % 2

/-! ### binary32 (00 R9): finite values as `num / 2^sh` -/

/-- The exact value of a binary32 word: a numerator over `2^149`. -/
def f32Num (w : Nat) : Int :=
  let e : Nat := (w >>> 23) % 256
  let m : Nat := w % 2 ^ 23
  let v : Nat := if e = 0 then m else (2 ^ 23 + m) * 2 ^ (e - 1)
  if w.testBit 31 then -(v : Int) else (v : Int)

/-- Whether a binary32 word is a NaN or an infinity (17 R391). -/
def f32Bad (w : Nat) : Bool := (w >>> 23) % 256 = 255

/-- The binary32 word nearest `n / d` (ties to even, `d > 0`); overflow gives the largest finite value (00 R9), and a
result below the normal range gives zero (assumption log 20, DESIGN CHOICE). -/
def f32OfRat (n : Int) (d : Nat) : Nat :=
  let a := n.natAbs
  let sgn := if n < 0 then 2 ^ 31 else 0
  if a = 0 then 0 else
    -- the exponent x with 2^x ≤ a/d < 2^(x+1)
    let la := Nat.log2 a
    let ld := Nat.log2 d
    let x0 : Int := (la : Int) - ld
    let lt : Bool := if x0 ≥ 0 then decide (a < d * 2 ^ x0.toNat) else decide (a * 2 ^ (-x0).toNat < d)
    let x : Int := if lt then x0 - 1 else x0
    let s : Int := x - 23
    let m := if s ≥ 0 then divEven a (d * 2 ^ s.toNat) else divEven (a * 2 ^ (-s).toNat) d
    let (m, x) := if m ≥ 2 ^ 24 then (m / 2, x + 1) else (m, x)
    if x > 127 then sgn + 0x7F7FFFFF
    else if x < -126 then 0
    else sgn + ((x + 127).toNat * 2 ^ 23 + (m - 2 ^ 23))

/-- The binary32 word of an exact numerator over `2^149`. -/
def f32OfNum (n : Int) : Nat := f32OfRat n (2 ^ 149)

/-- The sum of two binary32 words, rounded once. -/
def f32Add (a b : Nat) : Nat := f32OfNum (f32Num a + f32Num b)

/-- The difference of two binary32 words, rounded once. -/
def f32Sub (a b : Nat) : Nat := f32OfNum (f32Num a - f32Num b)

/-- The product of two binary32 words, rounded once. -/
def f32Mul (a b : Nat) : Nat := f32OfRat (f32Num a * f32Num b) (2 ^ 298)

/-- The binary32 word of an integer. -/
def f32OfInt (n : Int) : Nat := f32OfRat n 1

/-- Whether binary32 value `a` is below `b`. -/
def f32Lt (a b : Nat) : Bool := decide (f32Num a < f32Num b)

/-! ### Sines and cosines -/

/-- Fraction bits of the trigonometric values. -/
def trigBits : Nat := 96

/-- π with `trigBits` fraction bits. -/
def piFix : Nat := 0x3243F6A8885A308D313198A2E

/-- The Taylor terms of sine or cosine at `x` (fixed point), from the term `t` of index `k`. -/
def trigTerms (x2 : Int) : Nat → Nat → Int → Int
  | 0, _, _ => 0
  | n + 1, k, t =>
    let t' := -(t * x2) / (2 ^ trigBits : Int) / ((k + 1) * (k + 2) : Nat)
    t + trigTerms x2 n (k + 2) t'

/-- Sine of a fixed-point angle in [0, π/4]. -/
def sinSmall (x : Int) : Int := trigTerms (x * x / (2 ^ trigBits : Int)) 16 1 x

/-- Cosine of a fixed-point angle in [0, π/4]. -/
def cosSmall (x : Int) : Int := trigTerms (x * x / (2 ^ trigBits : Int)) 16 0 (2 ^ trigBits)

/-- Sine and cosine of `2π · a / n`, with `trigBits` fraction bits: the angle is reduced to an octant first. -/
def sinCosTurn (a : Int) (n : Nat) : Int × Int :=
  let p := (a % (n : Int)).toNat
  let q := 8 * p / n                       -- octant
  let r := 8 * p - q * n                   -- position inside it, over n
  let ang (k : Nat) : Int := (piFix * k / (4 * n) : Nat)
  let s := sinSmall (ang r)
  let c := cosSmall (ang r)
  let s' := sinSmall (ang (n - r))
  let c' := cosSmall (ang (n - r))
  match q with
  | 0 => (s, c)
  | 1 => (c', s')
  | 2 => (c, -s)
  | 3 => (s', -c')
  | 4 => (-s, -c)
  | 5 => (-c', -s')
  | 6 => (-c, s)
  | _ => (-s', c')

/-! ### Check values (18 R438) -/

/-- One byte into a reflected 32-bit CRC of reflected polynomial `poly`. -/
def crc32Byte (poly : Nat) (c : Nat) (b : Nat) : Nat :=
  let rec go : Nat → Nat → Nat
    | 0, v => v
    | n + 1, v => go n (if v % 2 = 1 then (v / 2) ^^^ poly else v / 2)
  go 8 (c ^^^ b)

/-- The running value of a reflected 32-bit CRC over bytes. -/
def crc32Run (poly : Nat) (c : Nat) (l : List Byte) : Nat := l.foldl (fun a b => crc32Byte poly a b.toNat) c

/-- CRC-32C of bytes. -/
def crc32c (l : List Byte) : Nat := crc32Run 0x82F63B78 0xFFFFFFFF l ^^^ 0xFFFFFFFF

/-- CRC-32 of bytes. -/
def crc32 (l : List Byte) : Nat := crc32Run 0xEDB88320 0xFFFFFFFF l ^^^ 0xFFFFFFFF

/-- One byte into CRC-16/CCITT. -/
def crc16Byte (c : Nat) (b : Nat) : Nat :=
  let rec go : Nat → Nat → Nat
    | 0, v => v
    | n + 1, v => go n (if v ≥ 0x8000 then ((v * 2) ^^^ 0x1021) % 0x10000 else v * 2)
  go 8 (c ^^^ (b * 256))

/-- The running value of CRC-16/CCITT over bytes. -/
def crc16Run (c : Nat) (l : List Byte) : Nat := l.foldl (fun a b => crc16Byte a b.toNat) c

/-- CRC-16/CCITT of bytes. -/
def crc16 (l : List Byte) : Nat := crc16Run 0xFFFF l

end Sys2Proof.Machine
end

