-- ==== Sys2Proof/Machine/Objects.lean ====
section
/-! DEFINITION. The object dictionary (17 R390-R394, R420): one `ObjDef` per object of the chapters' object tables, with
its address, scope, type, access, write role, default and range as those tables give them. Ranges that depend on other
objects, and lists of separate values, are judged by `Sys2Proof.Machine.constraintOk`. -/

namespace Sys2Proof.Machine

/-- The scopes of objects (00 R6, 17 R390). `table` is "as R37", `softReset` the scopes of `SOFT_RESET`, `domain` the
ECC domains of R423, `rdCd` RD0-RD7 and CD. -/
inductive Scope where
  | none | ch | cl | rg | rd | rdCd | se | bk | ln | tdc | hk | domain | table | softReset
deriving DecidableEq, Repr

/-- The types of R391. -/
inductive Ty where
  | bool | u8 | u16 | u32 | u64 | i8 | i16 | i32 | i64 | f32 | time72 | enum | str | blob
deriving DecidableEq, Repr

/-- The access kinds of R392 that the object tables use. -/
inductive Access where
  | ro | rw | wo | rwm
deriving DecidableEq, Repr

/-- What a BLOB holds by default. -/
inductive BlobDefault where
  | fill (n : Nat) (b : Nat) | window | gains | trigSets | coderTab | tdcNominal
deriving DecidableEq, Repr

/-- One object of the dictionary. A BLOB's `size` is its bytes (0 where the object's own rule says how many), `role` the
least role that may write it (R394, R420), `result` a result object (R409), `long` a write that is a long action
(R408). -/
structure ObjDef where
  idx    : Nat
  subLo  : Nat := 0
  subHi  : Nat := 0
  scope  : Scope := .none
  ty     : Ty
  access : Access
  role   : Nat
  dflt   : Int := 0
  lo     : Int := 0
  hi     : Int := 0
  size   : Nat := 0
  bd     : BlobDefault := .fill 0 0
  result : Bool := false
  long   : Bool := false
deriving DecidableEq, Repr

end Sys2Proof.Machine

namespace Sys2Proof.Machine.Obj

open Sys2Proof.Machine

/-- `VENDOR` (R422). -/
def VENDOR : ObjDef :=
  { idx := 0x0000, ty := .str, access := .ro, role := 2, size := 0 }

/-- `PRODUCT` (R422). -/
def PRODUCT : ObjDef :=
  { idx := 0x0001, ty := .str, access := .ro, role := 2, size := 0 }

/-- `SERIAL` (R422). -/
def SERIAL : ObjDef :=
  { idx := 0x0002, ty := .u64, access := .ro, role := 2, lo := 0, hi := 18446744073709551615 }

/-- `MODULE_NUMBER` (R422). -/
def MODULE_NUMBER : ObjDef :=
  { idx := 0x0003, ty := .u16, access := .ro, role := 2, lo := 0, hi := 65535 }

/-- `HW_STEP` (R422). -/
def HW_STEP : ObjDef :=
  { idx := 0x0004, scope := .rdCd, ty := .u8, access := .ro, role := 2, lo := 0, hi := 255 }

/-- `KERNEL_VERSION` (R422). -/
def KERNEL_VERSION : ObjDef :=
  { idx := 0x0005, ty := .u32, access := .ro, role := 2, lo := 0, hi := 4294967295 }

/-- `APP_VERSION` (R422). -/
def APP_VERSION : ObjDef :=
  { idx := 0x0006, ty := .u32, access := .ro, role := 2, lo := 0, hi := 4294967295 }

/-- `DICT_LAYOUT` (R422). -/
def DICT_LAYOUT : ObjDef :=
  { idx := 0x0007, ty := .u16, access := .ro, role := 2, lo := 0, hi := 65535 }

/-- `EVENT_SEQ` (R422). -/
def EVENT_SEQ : ObjDef :=
  { idx := 0x0010, ty := .u32, access := .ro, role := 2, lo := 0, hi := 4294967295 }

/-- `EVENT_OLDEST` (R422). -/
def EVENT_OLDEST : ObjDef :=
  { idx := 0x0011, ty := .u32, access := .ro, role := 2, lo := 0, hi := 4294967295 }

/-- `EVENT_CATALOGUE` (R422). -/
def EVENT_CATALOGUE : ObjDef :=
  { idx := 0x0012, ty := .blob, access := .ro, role := 2, size := 36, bd := .fill 36 0 }

/-- `SET_INFO` (R422). -/
def SET_INFO : ObjDef :=
  { idx := 0x0020, subLo := 1, subHi := 8, ty := .blob, access := .ro, role := 2, size := 32, bd := .fill 32 0 }

/-- `SET_BOOT` (R422). -/
def SET_BOOT : ObjDef :=
  { idx := 0x0021, ty := .u8, access := .rw, role := 2, dflt := 255, lo := 0, hi := 255 }

/-- `SET_BOOT_RESULT` (R422). -/
def SET_BOOT_RESULT : ObjDef :=
  { idx := 0x0022, ty := .u8, access := .ro, role := 2, lo := 0, hi := 255 }

/-- `SET_ERASE` (R422). -/
def SET_ERASE : ObjDef :=
  { idx := 0x0023, subLo := 1, subHi := 8, ty := .bool, access := .wo, role := 2, lo := 1, hi := 1 }

/-- `MODE_NOW` (R487). -/
def MODE_NOW : ObjDef :=
  { idx := 0x1000, ty := .enum, access := .ro, role := 1, lo := 0, hi := 255 }

/-- `MODE_REQUEST` (R487). -/
def MODE_REQUEST : ObjDef :=
  { idx := 0x1001, ty := .u64, access := .wo, role := 1, lo := 0, hi := 18446744073709551615, long := true }

/-- `MODE_PENDING` (R487). -/
def MODE_PENDING : ObjDef :=
  { idx := 0x1002, ty := .u64, access := .ro, role := 1, lo := 0, hi := 18446744073709551615 }

/-- `MODE_CANCEL` (R487). -/
def MODE_CANCEL : ObjDef :=
  { idx := 0x1003, ty := .bool, access := .wo, role := 1, lo := 1, hi := 1 }

/-- `MODE_LAST_CHANGE` (R487). -/
def MODE_LAST_CHANGE : ObjDef :=
  { idx := 0x1004, ty := .u64, access := .ro, role := 1, lo := 0, hi := 18446744073709551615 }

/-- `MODE_CHANGE_COUNT` (R487). -/
def MODE_CHANGE_COUNT : ObjDef :=
  { idx := 0x1005, ty := .u32, access := .ro, role := 1, lo := 0, hi := 4294967295 }

/-- `MODE_LAST_REFUSAL` (R487). -/
def MODE_LAST_REFUSAL : ObjDef :=
  { idx := 0x1006, ty := .u16, access := .ro, role := 1, lo := 0, hi := 65535 }

/-- `BOOT_TARGET_MODE` (R487). -/
def BOOT_TARGET_MODE : ObjDef :=
  { idx := 0x1007, ty := .enum, access := .rw, role := 1, dflt := 1, lo := 1, hi := 9 }

/-- `TICK_NOW` (R58). -/
def TICK_NOW : ObjDef :=
  { idx := 0x1010, ty := .u64, access := .ro, role := 1, lo := 0, hi := 18446744073709551615 }

/-- `LATE_COUNT` (R58). -/
def LATE_COUNT : ObjDef :=
  { idx := 0x1011, subLo := 1, subHi := 7, ty := .u32, access := .ro, role := 1, lo := 0, hi := 4294967295 }

/-- `LAST_LATE_TICK` (R58). -/
def LAST_LATE_TICK : ObjDef :=
  { idx := 0x1012, ty := .u64, access := .ro, role := 1, lo := 0, hi := 18446744073709551615 }

/-- `TABLE_GEN` (R58). -/
def TABLE_GEN : ObjDef :=
  { idx := 0x1014, subLo := 1, subHi := 12, scope := .table, ty := .u16, access := .ro, role := 1, lo := 0, hi := 65535 }

/-- `TABLE_SWAP_REQUEST` (R58). -/
def TABLE_SWAP_REQUEST : ObjDef :=
  { idx := 0x1015, subLo := 1, subHi := 12, scope := .table, ty := .u64, access := .wo, role := 1, lo := 0, hi := 18446744073709551615 }

/-- `TABLE_SWAP_STATE` (R58). -/
def TABLE_SWAP_STATE : ObjDef :=
  { idx := 0x1016, subLo := 1, subHi := 12, scope := .table, ty := .enum, access := .ro, role := 1, lo := 0, hi := 255 }

/-- `SWAP_DEFER_COUNT` (R58). -/
def SWAP_DEFER_COUNT : ObjDef :=
  { idx := 0x1017, subLo := 1, subHi := 12, scope := .table, ty := .u32, access := .ro, role := 1, lo := 0, hi := 4294967295 }

/-- `SWAP_GROUP` (R58). -/
def SWAP_GROUP : ObjDef :=
  { idx := 0x1018, subLo := 1, subHi := 12, scope := .table, ty := .u16, access := .rw, role := 1, lo := 0, hi := 65535 }

/-- `SWAP_DEFER_LIMIT` (R58). -/
def SWAP_DEFER_LIMIT : ObjDef :=
  { idx := 0x1019, ty := .u16, access := .rw, role := 1, dflt := 256, lo := 1, hi := 65535 }

/-- `TIME_NOW` (R58). -/
def TIME_NOW : ObjDef :=
  { idx := 0x1020, ty := .time72, access := .ro, role := 1, lo := 0, hi := 4722366482869645213695 }

/-- `TIME_SET` (R58). -/
def TIME_SET : ObjDef :=
  { idx := 0x1021, ty := .time72, access := .rwm, role := 1, lo := 0, hi := 4722366482869645213695 }

/-- `TIME_STATE` (R58). -/
def TIME_STATE : ObjDef :=
  { idx := 0x1022, ty := .enum, access := .ro, role := 1, lo := 0, hi := 255 }

/-- `PPS_OFFSET` (R58). -/
def PPS_OFFSET : ObjDef :=
  { idx := 0x1023, ty := .i32, access := .ro, role := 1, lo := -2147483648, hi := 2147483647 }

/-- `PPS_WINDOW` (R58). -/
def PPS_WINDOW : ObjDef :=
  { idx := 0x1024, ty := .u32, access := .rw, role := 1, dflt := 13107, lo := 128, hi := 1310720 }

/-- `PPS_RELOCK_COUNT` (R58). -/
def PPS_RELOCK_COUNT : ObjDef :=
  { idx := 0x1025, ty := .u8, access := .rw, role := 1, dflt := 3, lo := 1, hi := 16 }

/-- `PPS_MISSING_COUNT` (R58). -/
def PPS_MISSING_COUNT : ObjDef :=
  { idx := 0x1026, ty := .u32, access := .ro, role := 1, lo := 0, hi := 4294967295 }

/-- `PPS_EDGE` (R58). -/
def PPS_EDGE : ObjDef :=
  { idx := 0x1027, ty := .enum, access := .rw, role := 1, lo := 0, hi := 1 }

/-- `PPS_ENABLE` (R58). -/
def PPS_ENABLE : ObjDef :=
  { idx := 0x1028, ty := .bool, access := .rw, role := 1, dflt := 1, lo := 0, hi := 1 }

/-- `REFCLK_FREQ` (R58). -/
def REFCLK_FREQ : ObjDef :=
  { idx := 0x1030, ty := .enum, access := .ro, role := 1, lo := 0, hi := 255 }

/-- `PLL_LOCK` (R58). -/
def PLL_LOCK : ObjDef :=
  { idx := 0x1031, scope := .rdCd, ty := .bool, access := .ro, role := 1, lo := 0, hi := 1 }

/-- `PLL_UNLOCK_COUNT` (R58). -/
def PLL_UNLOCK_COUNT : ObjDef :=
  { idx := 0x1032, scope := .rdCd, ty := .u32, access := .ro, role := 1, lo := 0, hi := 4294967295 }

/-- `CDC_UNSTABLE_COUNT` (R58). -/
def CDC_UNSTABLE_COUNT : ObjDef :=
  { idx := 0x1040, scope := .rdCd, ty := .u32, access := .ro, role := 1, lo := 0, hi := 4294967295 }

/-- `CDC_LAST_STOPPED` (R58). -/
def CDC_LAST_STOPPED : ObjDef :=
  { idx := 0x1041, ty := .u16, access := .ro, role := 1, dflt := 65535, lo := 0, hi := 65535 }

/-- `SOFT_RESET` (R487). -/
def SOFT_RESET : ObjDef :=
  { idx := 0x1050, scope := .softReset, ty := .bool, access := .wo, role := 1, lo := 1, hi := 1, long := true }

/-- `RESET_CMD` (R487). -/
def RESET_CMD : ObjDef :=
  { idx := 0x1051, ty := .enum, access := .wo, role := 2, lo := 1, hi := 2 }

/-- `RESET_CAUSE` (R487). -/
def RESET_CAUSE : ObjDef :=
  { idx := 0x1052, ty := .enum, access := .ro, role := 1, lo := 0, hi := 255 }

/-- `RESET_PREV_MODE` (R487). -/
def RESET_PREV_MODE : ObjDef :=
  { idx := 0x1053, ty := .enum, access := .ro, role := 1, lo := 0, hi := 255 }

/-- `RESET_COUNT` (R487). -/
def RESET_COUNT : ObjDef :=
  { idx := 0x1054, ty := .u32, access := .ro, role := 1, lo := 0, hi := 4294967295 }

/-- `BOOT_TIME` (R487). -/
def BOOT_TIME : ObjDef :=
  { idx := 0x1055, ty := .u32, access := .ro, role := 1, lo := 0, hi := 4294967295 }

/-- `HALT_AUTO_RESET` (R487). -/
def HALT_AUTO_RESET : ObjDef :=
  { idx := 0x1056, ty := .u32, access := .rw, role := 2, dflt := 225000000, lo := 0, hi := 4294967295 }

/-- `HALT_AUTO_COUNT` (R487). -/
def HALT_AUTO_COUNT : ObjDef :=
  { idx := 0x1057, ty := .u8, access := .ro, role := 1, lo := 0, hi := 255 }

/-- `DIE_STATE` (R29). -/
def DIE_STATE : ObjDef :=
  { idx := 0x1080, scope := .rd, ty := .enum, access := .ro, role := 1, lo := 0, hi := 255 }

/-- `DIE_ISOLATE` (R29). -/
def DIE_ISOLATE : ObjDef :=
  { idx := 0x1081, scope := .rd, ty := .bool, access := .rwm, role := 1, lo := 0, hi := 1 }

/-- `ISOLATED_FEED_POLICY` (R29). -/
def ISOLATED_FEED_POLICY : ObjDef :=
  { idx := 0x1082, ty := .enum, access := .rw, role := 1, lo := 0, hi := 1 }

/-- `INPUTS_IN_SERVICE` (R29). -/
def INPUTS_IN_SERVICE : ObjDef :=
  { idx := 0x1083, ty := .u16, access := .ro, role := 1, dflt := 256, lo := 0, hi := 65535 }

/-- `INPUT_SERVICE_MASK` (R29). -/
def INPUT_SERVICE_MASK : ObjDef :=
  { idx := 0x1084, ty := .blob, access := .ro, role := 1, size := 32, bd := .fill 32 255 }

/-- `D2D_RETRY_COUNT` (R29). -/
def D2D_RETRY_COUNT : ObjDef :=
  { idx := 0x1085, scope := .rd, ty := .u32, access := .ro, role := 1, lo := 0, hi := 4294967295 }

/-- `D2D_FAIL_COUNT` (R29). -/
def D2D_FAIL_COUNT : ObjDef :=
  { idx := 0x1086, scope := .rd, ty := .u32, access := .ro, role := 1, lo := 0, hi := 4294967295 }

/-- `CH_STATE` (R509). -/
def CH_STATE : ObjDef :=
  { idx := 0x1087, scope := .ch, ty := .enum, access := .ro, role := 1, lo := 0, hi := 255 }

/-- `CH_QUARANTINE` (R509). -/
def CH_QUARANTINE : ObjDef :=
  { idx := 0x1088, scope := .ch, ty := .bool, access := .rwm, role := 1, lo := 0, hi := 1 }

/-- `DIE_TEMP_LIMIT` (R509). -/
def DIE_TEMP_LIMIT : ObjDef :=
  { idx := 0x1089, scope := .rd, ty := .i16, access := .rw, role := 1, dflt := 115, lo := 85, hi := 125 }

/-- `RANGE_MODE` (R92). -/
def RANGE_MODE : ObjDef :=
  { idx := 0x2000, scope := .ch, ty := .enum, access := .rw, role := 1, lo := 0, hi := 4 }

/-- `RANGE_ATTACK` (R92). -/
def RANGE_ATTACK : ObjDef :=
  { idx := 0x2001, scope := .ch, ty := .u16, access := .rw, role := 1, dflt := 448, lo := 256, hi := 510 }

/-- `RANGE_RELEASE` (R92). -/
def RANGE_RELEASE : ObjDef :=
  { idx := 0x2002, scope := .ch, ty := .u16, access := .rw, role := 1, dflt := 96, lo := 16, hi := 127 }

/-- `RANGE_HOLD` (R92). -/
def RANGE_HOLD : ObjDef :=
  { idx := 0x2003, scope := .ch, ty := .u16, access := .rw, role := 1, dflt := 64, lo := 8, hi := 65535 }

/-- `RANGE_NOW` (R92). -/
def RANGE_NOW : ObjDef :=
  { idx := 0x2004, scope := .ch, ty := .u8, access := .ro, role := 1, dflt := 3, lo := 0, hi := 255 }

/-- `RANGE_CHANGE_COUNT` (R92). -/
def RANGE_CHANGE_COUNT : ObjDef :=
  { idx := 0x2005, scope := .ch, ty := .u32, access := .ro, role := 1, lo := 0, hi := 4294967295 }

/-- `ATTACK_CLIP_COUNT` (R92). -/
def ATTACK_CLIP_COUNT : ObjDef :=
  { idx := 0x2006, scope := .ch, ty := .u32, access := .ro, role := 1, lo := 0, hi := 4294967295 }

/-- `LOCK_CLIP_COUNT` (R92). -/
def LOCK_CLIP_COUNT : ObjDef :=
  { idx := 0x2007, scope := .ch, ty := .u32, access := .ro, role := 1, lo := 0, hi := 4294967295 }

/-- `SAT_COUNT` (R92). -/
def SAT_COUNT : ObjDef :=
  { idx := 0x2008, scope := .ch, ty := .u32, access := .ro, role := 1, lo := 0, hi := 4294967295 }

/-- `CLAMP_STATE` (R92). -/
def CLAMP_STATE : ObjDef :=
  { idx := 0x2010, scope := .cl, ty := .bool, access := .ro, role := 1, lo := 0, hi := 1 }

/-- `CLAMP_SOURCE` (R92). -/
def CLAMP_SOURCE : ObjDef :=
  { idx := 0x2011, scope := .cl, ty := .u8, access := .rw, role := 1, lo := 0, hi := 15 }

/-- `CLAMP_COUNT` (R92). -/
def CLAMP_COUNT : ObjDef :=
  { idx := 0x2012, scope := .cl, ty := .u32, access := .ro, role := 1, lo := 0, hi := 4294967295 }

/-- `BLANK_MASK` (R92). -/
def BLANK_MASK : ObjDef :=
  { idx := 0x2020, scope := .ch, ty := .u8, access := .rw, role := 1, lo := 0, hi := 15 }

/-- `BLANK_POLARITY` (R92). -/
def BLANK_POLARITY : ObjDef :=
  { idx := 0x2021, ty := .u8, access := .rw, role := 1, lo := 0, hi := 15 }

/-- `BLANK_GATES_TDC` (R92). -/
def BLANK_GATES_TDC : ObjDef :=
  { idx := 0x2022, scope := .ch, ty := .bool, access := .rw, role := 1, dflt := 1, lo := 0, hi := 1 }

/-- `BLANK_SAMPLE_COUNT` (R92). -/
def BLANK_SAMPLE_COUNT : ObjDef :=
  { idx := 0x2023, scope := .ch, ty := .u64, access := .ro, role := 1, lo := 0, hi := 18446744073709551615 }

/-- `BLANK_HIT_DROP_COUNT` (R92). -/
def BLANK_HIT_DROP_COUNT : ObjDef :=
  { idx := 0x2024, scope := .ch, ty := .u32, access := .ro, role := 1, lo := 0, hi := 4294967295 }

/-- `FEED_ENABLE` (R92). -/
def FEED_ENABLE : ObjDef :=
  { idx := 0x2030, scope := .ch, ty := .bool, access := .rw, role := 1, lo := 0, hi := 1 }

/-- `FEED_LIMIT` (R92). -/
def FEED_LIMIT : ObjDef :=
  { idx := 0x2031, scope := .ch, ty := .u8, access := .rw, role := 1, dflt := 50, lo := 10, hi := 200 }

/-- `FEED_OPEN_LIMIT` (R92). -/
def FEED_OPEN_LIMIT : ObjDef :=
  { idx := 0x2032, scope := .ch, ty := .u8, access := .rw, role := 1, dflt := 2, lo := 1, hi := 50 }

/-- `FEED_STATE` (R92). -/
def FEED_STATE : ObjDef :=
  { idx := 0x2033, scope := .ch, ty := .enum, access := .ro, role := 1, lo := 0, hi := 255 }

/-- `FEED_FAULT_COUNT` (R92). -/
def FEED_FAULT_COUNT : ObjDef :=
  { idx := 0x2034, scope := .ch, ty := .u32, access := .ro, role := 1, lo := 0, hi := 4294967295 }

/-- `FEED_LIMIT_COUNT` (R92). -/
def FEED_LIMIT_COUNT : ObjDef :=
  { idx := 0x2035, scope := .ch, ty := .u32, access := .ro, role := 1, lo := 0, hi := 4294967295 }

/-- `VFEED_LOW` (R92). -/
def VFEED_LOW : ObjDef :=
  { idx := 0x2036, scope := .rd, ty := .bool, access := .ro, role := 1, lo := 0, hi := 1 }

/-- `INJ_MODE` (R92). -/
def INJ_MODE : ObjDef :=
  { idx := 0x2040, scope := .cl, ty := .enum, access := .rw, role := 1, lo := 0, hi := 2 }

/-- `INJ_LEVEL` (R92). -/
def INJ_LEVEL : ObjDef :=
  { idx := 0x2041, scope := .cl, ty := .i8, access := .rw, role := 1, dflt := -40, lo := -80, hi := -20 }

/-- `INJ_COMB_SPACING` (R92). -/
def INJ_COMB_SPACING : ObjDef :=
  { idx := 0x2042, scope := .cl, ty := .u8, access := .rw, role := 1, dflt := 16, lo := 1, hi := 64 }

/-- `INJ_MASK` (R92). -/
def INJ_MASK : ObjDef :=
  { idx := 0x2043, scope := .cl, ty := .u8, access := .rw, role := 1, dflt := 15, lo := 0, hi := 15 }

/-- `INJ_PN_SEED` (R92). -/
def INJ_PN_SEED : ObjDef :=
  { idx := 0x2044, scope := .cl, ty := .u16, access := .rw, role := 1, dflt := 1, lo := 1, hi := 32767 }

/-- `EXC_SETTLE` (R92). -/
def EXC_SETTLE : ObjDef :=
  { idx := 0x2050, scope := .ch, ty := .u16, access := .rw, role := 1, dflt := 256, lo := 1, hi := 65535 }

/-- `EXC_REMAINING` (R92). -/
def EXC_REMAINING : ObjDef :=
  { idx := 0x2051, scope := .ch, ty := .u16, access := .ro, role := 1, lo := 0, hi := 65535 }

/-- `HK_SEQ_ENTRY` (R107). -/
def HK_SEQ_ENTRY : ObjDef :=
  { idx := 0x2800, subLo := 1, subHi := 16, scope := .hk, ty := .u32, access := .rw, role := 1, lo := 0, hi := 4294967295 }

/-- `HK_SEQ_LENGTH` (R107). -/
def HK_SEQ_LENGTH : ObjDef :=
  { idx := 0x2801, scope := .hk, ty := .u8, access := .rw, role := 1, dflt := 9, lo := 1, hi := 16 }

/-- `HK_SEQ_PERIOD` (R107). -/
def HK_SEQ_PERIOD : ObjDef :=
  { idx := 0x2802, scope := .hk, ty := .u16, access := .rw, role := 1, dflt := 250, lo := 0, hi := 65535 }

/-- `HK_SEQ_COMMIT` (R107). -/
def HK_SEQ_COMMIT : ObjDef :=
  { idx := 0x2803, scope := .hk, ty := .bool, access := .wo, role := 1, lo := 1, hi := 1 }

/-- `HK_SEQ_GEN` (R107). -/
def HK_SEQ_GEN : ObjDef :=
  { idx := 0x2804, scope := .hk, ty := .u16, access := .ro, role := 1, lo := 0, hi := 65535 }

/-- `HK_OVERRUN_COUNT` (R107). -/
def HK_OVERRUN_COUNT : ObjDef :=
  { idx := 0x2805, scope := .hk, ty := .u32, access := .ro, role := 1, lo := 0, hi := 4294967295 }

/-- `HK_URGENT_REQUEST` (R107). -/
def HK_URGENT_REQUEST : ObjDef :=
  { idx := 0x2806, scope := .hk, ty := .u8, access := .wo, role := 1, lo := 0, hi := 255 }

/-- `HK_URGENT_CFG` (R107). -/
def HK_URGENT_CFG : ObjDef :=
  { idx := 0x2807, scope := .hk, ty := .u32, access := .rw, role := 1, dflt := 8389376, lo := 0, hi := 4294967295 }

/-- `HK_URGENT_ON_FAULT` (R107). -/
def HK_URGENT_ON_FAULT : ObjDef :=
  { idx := 0x2808, scope := .hk, ty := .bool, access := .rw, role := 1, dflt := 1, lo := 0, hi := 1 }

/-- `HK_URGENT_DROP_COUNT` (R107). -/
def HK_URGENT_DROP_COUNT : ObjDef :=
  { idx := 0x2809, scope := .hk, ty := .u32, access := .ro, role := 1, lo := 0, hi := 4294967295 }

/-- `HK_ABORT_COUNT` (R107). -/
def HK_ABORT_COUNT : ObjDef :=
  { idx := 0x280A, scope := .hk, ty := .u32, access := .ro, role := 1, lo := 0, hi := 4294967295 }

/-- `HK_DISCARD_COUNT` (R107). -/
def HK_DISCARD_COUNT : ObjDef :=
  { idx := 0x280B, scope := .hk, ty := .u32, access := .ro, role := 1, lo := 0, hi := 4294967295 }

/-- `HK_STATE` (R107). -/
def HK_STATE : ObjDef :=
  { idx := 0x280C, scope := .hk, ty := .enum, access := .ro, role := 1, lo := 0, hi := 255 }

/-- `HK_RESULT` (R107). -/
def HK_RESULT : ObjDef :=
  { idx := 0x2810, subLo := 1, subHi := 128, scope := .hk, ty := .blob, access := .ro, role := 1, size := 16, bd := .fill 16 0, result := true }

/-- `HK_FILTER_SHIFT` (R107). -/
def HK_FILTER_SHIFT : ObjDef :=
  { idx := 0x2811, subLo := 1, subHi := 128, scope := .hk, ty := .u8, access := .rw, role := 1, lo := 0, hi := 8 }

/-- `HK_COEFF` (R107). -/
def HK_COEFF : ObjDef :=
  { idx := 0x2820, subLo := 1, subHi := 128, scope := .hk, ty := .f32, access := .rw, role := 1, lo := 0, hi := 4294967295 }

/-- `LIN_COEFF` (R133). -/
def LIN_COEFF : ObjDef :=
  { idx := 0x3000, subLo := 1, subHi := 48, scope := .ch, ty := .f32, access := .rw, role := 1, lo := 0, hi := 4294967295 }

/-- `LIN_COEFF_COMMIT` (R133). -/
def LIN_COEFF_COMMIT : ObjDef :=
  { idx := 0x3001, scope := .rg, ty := .bool, access := .wo, role := 1, lo := 1, hi := 1 }

/-- `LIN_REBUILD` (R133). -/
def LIN_REBUILD : ObjDef :=
  { idx := 0x3002, scope := .rg, ty := .bool, access := .wo, role := 1, lo := 1, hi := 1 }

/-- `LIN_MODE` (R133). -/
def LIN_MODE : ObjDef :=
  { idx := 0x3003, scope := .ch, ty := .enum, access := .rw, role := 1, lo := 0, hi := 1 }

/-- `SAT_FILL` (R133). -/
def SAT_FILL : ObjDef :=
  { idx := 0x3004, scope := .ch, ty := .enum, access := .rw, role := 1, lo := 0, hi := 1 }

/-- `LIN_SAT_COUNT` (R133). -/
def LIN_SAT_COUNT : ObjDef :=
  { idx := 0x3005, scope := .ch, ty := .u32, access := .ro, role := 1, lo := 0, hi := 4294967295 }

/-- `LIN_TEMP` (R133). -/
def LIN_TEMP : ObjDef :=
  { idx := 0x3006, scope := .rg, ty := .f32, access := .ro, role := 1, dflt := 1103626240, lo := 0, hi := 4294967295 }

/-- `LIN_T_STATE` (R133). -/
def LIN_T_STATE : ObjDef :=
  { idx := 0x3007, scope := .rg, ty := .enum, access := .ro, role := 1, dflt := 1, lo := 0, hi := 255 }

/-- `LIN_REBUILD_COUNT` (R133). -/
def LIN_REBUILD_COUNT : ObjDef :=
  { idx := 0x3008, scope := .rg, ty := .u32, access := .ro, role := 1, lo := 0, hi := 4294967295 }

/-- `WIN_SHADOW` (R133). -/
def WIN_SHADOW : ObjDef :=
  { idx := 0x3010, scope := .rg, ty := .blob, access := .rw, role := 1, size := 65536, bd := .window }

/-- `WIN_SHADOW_CRC` (R133). -/
def WIN_SHADOW_CRC : ObjDef :=
  { idx := 0x3011, scope := .rg, ty := .u32, access := .wo, role := 1, lo := 0, hi := 4294967295 }

/-- `WIN_LIVE_CRC` (R133). -/
def WIN_LIVE_CRC : ObjDef :=
  { idx := 0x3012, scope := .rg, ty := .u32, access := .ro, role := 1, lo := 0, hi := 4294967295 }

/-- `CHAN_FLAG_SPAN` (R133). -/
def CHAN_FLAG_SPAN : ObjDef :=
  { idx := 0x3013, scope := .rg, ty := .enum, access := .rw, role := 1, dflt := 16, lo := 4, hi := 16 }

/-- `CHAN_SAT_COUNT` (R133). -/
def CHAN_SAT_COUNT : ObjDef :=
  { idx := 0x3014, scope := .ch, ty := .u32, access := .ro, role := 1, lo := 0, hi := 4294967295 }

/-- `WARM_REMAINING` (R133). -/
def WARM_REMAINING : ObjDef :=
  { idx := 0x3015, scope := .rg, ty := .u8, access := .ro, role := 1, lo := 0, hi := 255 }

/-- `SPEC_INT_TICKS` (R133). -/
def SPEC_INT_TICKS : ObjDef :=
  { idx := 0x3020, ty := .u32, access := .rw, role := 1, dflt := 2500, lo := 25, hi := 1048576 }

/-- `SPEC_EXCLUDE_MASK` (R133). -/
def SPEC_EXCLUDE_MASK : ObjDef :=
  { idx := 0x3021, ty := .u16, access := .rw, role := 1, dflt := 3, lo := 0, hi := 65535 }

/-- `SPEC_INPUT_MASK` (R133). -/
def SPEC_INPUT_MASK : ObjDef :=
  { idx := 0x3022, ty := .blob, access := .rw, role := 1, size := 32, bd := .fill 32 255 }

/-- `SPEC_PERIOD_COUNT` (R133). -/
def SPEC_PERIOD_COUNT : ObjDef :=
  { idx := 0x3023, ty := .u32, access := .ro, role := 1, lo := 0, hi := 4294967295 }

/-- `SPEC_LAST_M` (R133). -/
def SPEC_LAST_M : ObjDef :=
  { idx := 0x3024, scope := .ch, ty := .u32, access := .ro, role := 1, lo := 0, hi := 4294967295 }

/-- `REQ_GAIN_SHADOW` (R133). -/
def REQ_GAIN_SHADOW : ObjDef :=
  { idx := 0x3040, scope := .ch, ty := .blob, access := .rw, role := 1, size := 8192, bd := .gains }

/-- `REQ_SHIFT` (R133). -/
def REQ_SHIFT : ObjDef :=
  { idx := 0x3041, scope := .ch, ty := .u8, access := .rw, role := 1, dflt := 14, lo := 0, hi := 31 }

/-- `REQ_SHADOW_CRC` (R133). -/
def REQ_SHADOW_CRC : ObjDef :=
  { idx := 0x3042, scope := .rg, ty := .u32, access := .wo, role := 1, lo := 0, hi := 4294967295 }

/-- `REQ_SAT_COUNT` (R133). -/
def REQ_SAT_COUNT : ObjDef :=
  { idx := 0x3043, scope := .ch, ty := .u32, access := .ro, role := 1, lo := 0, hi := 4294967295 }

/-- `REQ_GAIN_LIVE` (R133). -/
def REQ_GAIN_LIVE : ObjDef :=
  { idx := 0x3044, scope := .ch, ty := .blob, access := .ro, role := 1, size := 8192, bd := .gains }

/-- `REQ_SHIFT_LIVE` (R133). -/
def REQ_SHIFT_LIVE : ObjDef :=
  { idx := 0x3045, scope := .ch, ty := .u8, access := .ro, role := 1, dflt := 14, lo := 0, hi := 255 }

/-- `SUPP_H` (R158). -/
def SUPP_H : ObjDef :=
  { idx := 0x4000, scope := .bk, ty := .u8, access := .rw, role := 1, dflt := 2, lo := 0, hi := 255 }

/-- `SUPP_P` (R158). -/
def SUPP_P : ObjDef :=
  { idx := 0x4001, scope := .bk, ty := .u8, access := .rw, role := 1, dflt := 1, lo := 0, hi := 15 }

/-- `SUPP_ATTACK_SHIFT` (R158). -/
def SUPP_ATTACK_SHIFT : ObjDef :=
  { idx := 0x4002, scope := .bk, ty := .u8, access := .rw, role := 1, dflt := 12, lo := 1, hi := 20 }

/-- `SUPP_DECAY_SHIFT` (R158). -/
def SUPP_DECAY_SHIFT : ObjDef :=
  { idx := 0x4003, scope := .bk, ty := .u8, access := .rw, role := 1, dflt := 12, lo := 1, hi := 20 }

/-- `SUPP_WARM_SHIFT` (R158). -/
def SUPP_WARM_SHIFT : ObjDef :=
  { idx := 0x4004, scope := .bk, ty := .u8, access := .rw, role := 1, dflt := 4, lo := 1, hi := 20 }

/-- `SUPP_WARM_TICKS` (R158). -/
def SUPP_WARM_TICKS : ObjDef :=
  { idx := 0x4005, scope := .bk, ty := .u16, access := .rw, role := 1, dflt := 64, lo := 0, hi := 4095 }

/-- `SUPP_SEED` (R158). -/
def SUPP_SEED : ObjDef :=
  { idx := 0x4006, scope := .bk, ty := .u32, access := .rw, role := 1, dflt := 18874368, lo := 65536, hi := 2114060288 }

/-- `SUPP_FLOOR` (R158). -/
def SUPP_FLOOR : ObjDef :=
  { idx := 0x4007, scope := .bk, ty := .u32, access := .rw, role := 1, dflt := 65536, lo := 0, hi := 16711680 }

/-- `SUPP_K_DEFAULT` (R158). -/
def SUPP_K_DEFAULT : ObjDef :=
  { idx := 0x4008, scope := .bk, ty := .u8, access := .rw, role := 1, dflt := 144, lo := 16, hi := 255 }

/-- `SUPP_FREEZE_MASK` (R158). -/
def SUPP_FREEZE_MASK : ObjDef :=
  { idx := 0x4009, scope := .bk, ty := .u16, access := .rw, role := 1, dflt := 383, lo := 0, hi := 65535 }

/-- `SUPP_BOOST` (R158). -/
def SUPP_BOOST : ObjDef :=
  { idx := 0x4020, scope := .se, ty := .u8, access := .ro, role := 1, lo := 0, hi := 255 }

/-- `SUPP_BOOST_RELEASE` (R158). -/
def SUPP_BOOST_RELEASE : ObjDef :=
  { idx := 0x4021, ty := .u16, access := .rw, role := 1, dflt := 250, lo := 16, hi := 65535 }

/-- `SUPP_BOOST_STEP_COUNT` (R158). -/
def SUPP_BOOST_STEP_COUNT : ObjDef :=
  { idx := 0x4022, scope := .se, ty := .u32, access := .ro, role := 1, lo := 0, hi := 4294967295 }

/-- `SUPP_DROP_COUNT` (R158). -/
def SUPP_DROP_COUNT : ObjDef :=
  { idx := 0x4023, scope := .se, ty := .u32, access := .ro, role := 1, lo := 0, hi := 4294967295 }

/-- `SUPP_ITEM_COUNT` (R158). -/
def SUPP_ITEM_COUNT : ObjDef :=
  { idx := 0x4024, scope := .se, ty := .u64, access := .ro, role := 1, lo := 0, hi := 18446744073709551615 }

/-- `SUPP_PEAK_ITEMS` (R158). -/
def SUPP_PEAK_ITEMS : ObjDef :=
  { idx := 0x4025, scope := .se, ty := .u16, access := .rw, role := 1, lo := 0, hi := 0 }

/-- `SUPP_POISON_COUNT` (R158). -/
def SUPP_POISON_COUNT : ObjDef :=
  { idx := 0x4026, scope := .se, ty := .u32, access := .ro, role := 1, lo := 0, hi := 4294967295 }

/-- `SUPP_CTX_SELECT` (R158). -/
def SUPP_CTX_SELECT : ObjDef :=
  { idx := 0x4030, scope := .se, ty := .u16, access := .rw, role := 1, lo := 0, hi := 2047 }

/-- `SUPP_CTX` (R158). -/
def SUPP_CTX : ObjDef :=
  { idx := 0x4031, scope := .se, ty := .blob, access := .rw, role := 1, size := 16, bd := .fill 16 0 }

/-- `SUPP_CTX_CMD` (R158). -/
def SUPP_CTX_CMD : ObjDef :=
  { idx := 0x4032, scope := .ch, ty := .u64, access := .wo, role := 1, lo := 0, hi := 18446744073709551615 }

/-- `SUPP_CTX_CONFLICT_COUNT` (R158). -/
def SUPP_CTX_CONFLICT_COUNT : ObjDef :=
  { idx := 0x4033, scope := .se, ty := .u32, access := .ro, role := 1, lo := 0, hi := 4294967295 }

/-- `SUPP_CMD_SKIP_COUNT` (R158). -/
def SUPP_CMD_SKIP_COUNT : ObjDef :=
  { idx := 0x4034, ty := .u32, access := .ro, role := 1, lo := 0, hi := 4294967295 }

/-- `SUPP_STATE_TALLY` (R158). -/
def SUPP_STATE_TALLY : ObjDef :=
  { idx := 0x4035, subLo := 1, subHi := 5, ty := .u32, access := .ro, role := 1, lo := 0, hi := 4294967295 }

/-- `BEAM_DELAY_SHADOW` (R173). -/
def BEAM_DELAY_SHADOW : ObjDef :=
  { idx := 0x4800, scope := .bk, ty := .blob, access := .rw, role := 1, size := 65536, bd := .fill 65536 0 }

/-- `BEAM_EPOCH` (R173). -/
def BEAM_EPOCH : ObjDef :=
  { idx := 0x4801, scope := .bk, ty := .u64, access := .rw, role := 1, lo := 0, hi := 9007199254740991 }

/-- `BEAM_DELAY_CRC` (R173). -/
def BEAM_DELAY_CRC : ObjDef :=
  { idx := 0x4802, scope := .bk, ty := .u32, access := .wo, role := 1, lo := 0, hi := 4294967295 }

/-- `BEAM_APOD_SHADOW` (R173). -/
def BEAM_APOD_SHADOW : ObjDef :=
  { idx := 0x4803, scope := .bk, ty := .blob, access := .rw, role := 1, size := 8192, bd := .fill 8192 255 }

/-- `BEAM_APOD_CRC` (R173). -/
def BEAM_APOD_CRC : ObjDef :=
  { idx := 0x4804, scope := .bk, ty := .u32, access := .wo, role := 1, lo := 0, hi := 4294967295 }

/-- `BEAM_SCALE` (R173). -/
def BEAM_SCALE : ObjDef :=
  { idx := 0x4805, subLo := 1, subHi := 32, ty := .u32, access := .rw, role := 1, dflt := 16842786, lo := 0, hi := 4294967295 }

/-- `BEAM_NU_OFFSET` (R173). -/
def BEAM_NU_OFFSET : ObjDef :=
  { idx := 0x4806, ty := .i32, access := .rw, role := 1, lo := -1073741824, hi := 1073741824 }

/-- `BEAM_SIDEBAND` (R173). -/
def BEAM_SIDEBAND : ObjDef :=
  { idx := 0x4807, ty := .enum, access := .rw, role := 1, lo := 0, hi := 1 }

/-- `BEAM_EXCLUDE_MASK` (R173). -/
def BEAM_EXCLUDE_MASK : ObjDef :=
  { idx := 0x4808, ty := .u16, access := .rw, role := 1, dflt := 72, lo := 0, hi := 65535 }

/-- `BEAM_MISC_CRC` (R173). -/
def BEAM_MISC_CRC : ObjDef :=
  { idx := 0x4809, ty := .u32, access := .wo, role := 1, lo := 0, hi := 4294967295 }

/-- `BEAM_ENABLE` (R173). -/
def BEAM_ENABLE : ObjDef :=
  { idx := 0x4810, ty := .u32, access := .rw, role := 1, dflt := 65535, lo := 0, hi := 4294967295 }

/-- `BEAM_WIDE` (R173). -/
def BEAM_WIDE : ObjDef :=
  { idx := 0x4811, ty := .u32, access := .rw, role := 1, lo := 0, hi := 4294967295 }

/-- `BEAM_BANKS` (R173). -/
def BEAM_BANKS : ObjDef :=
  { idx := 0x4812, subLo := 1, subHi := 32, ty := .u16, access := .rw, role := 1, dflt := 65535, lo := 1, hi := 65535 }

/-- `BEAM_SAT_COUNT` (R173). -/
def BEAM_SAT_COUNT : ObjDef :=
  { idx := 0x4820, subLo := 1, subHi := 32, ty := .u32, access := .ro, role := 1, lo := 0, hi := 4294967295 }

/-- `BEAM_DELAY_CLAMP_COUNT` (R173). -/
def BEAM_DELAY_CLAMP_COUNT : ObjDef :=
  { idx := 0x4821, scope := .bk, ty := .u32, access := .ro, role := 1, lo := 0, hi := 4294967295 }

/-- `BEAM_EXCLUDE_COUNT` (R173). -/
def BEAM_EXCLUDE_COUNT : ObjDef :=
  { idx := 0x4822, scope := .ch, ty := .u32, access := .ro, role := 1, lo := 0, hi := 4294967295 }

/-- `BEAM_PROBE_SELECT` (R173). -/
def BEAM_PROBE_SELECT : ObjDef :=
  { idx := 0x4823, scope := .bk, ty := .u16, access := .rw, role := 1, lo := 0, hi := 8191 }

/-- `BEAM_PROBE_DELAY` (R173). -/
def BEAM_PROBE_DELAY : ObjDef :=
  { idx := 0x4824, scope := .bk, ty := .i64, access := .ro, role := 1, lo := -9223372036854775808, hi := 9223372036854775807 }

/-- `ENG_STATE` (R194). -/
def ENG_STATE : ObjDef :=
  { idx := 0x5000, scope := .se, ty := .enum, access := .ro, role := 2, lo := 0, hi := 255 }

/-- `ENG_CMD` (R194). -/
def ENG_CMD : ObjDef :=
  { idx := 0x5001, scope := .se, ty := .enum, access := .wo, role := 2, lo := 1, hi := 4 }

/-- `ENG_PROGRAM` (R194). -/
def ENG_PROGRAM : ObjDef :=
  { idx := 0x5002, scope := .se, ty := .u8, access := .rw, role := 2, lo := 0, hi := 63 }

/-- `ENG_LOADED_CRC` (R194). -/
def ENG_LOADED_CRC : ObjDef :=
  { idx := 0x5003, scope := .se, ty := .u32, access := .ro, role := 2, lo := 0, hi := 4294967295 }

/-- `ENG_CYCLES_LAST` (R194). -/
def ENG_CYCLES_LAST : ObjDef :=
  { idx := 0x5004, scope := .se, ty := .u16, access := .ro, role := 2, lo := 0, hi := 65535 }

/-- `ENG_CYCLES_MAX` (R194). -/
def ENG_CYCLES_MAX : ObjDef :=
  { idx := 0x5005, scope := .se, ty := .u16, access := .rw, role := 2, lo := 0, hi := 0 }

/-- `ENG_OVERRUN_COUNT` (R194). -/
def ENG_OVERRUN_COUNT : ObjDef :=
  { idx := 0x5006, scope := .se, ty := .u32, access := .ro, role := 2, lo := 0, hi := 4294967295 }

/-- `ENG_EXC_INFO` (R194). -/
def ENG_EXC_INFO : ObjDef :=
  { idx := 0x5007, scope := .se, ty := .blob, access := .ro, role := 2, size := 16, bd := .fill 16 0 }

/-- `ENG_AUTO_RESTART` (R194). -/
def ENG_AUTO_RESTART : ObjDef :=
  { idx := 0x5008, scope := .se, ty := .u8, access := .rw, role := 2, dflt := 3, lo := 0, hi := 15 }

/-- `ENG_RESTART_COUNT` (R194). -/
def ENG_RESTART_COUNT : ObjDef :=
  { idx := 0x5009, scope := .se, ty := .u32, access := .ro, role := 2, lo := 0, hi := 4294967295 }

/-- `ENG_MSG_DROP_COUNT` (R194). -/
def ENG_MSG_DROP_COUNT : ObjDef :=
  { idx := 0x500A, scope := .se, ty := .u32, access := .ro, role := 2, lo := 0, hi := 4294967295 }

/-- `ENG_NOTICE_DROP_COUNT` (R194). -/
def ENG_NOTICE_DROP_COUNT : ObjDef :=
  { idx := 0x500B, scope := .se, ty := .u32, access := .ro, role := 2, lo := 0, hi := 4294967295 }

/-- `ENG_TRIG_DROP_COUNT` (R194). -/
def ENG_TRIG_DROP_COUNT : ObjDef :=
  { idx := 0x500C, scope := .se, ty := .u32, access := .ro, role := 2, lo := 0, hi := 4294967295 }

/-- `ENG_MEAS_DROP_COUNT` (R194). -/
def ENG_MEAS_DROP_COUNT : ObjDef :=
  { idx := 0x500D, scope := .se, ty := .u32, access := .ro, role := 2, lo := 0, hi := 4294967295 }

/-- `ENG_CAND_NOTICE` (R194). -/
def ENG_CAND_NOTICE : ObjDef :=
  { idx := 0x500E, scope := .se, ty := .bool, access := .rw, role := 2, lo := 0, hi := 1 }

/-- `ENG_MEAS_WINDOW` (R194). -/
def ENG_MEAS_WINDOW : ObjDef :=
  { idx := 0x500F, ty := .u16, access := .rw, role := 2, dflt := 64, lo := 1, hi := 1024 }

/-- `ENG_BANK_OWNER` (R194). -/
def ENG_BANK_OWNER : ObjDef :=
  { idx := 0x5010, scope := .bk, ty := .u8, access := .rw, role := 2, lo := 0, hi := 15 }

/-- `ENG_MSG_IN` (R194). -/
def ENG_MSG_IN : ObjDef :=
  { idx := 0x5011, scope := .se, ty := .blob, access := .wo, role := 2, size := 32, bd := .fill 32 0 }

/-- `ENG_DATA_SELECT` (R194). -/
def ENG_DATA_SELECT : ObjDef :=
  { idx := 0x5012, scope := .se, ty := .u32, access := .rw, role := 2, lo := 0, hi := 131008 }

/-- `ENG_DATA_VIEW` (R194). -/
def ENG_DATA_VIEW : ObjDef :=
  { idx := 0x5013, scope := .se, ty := .blob, access := .ro, role := 2, size := 64, bd := .fill 64 0 }

/-- `ENGINES_RUNNING` (R194). -/
def ENGINES_RUNNING : ObjDef :=
  { idx := 0x5014, ty := .u16, access := .ro, role := 2, lo := 0, hi := 65535 }

/-- `TRIG_ENABLE` (R240). -/
def TRIG_ENABLE : ObjDef :=
  { idx := 0x6000, scope := .ch, ty := .bool, access := .rw, role := 1, lo := 0, hi := 1 }

/-- `TRIG_FILTER_SEL` (R240). -/
def TRIG_FILTER_SEL : ObjDef :=
  { idx := 0x6001, scope := .ch, ty := .u8, access := .rw, role := 1, lo := 0, hi := 7 }

/-- `TRIG_EDGE` (R240). -/
def TRIG_EDGE : ObjDef :=
  { idx := 0x6002, scope := .ch, ty := .enum, access := .rw, role := 1, lo := 0, hi := 2 }

/-- `TRIG_LEVEL` (R240). -/
def TRIG_LEVEL : ObjDef :=
  { idx := 0x6003, scope := .ch, ty := .u16, access := .rw, role := 1, dflt := 4096, lo := 1, hi := 46339 }

/-- `TRIG_HYST` (R240). -/
def TRIG_HYST : ObjDef :=
  { idx := 0x6004, scope := .ch, ty := .u16, access := .rw, role := 1, dflt := 256, lo := 0, hi := 16384 }

/-- `TRIG_INTERP` (R240). -/
def TRIG_INTERP : ObjDef :=
  { idx := 0x6005, scope := .ch, ty := .enum, access := .rw, role := 1, dflt := 1, lo := 0, hi := 1 }

/-- `TRIG_INHIBIT_MASK` (R240). -/
def TRIG_INHIBIT_MASK : ObjDef :=
  { idx := 0x6006, scope := .ch, ty := .u16, access := .rw, role := 1, dflt := 121, lo := 0, hi := 121 }

/-- `TRIG_CROSSING_OUT` (R240). -/
def TRIG_CROSSING_OUT : ObjDef :=
  { idx := 0x6007, scope := .ch, ty := .bool, access := .rw, role := 1, lo := 0, hi := 1 }

/-- `TRIG_PRIM_COUNT` (R240). -/
def TRIG_PRIM_COUNT : ObjDef :=
  { idx := 0x6008, scope := .ch, ty := .u32, access := .ro, role := 1, lo := 0, hi := 4294967295 }

/-- `TRIG_INHIBIT_COUNT` (R240). -/
def TRIG_INHIBIT_COUNT : ObjDef :=
  { idx := 0x6009, scope := .ch, ty := .u32, access := .ro, role := 1, lo := 0, hi := 4294967295 }

/-- `TRIG_FILTER_SHADOW` (R240). -/
def TRIG_FILTER_SHADOW : ObjDef :=
  { idx := 0x6010, scope := .rg, ty := .blob, access := .rw, role := 1, size := 512, bd := .trigSets }

/-- `TRIG_FILTER_CRC` (R240). -/
def TRIG_FILTER_CRC : ObjDef :=
  { idx := 0x6011, scope := .rg, ty := .u32, access := .wo, role := 1, lo := 0, hi := 4294967295 }

/-- `COIN_CL_K` (R240). -/
def COIN_CL_K : ObjDef :=
  { idx := 0x6020, scope := .cl, ty := .u8, access := .rw, role := 1, dflt := 1, lo := 1, hi := 4 }

/-- `COIN_CL_WINDOW` (R240). -/
def COIN_CL_WINDOW : ObjDef :=
  { idx := 0x6021, ty := .u16, access := .rw, role := 1, dflt := 16, lo := 1, hi := 512 }

/-- `COIN_RG_K` (R240). -/
def COIN_RG_K : ObjDef :=
  { idx := 0x6022, scope := .rg, ty := .u8, access := .rw, role := 1, dflt := 1, lo := 1, hi := 4 }

/-- `COIN_RG_WINDOW` (R240). -/
def COIN_RG_WINDOW : ObjDef :=
  { idx := 0x6023, ty := .u16, access := .rw, role := 1, dflt := 64, lo := 1, hi := 1024 }

/-- `COIN_DIE_LOGIC` (R240). -/
def COIN_DIE_LOGIC : ObjDef :=
  { idx := 0x6024, scope := .rd, ty := .enum, access := .rw, role := 1, lo := 0, hi := 1 }

/-- `COIN_DIE_WINDOW` (R240). -/
def COIN_DIE_WINDOW : ObjDef :=
  { idx := 0x6025, ty := .u16, access := .rw, role := 1, dflt := 64, lo := 1, hi := 1024 }

/-- `COIN_MOD_SOURCES` (R240). -/
def COIN_MOD_SOURCES : ObjDef :=
  { idx := 0x6026, ty := .u32, access := .rw, role := 1, dflt := 255, lo := 0, hi := 67108863 }

/-- `COIN_MOD_K` (R240). -/
def COIN_MOD_K : ObjDef :=
  { idx := 0x6027, ty := .u8, access := .rw, role := 1, dflt := 1, lo := 1, hi := 8 }

/-- `COIN_MOD_WINDOW` (R240). -/
def COIN_MOD_WINDOW : ObjDef :=
  { idx := 0x6028, ty := .u16, access := .rw, role := 1, dflt := 256, lo := 1, hi := 2048 }

/-- `COIN_CRC` (R240). -/
def COIN_CRC : ObjDef :=
  { idx := 0x6029, ty := .u32, access := .wo, role := 1, lo := 0, hi := 4294967295 }

/-- `TRIG_REARM` (R240). -/
def TRIG_REARM : ObjDef :=
  { idx := 0x6030, subLo := 1, subHi := 8, ty := .u16, access := .rw, role := 1, dflt := 2, lo := 2, hi := 65535 }

/-- `TRIG_ISSUED_COUNT` (R240). -/
def TRIG_ISSUED_COUNT : ObjDef :=
  { idx := 0x6031, subLo := 1, subHi := 8, ty := .u64, access := .ro, role := 1, lo := 0, hi := 18446744073709551615 }

/-- `TRIG_LOST_COUNT` (R240). -/
def TRIG_LOST_COUNT : ObjDef :=
  { idx := 0x6032, subLo := 1, subHi := 8, ty := .u32, access := .ro, role := 1, lo := 0, hi := 4294967295 }

/-- `TRIG_DEAD_TU` (R240). -/
def TRIG_DEAD_TU : ObjDef :=
  { idx := 0x6033, ty := .u64, access := .ro, role := 1, lo := 0, hi := 18446744073709551615 }

/-- `TRIG_DEAD_TU_TOTAL` (R240). -/
def TRIG_DEAD_TU_TOTAL : ObjDef :=
  { idx := 0x6034, ty := .u64, access := .ro, role := 1, lo := 0, hi := 18446744073709551615 }

/-- `TRIG_PRESCALE_LEVEL` (R240). -/
def TRIG_PRESCALE_LEVEL : ObjDef :=
  { idx := 0x6040, ty := .u8, access := .ro, role := 1, lo := 0, hi := 255 }

/-- `TRIG_RR_STEP` (R240). -/
def TRIG_RR_STEP : ObjDef :=
  { idx := 0x6041, ty := .u16, access := .rw, role := 1, dflt := 25, lo := 1, hi := 65535 }

/-- `TRIG_RR_RELEASE` (R240). -/
def TRIG_RR_RELEASE : ObjDef :=
  { idx := 0x6042, ty := .u16, access := .rw, role := 1, dflt := 250, lo := 16, hi := 65535 }

/-- `TRIG_PRESCALED_COUNT` (R240). -/
def TRIG_PRESCALED_COUNT : ObjDef :=
  { idx := 0x6043, ty := .u64, access := .ro, role := 1, lo := 0, hi := 18446744073709551615 }

/-- `TRIG_MODE_DROP_COUNT` (R240). -/
def TRIG_MODE_DROP_COUNT : ObjDef :=
  { idx := 0x6044, ty := .u32, access := .ro, role := 1, lo := 0, hi := 4294967295 }

/-- `DOMINO_ROLE` (R240). -/
def DOMINO_ROLE : ObjDef :=
  { idx := 0x6050, ty := .enum, access := .rw, role := 1, dflt := 2, lo := 0, hi := 2 }

/-- `DOMINO_TRANSPORT` (R240). -/
def DOMINO_TRANSPORT : ObjDef :=
  { idx := 0x6051, ty := .enum, access := .rw, role := 1, lo := 0, hi := 1 }

/-- `DOMINO_UP_LANE` (R240). -/
def DOMINO_UP_LANE : ObjDef :=
  { idx := 0x6052, ty := .u8, access := .rw, role := 1, lo := 0, hi := 31 }

/-- `DOMINO_DOWN_LANE` (R240). -/
def DOMINO_DOWN_LANE : ObjDef :=
  { idx := 0x6053, ty := .u8, access := .rw, role := 1, dflt := 32, lo := 32, hi := 255 }

/-- `DOMINO_LINK_DELAY` (R240). -/
def DOMINO_LINK_DELAY : ObjDef :=
  { idx := 0x6054, scope := .ln, ty := .u32, access := .ro, role := 1, dflt := 4294967295, lo := 0, hi := 4294967295 }

/-- `DOMINO_DELAY_TOL` (R240). -/
def DOMINO_DELAY_TOL : ObjDef :=
  { idx := 0x6055, ty := .u32, access := .rw, role := 1, dflt := 1024, lo := 1, hi := 16777216 }

/-- `ARR_K` (R240). -/
def ARR_K : ObjDef :=
  { idx := 0x6056, ty := .u16, access := .rw, role := 1, dflt := 1, lo := 1, hi := 4096 }

/-- `ARR_WINDOW` (R240). -/
def ARR_WINDOW : ObjDef :=
  { idx := 0x6057, ty := .u32, access := .rw, role := 1, dflt := 131072, lo := 128, hi := 16777216 }

/-- `ARR_SETTLE` (R240). -/
def ARR_SETTLE : ObjDef :=
  { idx := 0x6058, ty := .u32, access := .rw, role := 1, dflt := 2621440, lo := 0, hi := 2147483648 }

/-- `ARR_MATCH` (R240). -/
def ARR_MATCH : ObjDef :=
  { idx := 0x6059, ty := .u32, access := .rw, role := 1, dflt := 65536, lo := 0, hi := 16777216 }

/-- `ARR_REQUIRE_LOCK` (R240). -/
def ARR_REQUIRE_LOCK : ObjDef :=
  { idx := 0x605A, ty := .bool, access := .rw, role := 1, dflt := 1, lo := 0, hi := 1 }

/-- `ARR_BROADCAST` (R240). -/
def ARR_BROADCAST : ObjDef :=
  { idx := 0x605B, ty := .bool, access := .rw, role := 1, dflt := 1, lo := 0, hi := 1 }

/-- `ARR_FORCE_CAPTURE` (R240). -/
def ARR_FORCE_CAPTURE : ObjDef :=
  { idx := 0x605C, ty := .bool, access := .rw, role := 1, lo := 0, hi := 1 }

/-- `DOMINO_DISCARD_COUNT` (R240). -/
def DOMINO_DISCARD_COUNT : ObjDef :=
  { idx := 0x605D, ty := .u32, access := .ro, role := 1, lo := 0, hi := 4294967295 }

/-- `DOMINO_SEQ_GAP_COUNT` (R240). -/
def DOMINO_SEQ_GAP_COUNT : ObjDef :=
  { idx := 0x605E, ty := .u32, access := .ro, role := 1, lo := 0, hi := 4294967295 }

/-- `DOMINO_TIME_ERR_COUNT` (R240). -/
def DOMINO_TIME_ERR_COUNT : ObjDef :=
  { idx := 0x605F, ty := .u32, access := .ro, role := 1, lo := 0, hi := 4294967295 }

/-- `DOMINO_LATE_COUNT` (R240). -/
def DOMINO_LATE_COUNT : ObjDef :=
  { idx := 0x6060, ty := .u32, access := .ro, role := 1, lo := 0, hi := 4294967295 }

/-- `TRGO_ENABLE` (R240). -/
def TRGO_ENABLE : ObjDef :=
  { idx := 0x6068, ty := .bool, access := .rw, role := 1, lo := 0, hi := 1 }

/-- `TRGO_OFFSET` (R240). -/
def TRGO_OFFSET : ObjDef :=
  { idx := 0x6069, ty := .u32, access := .rw, role := 1, dflt := 1048576, lo := 524288, hi := 16777216 }

/-- `TRGO_WIDTH` (R240). -/
def TRGO_WIDTH : ObjDef :=
  { idx := 0x606A, ty := .u16, access := .rw, role := 1, dflt := 64, lo := 8, hi := 4096 }

/-- `TRGI_ENABLE` (R240). -/
def TRGI_ENABLE : ObjDef :=
  { idx := 0x606B, ty := .bool, access := .rw, role := 1, lo := 0, hi := 1 }

/-- `TRGI_DELAY` (R240). -/
def TRGI_DELAY : ObjDef :=
  { idx := 0x606C, ty := .u32, access := .rw, role := 1, lo := 0, hi := 16777216 }

/-- `TRGI_COUNT` (R240). -/
def TRGI_COUNT : ObjDef :=
  { idx := 0x606D, ty := .u32, access := .ro, role := 1, lo := 0, hi := 4294967295 }

/-- `HIST_BITS` (R264). -/
def HIST_BITS : ObjDef :=
  { idx := 0x6800, ty := .u8, access := .rw, role := 1, dflt := 6, lo := 3, hi := 8 }

/-- `HIST_INPUT_MASK` (R264). -/
def HIST_INPUT_MASK : ObjDef :=
  { idx := 0x6801, ty := .blob, access := .rw, role := 1, size := 32, bd := .fill 32 255 }

/-- `HIST_RUN` (R264). -/
def HIST_RUN : ObjDef :=
  { idx := 0x6802, ty := .u32, access := .ro, role := 1, lo := 0, hi := 4294967295 }

/-- `HIST_RUN_START` (R264). -/
def HIST_RUN_START : ObjDef :=
  { idx := 0x6803, ty := .u64, access := .ro, role := 1, lo := 0, hi := 18446744073709551615 }

/-- `HIST_OLDEST_TICK` (R264). -/
def HIST_OLDEST_TICK : ObjDef :=
  { idx := 0x6804, ty := .u64, access := .ro, role := 1, lo := 0, hi := 18446744073709551615 }

/-- `HIST_SLOT_GRANULES` (R264). -/
def HIST_SLOT_GRANULES : ObjDef :=
  { idx := 0x6805, ty := .u16, access := .ro, role := 1, lo := 0, hi := 65535 }

/-- `HIST_PIN_GRANULES` (R264). -/
def HIST_PIN_GRANULES : ObjDef :=
  { idx := 0x6806, ty := .u32, access := .ro, role := 1, lo := 0, hi := 4294967295 }

/-- `HIST_PIN_PEAK` (R264). -/
def HIST_PIN_PEAK : ObjDef :=
  { idx := 0x6807, ty := .u32, access := .rw, role := 1, lo := 0, hi := 0 }

/-- `HIST_SKIP_COUNT` (R264). -/
def HIST_SKIP_COUNT : ObjDef :=
  { idx := 0x6808, ty := .u64, access := .ro, role := 1, lo := 0, hi := 18446744073709551615 }

/-- `HIST_WRITE_LOSS_COUNT` (R264). -/
def HIST_WRITE_LOSS_COUNT : ObjDef :=
  { idx := 0x6809, ty := .u32, access := .ro, role := 1, lo := 0, hi := 4294967295 }

/-- `HIST_POISON_COUNT` (R264). -/
def HIST_POISON_COUNT : ObjDef :=
  { idx := 0x680A, ty := .u32, access := .ro, role := 1, lo := 0, hi := 4294967295 }

/-- `HIST_SLOT_SELECT` (R264). -/
def HIST_SLOT_SELECT : ObjDef :=
  { idx := 0x680B, ty := .u64, access := .rw, role := 1, lo := 0, hi := 140737488355327 }

/-- `HIST_SLOT_ENTRY` (R264). -/
def HIST_SLOT_ENTRY : ObjDef :=
  { idx := 0x680C, ty := .blob, access := .ro, role := 1, size := 64, bd := .fill 64 0 }

/-- `HIST_CUT_BACKLOG` (R264). -/
def HIST_CUT_BACKLOG : ObjDef :=
  { idx := 0x680D, ty := .u32, access := .ro, role := 1, lo := 0, hi := 4294967295 }

/-- `REC_PRE` (R264). -/
def REC_PRE : ObjDef :=
  { idx := 0x6810, subLo := 1, subHi := 8, ty := .u16, access := .rw, role := 1, dflt := 250, lo := 0, hi := 65535 }

/-- `REC_POST` (R264). -/
def REC_POST : ObjDef :=
  { idx := 0x6811, subLo := 1, subHi := 8, ty := .u16, access := .rw, role := 1, dflt := 250, lo := 1, hi := 65535 }

/-- `REC_INPUT_MASK` (R264). -/
def REC_INPUT_MASK : ObjDef :=
  { idx := 0x6812, subLo := 1, subHi := 8, ty := .blob, access := .rw, role := 1, size := 32, bd := .fill 32 255 }

/-- `REC_CRC` (R264). -/
def REC_CRC : ObjDef :=
  { idx := 0x6813, ty := .u32, access := .wo, role := 1, lo := 0, hi := 4294967295 }

/-- `REC_CLIP_COUNT` (R264). -/
def REC_CLIP_COUNT : ObjDef :=
  { idx := 0x6814, ty := .u32, access := .ro, role := 1, lo := 0, hi := 4294967295 }

/-- `REC_PRE_SHORT_COUNT` (R264). -/
def REC_PRE_SHORT_COUNT : ObjDef :=
  { idx := 0x6815, ty := .u32, access := .ro, role := 1, lo := 0, hi := 4294967295 }

/-- `REC_PIN_DROP_COUNT` (R264). -/
def REC_PIN_DROP_COUNT : ObjDef :=
  { idx := 0x6816, ty := .u32, access := .ro, role := 1, lo := 0, hi := 4294967295 }

/-- `REC_MEAS_MODE` (R264). -/
def REC_MEAS_MODE : ObjDef :=
  { idx := 0x6818, ty := .enum, access := .rw, role := 1, dflt := 1, lo := 0, hi := 2 }

/-- `REC_MEAS_PRE` (R264). -/
def REC_MEAS_PRE : ObjDef :=
  { idx := 0x6819, ty := .u32, access := .rw, role := 1, dflt := 256, lo := 64, hi := 65536 }

/-- `REC_MEAS_POST` (R264). -/
def REC_MEAS_POST : ObjDef :=
  { idx := 0x681A, ty := .u32, access := .rw, role := 1, dflt := 3840, lo := 1, hi := 65536 }

/-- `DRAM_WAIT_COUNT` (R264). -/
def DRAM_WAIT_COUNT : ObjDef :=
  { idx := 0x6820, subLo := 1, subHi := 5, ty := .u32, access := .ro, role := 1, lo := 0, hi := 4294967295 }

/-- `CODER_TAB_SHADOW` (R284). -/
def CODER_TAB_SHADOW : ObjDef :=
  { idx := 0x7000, scope := .rg, ty := .blob, access := .rw, role := 1, size := 137, bd := .coderTab }

/-- `CODER_TAB_CRC` (R284). -/
def CODER_TAB_CRC : ObjDef :=
  { idx := 0x7001, scope := .rg, ty := .u32, access := .wo, role := 1, lo := 0, hi := 4294967295 }

/-- `CODER_TAB_LIVE` (R284). -/
def CODER_TAB_LIVE : ObjDef :=
  { idx := 0x7002, scope := .rg, ty := .blob, access := .ro, role := 1, size := 137, bd := .coderTab }

/-- `CODER_SEG_TAB` (R284). -/
def CODER_SEG_TAB : ObjDef :=
  { idx := 0x7003, scope := .ch, ty := .u8, access := .ro, role := 1, lo := 0, hi := 255 }

/-- `CODER_TAB_USE` (R284). -/
def CODER_TAB_USE : ObjDef :=
  { idx := 0x7004, subLo := 1, subHi := 9, scope := .rg, ty := .u32, access := .ro, role := 1, lo := 0, hi := 4294967295 }

/-- `CODER_LOSSY_COUNT` (R284). -/
def CODER_LOSSY_COUNT : ObjDef :=
  { idx := 0x7005, scope := .ch, ty := .u32, access := .ro, role := 1, lo := 0, hi := 4294967295 }

/-- `CODER_FOLD_COUNT` (R284). -/
def CODER_FOLD_COUNT : ObjDef :=
  { idx := 0x7006, scope := .ch, ty := .u32, access := .ro, role := 1, lo := 0, hi := 4294967295 }

/-- `CODER_FALLBACK_COUNT` (R284). -/
def CODER_FALLBACK_COUNT : ObjDef :=
  { idx := 0x7007, scope := .ch, ty := .u32, access := .ro, role := 1, lo := 0, hi := 4294967295 }

/-- `CODER_VERIFY_FAIL_COUNT` (R284). -/
def CODER_VERIFY_FAIL_COUNT : ObjDef :=
  { idx := 0x7008, scope := .ch, ty := .u32, access := .ro, role := 1, lo := 0, hi := 4294967295 }

/-- `CODER_VERIFY_LOSS_COUNT` (R284). -/
def CODER_VERIFY_LOSS_COUNT : ObjDef :=
  { idx := 0x7009, scope := .rg, ty := .u32, access := .ro, role := 1, lo := 0, hi := 4294967295 }

/-- `CODER_DECODE_ERR_COUNT` (R284). -/
def CODER_DECODE_ERR_COUNT : ObjDef :=
  { idx := 0x700A, ty := .u32, access := .ro, role := 1, lo := 0, hi := 4294967295 }

/-- `CODER_BITS_USED` (R284). -/
def CODER_BITS_USED : ObjDef :=
  { idx := 0x700B, scope := .ch, ty := .u64, access := .ro, role := 1, lo := 0, hi := 18446744073709551615 }

/-- `CODER_SYM_HIST` (R284). -/
def CODER_SYM_HIST : ObjDef :=
  { idx := 0x700C, scope := .rg, ty := .blob, access := .ro, role := 1, size := 68, bd := .fill 68 0 }

/-- `CODER_JOB_FAIL_COUNT` (R284). -/
def CODER_JOB_FAIL_COUNT : ObjDef :=
  { idx := 0x700D, subLo := 1, subHi := 2, ty := .u32, access := .ro, role := 1, lo := 0, hi := 4294967295 }

/-- `SPEC_DECISION_TICKS` (R305). -/
def SPEC_DECISION_TICKS : ObjDef :=
  { idx := 0x7800, ty := .u16, access := .rw, role := 1, dflt := 1250, lo := 250, hi := 5000 }

/-- `SPEC_EXPIRY_ACTION` (R305). -/
def SPEC_EXPIRY_ACTION : ObjDef :=
  { idx := 0x7801, ty := .enum, access := .rw, role := 1, lo := 0, hi := 1 }

/-- `SPEC_SEND_AHEAD` (R305). -/
def SPEC_SEND_AHEAD : ObjDef :=
  { idx := 0x7802, ty := .bool, access := .rw, role := 1, lo := 0, hi := 1 }

/-- `SPEC_PARTNER_CAPABLE` (R305). -/
def SPEC_PARTNER_CAPABLE : ObjDef :=
  { idx := 0x7803, ty := .bool, access := .ro, role := 1, lo := 0, hi := 1 }

/-- `SPEC_ENG_MEAS_SPACE` (R305). -/
def SPEC_ENG_MEAS_SPACE : ObjDef :=
  { idx := 0x7804, ty := .u16, access := .rw, role := 1, dflt := 64, lo := 0, hi := 1024 }

/-- `SPEC_NEXT_SEQ` (R305). -/
def SPEC_NEXT_SEQ : ObjDef :=
  { idx := 0x7805, ty := .u32, access := .ro, role := 1, dflt := 1, lo := 0, hi := 4294967295 }

/-- `SPEC_OPEN` (R305). -/
def SPEC_OPEN : ObjDef :=
  { idx := 0x7806, ty := .u16, access := .ro, role := 1, lo := 0, hi := 65535 }

/-- `SPEC_OPEN_PEAK` (R305). -/
def SPEC_OPEN_PEAK : ObjDef :=
  { idx := 0x7807, ty := .u16, access := .rw, role := 1, lo := 0, hi := 0 }

/-- `SPEC_STAGING_PAGES` (R305). -/
def SPEC_STAGING_PAGES : ObjDef :=
  { idx := 0x7808, ty := .u32, access := .ro, role := 1, lo := 0, hi := 4294967295 }

/-- `SPEC_HEAD_PAGES` (R305). -/
def SPEC_HEAD_PAGES : ObjDef :=
  { idx := 0x7809, ty := .u32, access := .ro, role := 1, lo := 0, hi := 4294967295 }

/-- `SPEC_OUTCOME_COUNT` (R305). -/
def SPEC_OUTCOME_COUNT : ObjDef :=
  { idx := 0x780A, subLo := 1, subHi := 6, ty := .u64, access := .ro, role := 1, lo := 0, hi := 18446744073709551615 }

/-- `SPEC_OPEN_FAIL_COUNT` (R305). -/
def SPEC_OPEN_FAIL_COUNT : ObjDef :=
  { idx := 0x780B, subLo := 1, subHi := 3, ty := .u32, access := .ro, role := 1, lo := 0, hi := 4294967295 }

/-- `SPEC_RECORD_COUNT` (R305). -/
def SPEC_RECORD_COUNT : ObjDef :=
  { idx := 0x780C, ty := .u64, access := .ro, role := 1, lo := 0, hi := 18446744073709551615 }

/-- `SPEC_RECORD_BYTES` (R305). -/
def SPEC_RECORD_BYTES : ObjDef :=
  { idx := 0x780D, ty := .u64, access := .ro, role := 1, lo := 0, hi := 18446744073709551615 }

/-- `SPEC_MEAS_COUNT` (R305). -/
def SPEC_MEAS_COUNT : ObjDef :=
  { idx := 0x780E, ty := .u64, access := .ro, role := 1, lo := 0, hi := 18446744073709551615 }

/-- `SPEC_RETRACT_COUNT` (R305). -/
def SPEC_RETRACT_COUNT : ObjDef :=
  { idx := 0x780F, ty := .u32, access := .ro, role := 1, lo := 0, hi := 4294967295 }

/-- `SPEC_CAND_SELECT` (R305). -/
def SPEC_CAND_SELECT : ObjDef :=
  { idx := 0x7810, ty := .u16, access := .rw, role := 1, lo := 0, hi := 8191 }

/-- `SPEC_CAND_ENTRY` (R305). -/
def SPEC_CAND_ENTRY : ObjDef :=
  { idx := 0x7811, ty := .blob, access := .ro, role := 1, size := 32, bd := .fill 32 0 }

/-- `DISC_THRESHOLD` (R331). -/
def DISC_THRESHOLD : ObjDef :=
  { idx := 0x8000, scope := .ch, ty := .i16, access := .rw, role := 1, dflt := 51, lo := -511, hi := 511 }

/-- `DISC_HYST` (R331). -/
def DISC_HYST : ObjDef :=
  { idx := 0x8001, scope := .ch, ty := .u8, access := .rw, role := 1, dflt := 4, lo := 0, hi := 63 }

/-- `TDC_ENABLE` (R331). -/
def TDC_ENABLE : ObjDef :=
  { idx := 0x8002, scope := .tdc, ty := .bool, access := .rw, role := 1, lo := 0, hi := 1 }

/-- `TDC_EDGE` (R331). -/
def TDC_EDGE : ObjDef :=
  { idx := 0x8003, scope := .tdc, ty := .enum, access := .rw, role := 1, lo := 0, hi := 2 }

/-- `TDC_OFFSET` (R331). -/
def TDC_OFFSET : ObjDef :=
  { idx := 0x8004, scope := .tdc, ty := .i32, access := .rw, role := 1, lo := -16777216, hi := 16777216 }

/-- `HIT_OUT` (R331). -/
def HIT_OUT : ObjDef :=
  { idx := 0x8005, scope := .tdc, ty := .bool, access := .rw, role := 1, lo := 0, hi := 1 }

/-- `TDC_ARM` (R331). -/
def TDC_ARM : ObjDef :=
  { idx := 0x8006, scope := .tdc, ty := .enum, access := .rw, role := 1, lo := 0, hi := 3 }

/-- `TDC_GATE_SEL` (R331). -/
def TDC_GATE_SEL : ObjDef :=
  { idx := 0x8007, scope := .tdc, ty := .u8, access := .rw, role := 1, lo := 0, hi := 143 }

/-- `TDC_START_SEL` (R331). -/
def TDC_START_SEL : ObjDef :=
  { idx := 0x8008, scope := .tdc, ty := .u16, access := .rw, role := 1, dflt := 272, lo := 0, hi := 272 }

/-- `TDC_WIN_LO` (R331). -/
def TDC_WIN_LO : ObjDef :=
  { idx := 0x8009, scope := .tdc, ty := .i32, access := .rw, role := 1, lo := -16777216, hi := 16777215 }

/-- `TDC_WIN_HI` (R331). -/
def TDC_WIN_HI : ObjDef :=
  { idx := 0x800A, scope := .tdc, ty := .i32, access := .rw, role := 1, dflt := 131072, lo := -16777216, hi := 16777216 }

/-- `TDC_DLL_LOCK` (R331). -/
def TDC_DLL_LOCK : ObjDef :=
  { idx := 0x8010, scope := .rdCd, ty := .bool, access := .ro, role := 1, lo := 0, hi := 1 }

/-- `TDC_DLL_UNLOCK_COUNT` (R331). -/
def TDC_DLL_UNLOCK_COUNT : ObjDef :=
  { idx := 0x8011, scope := .rdCd, ty := .u32, access := .ro, role := 1, lo := 0, hi := 4294967295 }

/-- `TDC_CAL_STATE` (R331). -/
def TDC_CAL_STATE : ObjDef :=
  { idx := 0x8012, scope := .tdc, ty := .enum, access := .ro, role := 1, lo := 0, hi := 255 }

/-- `TDC_CAL_HITS` (R331). -/
def TDC_CAL_HITS : ObjDef :=
  { idx := 0x8013, scope := .tdc, ty := .u32, access := .ro, role := 1, lo := 0, hi := 4294967295 }

/-- `TDC_CAL_MODE` (R331). -/
def TDC_CAL_MODE : ObjDef :=
  { idx := 0x8014, scope := .tdc, ty := .enum, access := .rw, role := 1, lo := 0, hi := 1 }

/-- `TDC_CAL_TABLE` (R331). -/
def TDC_CAL_TABLE : ObjDef :=
  { idx := 0x8015, scope := .tdc, ty := .blob, access := .ro, role := 1, size := 128, bd := .tdcNominal }

/-- `TDC_CAL_RMS` (R331). -/
def TDC_CAL_RMS : ObjDef :=
  { idx := 0x8016, scope := .tdc, ty := .f32, access := .ro, role := 1, dflt := 1049884623, lo := 0, hi := 4294967295 }

/-- `TDC_CAL_REJECT_COUNT` (R331). -/
def TDC_CAL_REJECT_COUNT : ObjDef :=
  { idx := 0x8017, scope := .tdc, ty := .u32, access := .ro, role := 1, lo := 0, hi := 4294967295 }

/-- `TDC_CAL_GEN` (R331). -/
def TDC_CAL_GEN : ObjDef :=
  { idx := 0x8018, scope := .tdc, ty := .u16, access := .ro, role := 1, lo := 0, hi := 65535 }

/-- `HIT_COUNT` (R331). -/
def HIT_COUNT : ObjDef :=
  { idx := 0x8020, scope := .tdc, ty := .u64, access := .ro, role := 1, lo := 0, hi := 18446744073709551615 }

/-- `PAIR_LOST_COUNT` (R331). -/
def PAIR_LOST_COUNT : ObjDef :=
  { idx := 0x8021, scope := .tdc, ty := .u32, access := .ro, role := 1, lo := 0, hi := 4294967295 }

/-- `HIT_OVERFLOW_COUNT` (R331). -/
def HIT_OVERFLOW_COUNT : ObjDef :=
  { idx := 0x8022, scope := .tdc, ty := .u32, access := .ro, role := 1, lo := 0, hi := 4294967295 }

/-- `HIT_ALLOC_DROP_COUNT` (R331). -/
def HIT_ALLOC_DROP_COUNT : ObjDef :=
  { idx := 0x8023, scope := .tdc, ty := .u32, access := .ro, role := 1, lo := 0, hi := 4294967295 }

/-- `TDC_UNARMED_COUNT` (R331). -/
def TDC_UNARMED_COUNT : ObjDef :=
  { idx := 0x8024, scope := .tdc, ty := .u32, access := .ro, role := 1, lo := 0, hi := 4294967295 }

/-- `EARLY_STOP_COUNT` (R331). -/
def EARLY_STOP_COUNT : ObjDef :=
  { idx := 0x8025, scope := .tdc, ty := .u32, access := .ro, role := 1, lo := 0, hi := 4294967295 }

/-- `NO_STOP_COUNT` (R331). -/
def NO_STOP_COUNT : ObjDef :=
  { idx := 0x8026, scope := .tdc, ty := .u32, access := .ro, role := 1, lo := 0, hi := 4294967295 }

/-- `FREQ_ENABLE` (R331). -/
def FREQ_ENABLE : ObjDef :=
  { idx := 0x8030, scope := .tdc, ty := .bool, access := .rw, role := 1, lo := 0, hi := 1 }

/-- `FREQ_GATE` (R331). -/
def FREQ_GATE : ObjDef :=
  { idx := 0x8031, scope := .tdc, ty := .u32, access := .rw, role := 1, dflt := 250000, lo := 250, hi := 25000000 }

/-- `FREQ_DECIM` (R331). -/
def FREQ_DECIM : ObjDef :=
  { idx := 0x8032, scope := .tdc, ty := .u32, access := .rw, role := 1, dflt := 1, lo := 1, hi := 65536 }

/-- `FREQ_RESULT` (R331). -/
def FREQ_RESULT : ObjDef :=
  { idx := 0x8033, scope := .tdc, ty := .blob, access := .ro, role := 1, size := 32, bd := .fill 32 0, result := true }

/-- `FREQ_NOT_READY_COUNT` (R331). -/
def FREQ_NOT_READY_COUNT : ObjDef :=
  { idx := 0x8034, scope := .tdc, ty := .u32, access := .ro, role := 1, lo := 0, hi := 4294967295 }

/-- `LANE_STATE` (R359). -/
def LANE_STATE : ObjDef :=
  { idx := 0x9000, scope := .ln, ty := .enum, access := .ro, role := 2, lo := 0, hi := 255 }

/-- `LANE_DOWN` (R359). -/
def LANE_DOWN : ObjDef :=
  { idx := 0x9001, scope := .ln, ty := .bool, access := .ro, role := 2, lo := 0, hi := 1 }

/-- `LANE_CMD` (R359). -/
def LANE_CMD : ObjDef :=
  { idx := 0x9002, scope := .ln, ty := .enum, access := .wo, role := 2, lo := 1, hi := 3 }

/-- `LANE_FAIL_RUN` (R359). -/
def LANE_FAIL_RUN : ObjDef :=
  { idx := 0x9003, scope := .ln, ty := .u8, access := .ro, role := 2, lo := 0, hi := 255 }

/-- `LANE_FAIL_COUNT` (R359). -/
def LANE_FAIL_COUNT : ObjDef :=
  { idx := 0x9004, scope := .ln, ty := .u32, access := .ro, role := 2, lo := 0, hi := 4294967295 }

/-- `LANE_LAST_FAIL` (R359). -/
def LANE_LAST_FAIL : ObjDef :=
  { idx := 0x9005, scope := .ln, ty := .enum, access := .ro, role := 2, lo := 0, hi := 255 }

/-- `LANE_DROP_COUNT` (R359). -/
def LANE_DROP_COUNT : ObjDef :=
  { idx := 0x9006, scope := .ln, ty := .u32, access := .ro, role := 2, lo := 0, hi := 4294967295 }

/-- `LANE_CODE_ERR_COUNT` (R359). -/
def LANE_CODE_ERR_COUNT : ObjDef :=
  { idx := 0x9007, scope := .ln, ty := .u32, access := .ro, role := 2, lo := 0, hi := 4294967295 }

/-- `LANE_CTRL_ABORT_COUNT` (R359). -/
def LANE_CTRL_ABORT_COUNT : ObjDef :=
  { idx := 0x9008, scope := .ln, ty := .u32, access := .ro, role := 2, lo := 0, hi := 4294967295 }

/-- `LANE_CTRL_TX_DROP_COUNT` (R359). -/
def LANE_CTRL_TX_DROP_COUNT : ObjDef :=
  { idx := 0x9009, scope := .ln, ty := .u32, access := .ro, role := 2, lo := 0, hi := 4294967295 }

/-- `LINK_RATE_DOWN` (R359). -/
def LINK_RATE_DOWN : ObjDef :=
  { idx := 0x9010, ty := .enum, access := .rwm, role := 2, dflt := 3, lo := 0, hi := 3 }

/-- `LINK_RATE_CASCADE` (R359). -/
def LINK_RATE_CASCADE : ObjDef :=
  { idx := 0x9011, ty := .enum, access := .rwm, role := 2, dflt := 3, lo := 0, hi := 3 }

/-- `LINK_DOWN_MASK` (R359). -/
def LINK_DOWN_MASK : ObjDef :=
  { idx := 0x9012, ty := .u32, access := .rw, role := 2, dflt := 4294967295, lo := 0, hi := 4294967295 }

/-- `LINK_CASCADE_MASK` (R359). -/
def LINK_CASCADE_MASK : ObjDef :=
  { idx := 0x9013, ty := .u16, access := .rw, role := 2, dflt := 65535, lo := 0, hi := 65535 }

/-- `LINK_ADVERTISE` (R359). -/
def LINK_ADVERTISE : ObjDef :=
  { idx := 0x9014, ty := .u16, access := .rw, role := 2, dflt := 3, lo := 0, hi := 3 }

/-- `LINK_PARTNER_EXCH` (R359). -/
def LINK_PARTNER_EXCH : ObjDef :=
  { idx := 0x9015, scope := .ln, ty := .blob, access := .ro, role := 2, size := 16, bd := .fill 16 0 }

/-- `LINK_DOWN_CAPACITY` (R359). -/
def LINK_DOWN_CAPACITY : ObjDef :=
  { idx := 0x9016, ty := .u32, access := .ro, role := 2, lo := 0, hi := 4294967295 }

/-- `LINK_CASCADE_CAPACITY` (R359). -/
def LINK_CASCADE_CAPACITY : ObjDef :=
  { idx := 0x9017, ty := .u32, access := .ro, role := 2, lo := 0, hi := 4294967295 }

/-- `LANE_EQ_MODE` (R359). -/
def LANE_EQ_MODE : ObjDef :=
  { idx := 0x9020, scope := .ln, ty := .enum, access := .rw, role := 2, lo := 0, hi := 1 }

/-- `LANE_PRESET` (R359). -/
def LANE_PRESET : ObjDef :=
  { idx := 0x9021, scope := .ln, ty := .u8, access := .rw, role := 2, dflt := 8, lo := 0, hi := 15 }

/-- `EQ_PRESET_TABLE` (R359). -/
def EQ_PRESET_TABLE : ObjDef :=
  { idx := 0x9022, ty := .blob, access := .rw, role := 2, size := 64, bd := .fill 64 0 }

/-- `LANE_COMPAT_PEAKING` (R359). -/
def LANE_COMPAT_PEAKING : ObjDef :=
  { idx := 0x9023, scope := .ln, ty := .u8, access := .rw, role := 2, dflt := 6, lo := 0, hi := 15 }

/-- `LANE_PEAKING_NOW` (R359). -/
def LANE_PEAKING_NOW : ObjDef :=
  { idx := 0x9024, scope := .ln, ty := .u8, access := .ro, role := 2, lo := 0, hi := 255 }

/-- `LANE_FOM` (R359). -/
def LANE_FOM : ObjDef :=
  { idx := 0x9025, scope := .ln, ty := .u16, access := .ro, role := 2, lo := 0, hi := 65535 }

/-- `LANE_PHASE_OFFSET` (R359). -/
def LANE_PHASE_OFFSET : ObjDef :=
  { idx := 0x9026, scope := .ln, ty := .i8, access := .ro, role := 2, lo := -128, hi := 127 }

/-- `LANE_RX_OFFSET` (R359). -/
def LANE_RX_OFFSET : ObjDef :=
  { idx := 0x9027, scope := .ln, ty := .i8, access := .ro, role := 2, lo := -128, hi := 127 }

/-- `LANE_FOM_MIN` (R359). -/
def LANE_FOM_MIN : ObjDef :=
  { idx := 0x9028, scope := .ln, ty := .u8, access := .rw, role := 2, dflt := 64, lo := 1, hi := 255 }

/-- `LANE_ADAPT` (R359). -/
def LANE_ADAPT : ObjDef :=
  { idx := 0x9029, scope := .ln, ty := .bool, access := .rw, role := 2, dflt := 1, lo := 0, hi := 1 }

/-- `LINK_ALLOC_SPECTRA` (R389). -/
def LINK_ALLOC_SPECTRA : ObjDef :=
  { idx := 0x9040, ty := .u32, access := .rw, role := 2, dflt := 4000, lo := 0, hi := 320000 }

/-- `LINK_ALLOC_SUPP` (R389). -/
def LINK_ALLOC_SUPP : ObjDef :=
  { idx := 0x9041, ty := .u32, access := .rw, role := 2, dflt := 64000, lo := 0, hi := 320000 }

/-- `LINK_ALLOC_REC` (R389). -/
def LINK_ALLOC_REC : ObjDef :=
  { idx := 0x9042, ty := .u32, access := .rw, role := 2, dflt := 64000, lo := 0, hi := 320000 }

/-- `LINK_ALLOC_HIT` (R389). -/
def LINK_ALLOC_HIT : ObjDef :=
  { idx := 0x9043, ty := .u32, access := .rw, role := 2, dflt := 4000, lo := 0, hi := 320000 }

/-- `LINK_ALLOC_CASCADE` (R389). -/
def LINK_ALLOC_CASCADE : ObjDef :=
  { idx := 0x9044, ty := .u32, access := .rw, role := 2, lo := 0, hi := 160000 }

/-- `LINK_MIX_CRC` (R389). -/
def LINK_MIX_CRC : ObjDef :=
  { idx := 0x9045, ty := .u32, access := .wo, role := 2, lo := 0, hi := 4294967295 }

/-- `LINK_ALLOC_DEPTH` (R389). -/
def LINK_ALLOC_DEPTH : ObjDef :=
  { idx := 0x9046, ty := .u16, access := .rw, role := 2, dflt := 16, lo := 1, hi := 256 }

/-- `LINK_PLAN_CAPACITY` (R389). -/
def LINK_PLAN_CAPACITY : ObjDef :=
  { idx := 0x9047, ty := .u32, access := .ro, role := 2, lo := 0, hi := 4294967295 }

/-- `LINK_PLAN_USED` (R389). -/
def LINK_PLAN_USED : ObjDef :=
  { idx := 0x9048, ty := .u32, access := .ro, role := 2, lo := 0, hi := 4294967295 }

/-- `LINK_SHARE_FACTOR` (R389). -/
def LINK_SHARE_FACTOR : ObjDef :=
  { idx := 0x9049, ty := .f32, access := .ro, role := 2, dflt := 1065353216, lo := 0, hi := 4294967295 }

/-- `LINK_BEAMS_SHED` (R389). -/
def LINK_BEAMS_SHED : ObjDef :=
  { idx := 0x904A, ty := .u32, access := .ro, role := 2, lo := 0, hi := 4294967295 }

/-- `LINK_QUEUE_LIMIT` (R389). -/
def LINK_QUEUE_LIMIT : ObjDef :=
  { idx := 0x904B, ty := .u16, access := .rw, role := 2, dflt := 64, lo := 4, hi := 4096 }

/-- `CASCADE_HOLD` (R389). -/
def CASCADE_HOLD : ObjDef :=
  { idx := 0x904C, ty := .u16, access := .rw, role := 2, dflt := 16, lo := 1, hi := 1024 }

/-- `CASCADE_LATE_COUNT` (R389). -/
def CASCADE_LATE_COUNT : ObjDef :=
  { idx := 0x904D, ty := .u32, access := .ro, role := 2, lo := 0, hi := 4294967295 }

/-- `CASCADE_GAP_COUNT` (R389). -/
def CASCADE_GAP_COUNT : ObjDef :=
  { idx := 0x904E, ty := .u32, access := .ro, role := 2, lo := 0, hi := 4294967295 }

/-- `MASK_GEN` (R389). -/
def MASK_GEN : ObjDef :=
  { idx := 0x904F, ty := .u16, access := .ro, role := 2, lo := 0, hi := 65535 }

/-- `FRAME_TX_COUNT` (R389). -/
def FRAME_TX_COUNT : ObjDef :=
  { idx := 0x9050, subLo := 1, subHi := 8, ty := .u64, access := .ro, role := 2, lo := 0, hi := 18446744073709551615 }

/-- `FRAME_DROP_COUNT` (R389). -/
def FRAME_DROP_COUNT : ObjDef :=
  { idx := 0x9051, subLo := 1, subHi := 4, ty := .u32, access := .ro, role := 2, lo := 0, hi := 4294967295 }

/-- `ALLOC_EXCEEDED_COUNT` (R389). -/
def ALLOC_EXCEEDED_COUNT : ObjDef :=
  { idx := 0x9052, subLo := 1, subHi := 3, ty := .u32, access := .ro, role := 2, lo := 0, hi := 4294967295 }

/-- `LANE_CRC_ERR_COUNT` (R389). -/
def LANE_CRC_ERR_COUNT : ObjDef :=
  { idx := 0x9053, scope := .ln, ty := .u32, access := .ro, role := 2, lo := 0, hi := 4294967295 }

/-- `LANE_REPLAY_COUNT` (R389). -/
def LANE_REPLAY_COUNT : ObjDef :=
  { idx := 0x9054, scope := .ln, ty := .u32, access := .ro, role := 2, lo := 0, hi := 4294967295 }

/-- `LANE_CREDIT_STALL_COUNT` (R389). -/
def LANE_CREDIT_STALL_COUNT : ObjDef :=
  { idx := 0x9055, scope := .ln, ty := .u32, access := .ro, role := 2, lo := 0, hi := 4294967295 }

/-- `RX_DISCARD_COUNT` (R389). -/
def RX_DISCARD_COUNT : ObjDef :=
  { idx := 0x9056, ty := .u32, access := .ro, role := 2, lo := 0, hi := 4294967295 }

/-- `LANE_REPLAY_STALL_COUNT` (R389). -/
def LANE_REPLAY_STALL_COUNT : ObjDef :=
  { idx := 0x9057, scope := .ln, ty := .u32, access := .ro, role := 2, lo := 0, hi := 4294967295 }

/-- `NET_MAC` (R422). -/
def NET_MAC : ObjDef :=
  { idx := 0x9800, ty := .blob, access := .ro, role := 2, size := 6, bd := .fill 6 0 }

/-- `NET_IP_ADDR` (R422). -/
def NET_IP_ADDR : ObjDef :=
  { idx := 0x9801, ty := .u32, access := .rw, role := 2, dflt := 170397696, lo := 0, hi := 4294967295 }

/-- `NET_IP_MASK` (R422). -/
def NET_IP_MASK : ObjDef :=
  { idx := 0x9802, ty := .u32, access := .rw, role := 2, dflt := 4294901760, lo := 0, hi := 4294967295 }

/-- `NET_GATEWAY` (R422). -/
def NET_GATEWAY : ObjDef :=
  { idx := 0x9803, ty := .u32, access := .rw, role := 2, lo := 0, hi := 4294967295 }

/-- `SDP_PORT` (R422). -/
def SDP_PORT : ObjDef :=
  { idx := 0x9804, ty := .u16, access := .rw, role := 2, dflt := 19276, lo := 1024, hi := 65535 }

/-- `PLCA_NODE_ID` (R422). -/
def PLCA_NODE_ID : ObjDef :=
  { idx := 0x9805, ty := .u8, access := .rw, role := 2, dflt := 255, lo := 0, hi := 255 }

/-- `PLCA_NODE_COUNT` (R422). -/
def PLCA_NODE_COUNT : ObjDef :=
  { idx := 0x9806, ty := .u8, access := .rw, role := 2, dflt := 8, lo := 2, hi := 255 }

/-- `NET_LINK_STATE` (R422). -/
def NET_LINK_STATE : ObjDef :=
  { idx := 0x9807, ty := .enum, access := .ro, role := 2, lo := 0, hi := 255 }

/-- `SDP_SESSIONS` (R422). -/
def SDP_SESSIONS : ObjDef :=
  { idx := 0x9810, ty := .u8, access := .ro, role := 2, lo := 0, hi := 255 }

/-- `SDP_IDLE_TIMEOUT` (R422). -/
def SDP_IDLE_TIMEOUT : ObjDef :=
  { idx := 0x9811, ty := .u16, access := .rw, role := 2, dflt := 60, lo := 10, hi := 3600 }

/-- `SDP_MAC_FAIL_COUNT` (R422). -/
def SDP_MAC_FAIL_COUNT : ObjDef :=
  { idx := 0x9812, ty := .u32, access := .ro, role := 2, lo := 0, hi := 4294967295 }

/-- `SDP_REPLAY_DROP_COUNT` (R422). -/
def SDP_REPLAY_DROP_COUNT : ObjDef :=
  { idx := 0x9813, ty := .u32, access := .ro, role := 2, lo := 0, hi := 4294967295 }

/-- `SDP_BUSY_COUNT` (R422). -/
def SDP_BUSY_COUNT : ObjDef :=
  { idx := 0x9814, ty := .u32, access := .ro, role := 2, lo := 0, hi := 4294967295 }

/-- `SDP_LATE_RESPONSE_COUNT` (R422). -/
def SDP_LATE_RESPONSE_COUNT : ObjDef :=
  { idx := 0x9815, ty := .u32, access := .ro, role := 2, lo := 0, hi := 4294967295 }

/-- `SDP_AUTH_FAIL_COUNT` (R422). -/
def SDP_AUTH_FAIL_COUNT : ObjDef :=
  { idx := 0x9816, ty := .u32, access := .ro, role := 2, lo := 0, hi := 4294967295 }

/-- `SDP_FORMAT_DROP_COUNT` (R422). -/
def SDP_FORMAT_DROP_COUNT : ObjDef :=
  { idx := 0x9817, ty := .u32, access := .ro, role := 2, lo := 0, hi := 4294967295 }

/-- `KEY_PUBLIC` (R422). -/
def KEY_PUBLIC : ObjDef :=
  { idx := 0x9820, subLo := 1, subHi := 8, ty := .blob, access := .rw, role := 3, size := 32, bd := .fill 32 0 }

/-- `KEY_SECRET` (R422). -/
def KEY_SECRET : ObjDef :=
  { idx := 0x9821, subLo := 1, subHi := 8, ty := .blob, access := .wo, role := 3, size := 32, bd := .fill 32 0 }

/-- `KEY_ROLE` (R422). -/
def KEY_ROLE : ObjDef :=
  { idx := 0x9822, subLo := 1, subHi := 8, ty := .enum, access := .rw, role := 3, lo := 0, hi := 3 }

/-- `MEM_FILL_TIME` (R445). -/
def MEM_FILL_TIME : ObjDef :=
  { idx := 0xA000, ty := .u32, access := .ro, role := 2, lo := 0, hi := 4294967295 }

/-- `ECC_CE_COUNT` (R445). -/
def ECC_CE_COUNT : ObjDef :=
  { idx := 0xA001, scope := .domain, ty := .u64, access := .ro, role := 2, lo := 0, hi := 18446744073709551615 }

/-- `ECC_CB_COUNT` (R445). -/
def ECC_CB_COUNT : ObjDef :=
  { idx := 0xA002, scope := .domain, ty := .u64, access := .ro, role := 2, lo := 0, hi := 18446744073709551615 }

/-- `ECC_UE_COUNT` (R445). -/
def ECC_UE_COUNT : ObjDef :=
  { idx := 0xA003, scope := .domain, ty := .u32, access := .ro, role := 2, lo := 0, hi := 4294967295 }

/-- `ECC_LAST_UE` (R445). -/
def ECC_LAST_UE : ObjDef :=
  { idx := 0xA004, scope := .domain, ty := .blob, access := .ro, role := 2, size := 16, bd := .fill 16 0 }

/-- `ECC_BUCKET_LEVEL` (R445). -/
def ECC_BUCKET_LEVEL : ObjDef :=
  { idx := 0xA005, scope := .domain, ty := .u16, access := .ro, role := 2, lo := 0, hi := 65535 }

/-- `ECC_BUCKET_CAPACITY` (R445). -/
def ECC_BUCKET_CAPACITY : ObjDef :=
  { idx := 0xA006, scope := .domain, ty := .u16, access := .rw, role := 2, dflt := 64, lo := 2, hi := 65535 }

/-- `ECC_BUCKET_LEAK` (R445). -/
def ECC_BUCKET_LEAK : ObjDef :=
  { idx := 0xA007, scope := .domain, ty := .u32, access := .rw, role := 2, dflt := 25000, lo := 250, hi := 250000000 }

/-- `ECC_BUCKET_OVERFLOW_COUNT` (R445). -/
def ECC_BUCKET_OVERFLOW_COUNT : ObjDef :=
  { idx := 0xA008, scope := .domain, ty := .u32, access := .ro, role := 2, lo := 0, hi := 4294967295 }

/-- `MRAM_CE_COUNT` (R445). -/
def MRAM_CE_COUNT : ObjDef :=
  { idx := 0xA009, ty := .u32, access := .ro, role := 2, lo := 0, hi := 4294967295 }

/-- `MRAM_UE_COUNT` (R445). -/
def MRAM_UE_COUNT : ObjDef :=
  { idx := 0xA00A, ty := .u32, access := .ro, role := 2, lo := 0, hi := 4294967295 }

/-- `FRAME_POISON_DROP_COUNT` (R445). -/
def FRAME_POISON_DROP_COUNT : ObjDef :=
  { idx := 0xA00B, ty := .u32, access := .ro, role := 2, lo := 0, hi := 4294967295 }

/-- `SCRUB_ENABLE` (R445). -/
def SCRUB_ENABLE : ObjDef :=
  { idx := 0xA010, scope := .domain, ty := .bool, access := .rw, role := 2, dflt := 1, lo := 0, hi := 1 }

/-- `SCRUB_LAP_LAST` (R445). -/
def SCRUB_LAP_LAST : ObjDef :=
  { idx := 0xA011, scope := .domain, ty := .u64, access := .ro, role := 2, lo := 0, hi := 18446744073709551615 }

/-- `SCRUB_LAP_MIN` (R445). -/
def SCRUB_LAP_MIN : ObjDef :=
  { idx := 0xA012, scope := .domain, ty := .u64, access := .rw, role := 2, lo := 0, hi := 0 }

/-- `SCRUB_LAP_MAX` (R445). -/
def SCRUB_LAP_MAX : ObjDef :=
  { idx := 0xA013, scope := .domain, ty := .u64, access := .rw, role := 2, lo := 0, hi := 0 }

/-- `SCRUB_LAP_COUNT` (R445). -/
def SCRUB_LAP_COUNT : ObjDef :=
  { idx := 0xA014, scope := .domain, ty := .u32, access := .ro, role := 2, lo := 0, hi := 4294967295 }

/-- `SCRUB_LAP_LIMIT` (R445). -/
def SCRUB_LAP_LIMIT : ObjDef :=
  { idx := 0xA015, scope := .domain, ty := .u64, access := .rw, role := 2, dflt := 15000000, lo := 250000, hi := 281474976710656 }

/-- `CVU_SUBMIT` (R445). -/
def CVU_SUBMIT : ObjDef :=
  { idx := 0xA020, subLo := 1, subHi := 4, ty := .blob, access := .wo, role := 2, size := 32, bd := .fill 32 0, long := true }

/-- `CVU_RESULT` (R445). -/
def CVU_RESULT : ObjDef :=
  { idx := 0xA021, subLo := 1, subHi := 4, ty := .blob, access := .ro, role := 2, size := 16, bd := .fill 16 0, result := true }

/-- `CVU_CONTEXT_SELECT` (R445). -/
def CVU_CONTEXT_SELECT : ObjDef :=
  { idx := 0xA022, subLo := 1, subHi := 4, ty := .u8, access := .rw, role := 2, lo := 0, hi := 15 }

/-- `CVU_CONTEXT` (R445). -/
def CVU_CONTEXT : ObjDef :=
  { idx := 0xA023, subLo := 1, subHi := 4, ty := .blob, access := .rw, role := 2, size := 12, bd := .fill 12 0 }

/-- `CVU_QUEUE_DEPTH` (R445). -/
def CVU_QUEUE_DEPTH : ObjDef :=
  { idx := 0xA024, subLo := 1, subHi := 4, ty := .u8, access := .ro, role := 2, lo := 0, hi := 255 }

/-- `CVU_JOB_COUNT` (R445). -/
def CVU_JOB_COUNT : ObjDef :=
  { idx := 0xA025, subLo := 1, subHi := 4, ty := .u32, access := .ro, role := 2, lo := 0, hi := 4294967295 }

/-- `KERNEL_SLOT_RUNNING` (R466). -/
def KERNEL_SLOT_RUNNING : ObjDef :=
  { idx := 0xB000, ty := .u8, access := .ro, role := 2, dflt := 255, lo := 0, hi := 255 }

/-- `KERNEL_CONFIRM` (R466). -/
def KERNEL_CONFIRM : ObjDef :=
  { idx := 0xB001, ty := .bool, access := .wo, role := 2, lo := 1, hi := 1 }

/-- `ROLLBACK_FUSE` (R466). -/
def ROLLBACK_FUSE : ObjDef :=
  { idx := 0xB002, ty := .u8, access := .ro, role := 2, lo := 0, hi := 255 }

/-- `ROLLBACK_COMMIT` (R466). -/
def ROLLBACK_COMMIT : ObjDef :=
  { idx := 0xB003, ty := .bool, access := .wo, role := 3, lo := 1, hi := 1, long := true }

/-- `FUSE_VENDOR_HASH` (R466). -/
def FUSE_VENDOR_HASH : ObjDef :=
  { idx := 0xB004, ty := .blob, access := .ro, role := 2, size := 32, bd := .fill 32 0 }

/-- `FUSE_OWNER_KEY` (R466). -/
def FUSE_OWNER_KEY : ObjDef :=
  { idx := 0xB005, subLo := 1, subHi := 4, ty := .blob, access := .rwm, role := 3, size := 32, bd := .fill 32 0, long := true }

/-- `FUSE_OWNER_REVOKE` (R466). -/
def FUSE_OWNER_REVOKE : ObjDef :=
  { idx := 0xB006, subLo := 1, subHi := 4, ty := .bool, access := .rwm, role := 3, lo := 1, hi := 1, long := true }

/-- `IMAGE_UPLOAD` (R466). -/
def IMAGE_UPLOAD : ObjDef :=
  { idx := 0xB010, subLo := 1, subHi := 68, ty := .blob, access := .wo, role := 2, size := 0 }

/-- `IMAGE_STATE` (R466). -/
def IMAGE_STATE : ObjDef :=
  { idx := 0xB011, subLo := 1, subHi := 68, ty := .enum, access := .ro, role := 2, lo := 0, hi := 255 }

/-- `IMAGE_HEADER` (R466). -/
def IMAGE_HEADER : ObjDef :=
  { idx := 0xB012, subLo := 1, subHi := 68, ty := .blob, access := .ro, role := 2, size := 192, bd := .fill 192 0 }

/-- `IMAGE_VERIFY` (R466). -/
def IMAGE_VERIFY : ObjDef :=
  { idx := 0xB013, subLo := 1, subHi := 68, ty := .bool, access := .wo, role := 2, lo := 1, hi := 1, long := true }

/-- `IMAGE_ERASE` (R466). -/
def IMAGE_ERASE : ObjDef :=
  { idx := 0xB014, subLo := 1, subHi := 68, ty := .bool, access := .wo, role := 2, lo := 1, hi := 1 }

/-- `IMAGE_ACTIVATE` (R466). -/
def IMAGE_ACTIVATE : ObjDef :=
  { idx := 0xB015, subLo := 1, subHi := 4, ty := .bool, access := .wo, role := 2, lo := 1, hi := 1 }

/-- `IMAGE_TRIAL_LIMIT` (R466). -/
def IMAGE_TRIAL_LIMIT : ObjDef :=
  { idx := 0xB016, ty := .u32, access := .rw, role := 2, dflt := 150000000, lo := 250000, hi := 900000000 }

/-- `APP_STATE` (R466). -/
def APP_STATE : ObjDef :=
  { idx := 0xB017, ty := .enum, access := .ro, role := 2, lo := 0, hi := 255 }

/-- `APP_SLOT_RUNNING` (R466). -/
def APP_SLOT_RUNNING : ObjDef :=
  { idx := 0xB018, ty := .u8, access := .ro, role := 2, dflt := 255, lo := 0, hi := 255 }

/-- `APP_RESTART_COUNT` (R466). -/
def APP_RESTART_COUNT : ObjDef :=
  { idx := 0xB019, ty := .u32, access := .ro, role := 2, lo := 0, hi := 4294967295 }

/-- `APP_RESTART_LIMIT` (R466). -/
def APP_RESTART_LIMIT : ObjDef :=
  { idx := 0xB01A, ty := .u8, access := .rw, role := 2, dflt := 3, lo := 1, hi := 15 }

/-- `APP_WATCHDOG` (R466). -/
def APP_WATCHDOG : ObjDef :=
  { idx := 0xB01B, ty := .u32, access := .rw, role := 2, dflt := 250000, lo := 2500, hi := 25000000 }

/-- `FAULT_HEAD` (R509). -/
def FAULT_HEAD : ObjDef :=
  { idx := 0xB040, ty := .u16, access := .ro, role := 2, lo := 0, hi := 65535 }

/-- `FAULT_SEQ` (R509). -/
def FAULT_SEQ : ObjDef :=
  { idx := 0xB041, ty := .u32, access := .ro, role := 2, lo := 0, hi := 4294967295 }

/-- `FAULT_LOG_SELECT` (R509). -/
def FAULT_LOG_SELECT : ObjDef :=
  { idx := 0xB042, ty := .u16, access := .rw, role := 2, lo := 0, hi := 4095 }

/-- `FAULT_LOG_ENTRY` (R509). -/
def FAULT_LOG_ENTRY : ObjDef :=
  { idx := 0xB043, ty := .blob, access := .ro, role := 2, size := 128, bd := .fill 128 0 }

/-- `FAULT_CLASS_COUNT` (R509). -/
def FAULT_CLASS_COUNT : ObjDef :=
  { idx := 0xB044, subLo := 1, subHi := 3, ty := .u32, access := .ro, role := 2, lo := 0, hi := 4294967295 }

/-- `CFG_VOTE_FIX_COUNT` (R509). -/
def CFG_VOTE_FIX_COUNT : ObjDef :=
  { idx := 0xB048, scope := .rdCd, ty := .u32, access := .ro, role := 2, lo := 0, hi := 4294967295 }

/-- `CFG_MASTER_FIX_COUNT` (R509). -/
def CFG_MASTER_FIX_COUNT : ObjDef :=
  { idx := 0xB049, scope := .rdCd, ty := .u32, access := .ro, role := 2, lo := 0, hi := 4294967295 }

/-- `SELFTEST_START` (R509). -/
def SELFTEST_START : ObjDef :=
  { idx := 0xB060, ty := .u64, access := .wo, role := 2, lo := 0, hi := 72057594037927935, long := true }

/-- `SELFTEST_RESULT` (R509). -/
def SELFTEST_RESULT : ObjDef :=
  { idx := 0xB061, subLo := 1, subHi := 56, ty := .blob, access := .ro, role := 2, size := 24, bd := .fill 24 0, result := true }

/-- `SELFTEST_GOLDEN` (R509). -/
def SELFTEST_GOLDEN : ObjDef :=
  { idx := 0xB062, subLo := 1, subHi := 56, ty := .u64, access := .ro, role := 2, lo := 0, hi := 18446744073709551615 }

/-- `SELFTEST_RUNNING` (R509). -/
def SELFTEST_RUNNING : ObjDef :=
  { idx := 0xB063, ty := .u8, access := .ro, role := 2, dflt := 255, lo := 0, hi := 255 }

/-- `DUMP_STATE` (R509). -/
def DUMP_STATE : ObjDef :=
  { idx := 0xB080, ty := .enum, access := .ro, role := 2, lo := 0, hi := 255 }

/-- `DUMP_DATA` (R509). -/
def DUMP_DATA : ObjDef :=
  { idx := 0xB081, ty := .blob, access := .ro, role := 2, size := 0 }

/-- `DUMP_COPY` (R509). -/
def DUMP_COPY : ObjDef :=
  { idx := 0xB082, ty := .blob, access := .ro, role := 2, size := 8388608, bd := .fill 8388608 0 }

/-- `DUMP_ACK` (R509). -/
def DUMP_ACK : ObjDef :=
  { idx := 0xB083, ty := .bool, access := .wo, role := 2, lo := 1, hi := 1 }

/-- `DUMP_KEEP_FIRST` (R509). -/
def DUMP_KEEP_FIRST : ObjDef :=
  { idx := 0xB084, ty := .bool, access := .rw, role := 2, dflt := 1, lo := 0, hi := 1 }

/-- `DUMP_FAULT` (R509). -/
def DUMP_FAULT : ObjDef :=
  { idx := 0xB085, ty := .u16, access := .ro, role := 2, lo := 0, hi := 65535 }

/-- Objects 0 to 15 of the dictionary, by rising index. -/
def chunk0 : List ObjDef :=
  [VENDOR, PRODUCT, SERIAL, MODULE_NUMBER, HW_STEP,
   KERNEL_VERSION, APP_VERSION, DICT_LAYOUT, EVENT_SEQ, EVENT_OLDEST,
   EVENT_CATALOGUE, SET_INFO, SET_BOOT, SET_BOOT_RESULT, SET_ERASE,
   MODE_NOW]

/-- Objects 16 to 31 of the dictionary, by rising index. -/
def chunk1 : List ObjDef :=
  [ MODE_REQUEST, MODE_PENDING, MODE_CANCEL, MODE_LAST_CHANGE, MODE_CHANGE_COUNT,
   MODE_LAST_REFUSAL, BOOT_TARGET_MODE, TICK_NOW, LATE_COUNT, LAST_LATE_TICK,
   TABLE_GEN, TABLE_SWAP_REQUEST, TABLE_SWAP_STATE, SWAP_DEFER_COUNT, SWAP_GROUP,
   SWAP_DEFER_LIMIT]

/-- Objects 32 to 47 of the dictionary, by rising index. -/
def chunk2 : List ObjDef :=
  [TIME_NOW, TIME_SET, TIME_STATE, PPS_OFFSET, PPS_WINDOW,
   PPS_RELOCK_COUNT, PPS_MISSING_COUNT, PPS_EDGE, PPS_ENABLE, REFCLK_FREQ,
   PLL_LOCK, PLL_UNLOCK_COUNT, CDC_UNSTABLE_COUNT, CDC_LAST_STOPPED, SOFT_RESET,
   RESET_CMD]

/-- Objects 48 to 63 of the dictionary, by rising index. -/
def chunk3 : List ObjDef :=
  [RESET_CAUSE, RESET_PREV_MODE, RESET_COUNT, BOOT_TIME, HALT_AUTO_RESET,
   HALT_AUTO_COUNT, DIE_STATE, DIE_ISOLATE, ISOLATED_FEED_POLICY, INPUTS_IN_SERVICE,
   INPUT_SERVICE_MASK, D2D_RETRY_COUNT, D2D_FAIL_COUNT, CH_STATE, CH_QUARANTINE,
   DIE_TEMP_LIMIT]

/-- Objects 64 to 79 of the dictionary, by rising index. -/
def chunk4 : List ObjDef :=
  [RANGE_MODE, RANGE_ATTACK, RANGE_RELEASE, RANGE_HOLD, RANGE_NOW,
   RANGE_CHANGE_COUNT, ATTACK_CLIP_COUNT, LOCK_CLIP_COUNT, SAT_COUNT, CLAMP_STATE,
   CLAMP_SOURCE, CLAMP_COUNT, BLANK_MASK, BLANK_POLARITY, BLANK_GATES_TDC,
   BLANK_SAMPLE_COUNT]

/-- Objects 80 to 95 of the dictionary, by rising index. -/
def chunk5 : List ObjDef :=
  [BLANK_HIT_DROP_COUNT, FEED_ENABLE, FEED_LIMIT, FEED_OPEN_LIMIT, FEED_STATE,
   FEED_FAULT_COUNT, FEED_LIMIT_COUNT, VFEED_LOW, INJ_MODE, INJ_LEVEL,
   INJ_COMB_SPACING, INJ_MASK, INJ_PN_SEED, EXC_SETTLE, EXC_REMAINING,
   HK_SEQ_ENTRY]

/-- Objects 96 to 111 of the dictionary, by rising index. -/
def chunk6 : List ObjDef :=
  [HK_SEQ_LENGTH, HK_SEQ_PERIOD, HK_SEQ_COMMIT, HK_SEQ_GEN, HK_OVERRUN_COUNT,
   HK_URGENT_REQUEST, HK_URGENT_CFG, HK_URGENT_ON_FAULT, HK_URGENT_DROP_COUNT, HK_ABORT_COUNT,
   HK_DISCARD_COUNT, HK_STATE, HK_RESULT, HK_FILTER_SHIFT, HK_COEFF,
   LIN_COEFF]

/-- Objects 112 to 127 of the dictionary, by rising index. -/
def chunk7 : List ObjDef :=
  [LIN_COEFF_COMMIT, LIN_REBUILD, LIN_MODE, SAT_FILL, LIN_SAT_COUNT,
   LIN_TEMP, LIN_T_STATE, LIN_REBUILD_COUNT, WIN_SHADOW, WIN_SHADOW_CRC,
   WIN_LIVE_CRC, CHAN_FLAG_SPAN, CHAN_SAT_COUNT, WARM_REMAINING, SPEC_INT_TICKS,
   SPEC_EXCLUDE_MASK]

/-- Objects 128 to 143 of the dictionary, by rising index. -/
def chunk8 : List ObjDef :=
  [SPEC_INPUT_MASK, SPEC_PERIOD_COUNT, SPEC_LAST_M, REQ_GAIN_SHADOW, REQ_SHIFT,
   REQ_SHADOW_CRC, REQ_SAT_COUNT, REQ_GAIN_LIVE, REQ_SHIFT_LIVE, SUPP_H,
   SUPP_P, SUPP_ATTACK_SHIFT, SUPP_DECAY_SHIFT, SUPP_WARM_SHIFT, SUPP_WARM_TICKS,
   SUPP_SEED]

/-- Objects 144 to 159 of the dictionary, by rising index. -/
def chunk9 : List ObjDef :=
  [SUPP_FLOOR, SUPP_K_DEFAULT, SUPP_FREEZE_MASK, SUPP_BOOST, SUPP_BOOST_RELEASE,
   SUPP_BOOST_STEP_COUNT, SUPP_DROP_COUNT, SUPP_ITEM_COUNT, SUPP_PEAK_ITEMS, SUPP_POISON_COUNT,
   SUPP_CTX_SELECT, SUPP_CTX, SUPP_CTX_CMD, SUPP_CTX_CONFLICT_COUNT, SUPP_CMD_SKIP_COUNT,
   SUPP_STATE_TALLY]

/-- Objects 160 to 175 of the dictionary, by rising index. -/
def chunk10 : List ObjDef :=
  [BEAM_DELAY_SHADOW, BEAM_EPOCH, BEAM_DELAY_CRC, BEAM_APOD_SHADOW, BEAM_APOD_CRC,
   BEAM_SCALE, BEAM_NU_OFFSET, BEAM_SIDEBAND, BEAM_EXCLUDE_MASK, BEAM_MISC_CRC,
   BEAM_ENABLE, BEAM_WIDE, BEAM_BANKS, BEAM_SAT_COUNT, BEAM_DELAY_CLAMP_COUNT,
   BEAM_EXCLUDE_COUNT]

/-- Objects 176 to 191 of the dictionary, by rising index. -/
def chunk11 : List ObjDef :=
  [BEAM_PROBE_SELECT, BEAM_PROBE_DELAY, ENG_STATE, ENG_CMD, ENG_PROGRAM,
   ENG_LOADED_CRC, ENG_CYCLES_LAST, ENG_CYCLES_MAX, ENG_OVERRUN_COUNT, ENG_EXC_INFO,
   ENG_AUTO_RESTART, ENG_RESTART_COUNT, ENG_MSG_DROP_COUNT, ENG_NOTICE_DROP_COUNT, ENG_TRIG_DROP_COUNT,
   ENG_MEAS_DROP_COUNT]

/-- Objects 192 to 207 of the dictionary, by rising index. -/
def chunk12 : List ObjDef :=
  [ENG_CAND_NOTICE, ENG_MEAS_WINDOW, ENG_BANK_OWNER, ENG_MSG_IN, ENG_DATA_SELECT,
   ENG_DATA_VIEW, ENGINES_RUNNING, TRIG_ENABLE, TRIG_FILTER_SEL, TRIG_EDGE,
   TRIG_LEVEL, TRIG_HYST, TRIG_INTERP, TRIG_INHIBIT_MASK, TRIG_CROSSING_OUT,
   TRIG_PRIM_COUNT]

/-- Objects 208 to 223 of the dictionary, by rising index. -/
def chunk13 : List ObjDef :=
  [TRIG_INHIBIT_COUNT, TRIG_FILTER_SHADOW, TRIG_FILTER_CRC, COIN_CL_K, COIN_CL_WINDOW,
   COIN_RG_K, COIN_RG_WINDOW, COIN_DIE_LOGIC, COIN_DIE_WINDOW, COIN_MOD_SOURCES,
   COIN_MOD_K, COIN_MOD_WINDOW, COIN_CRC, TRIG_REARM, TRIG_ISSUED_COUNT,
   TRIG_LOST_COUNT]

/-- Objects 224 to 239 of the dictionary, by rising index. -/
def chunk14 : List ObjDef :=
  [TRIG_DEAD_TU, TRIG_DEAD_TU_TOTAL, TRIG_PRESCALE_LEVEL, TRIG_RR_STEP, TRIG_RR_RELEASE,
   TRIG_PRESCALED_COUNT, TRIG_MODE_DROP_COUNT, DOMINO_ROLE, DOMINO_TRANSPORT, DOMINO_UP_LANE,
   DOMINO_DOWN_LANE, DOMINO_LINK_DELAY, DOMINO_DELAY_TOL, ARR_K, ARR_WINDOW,
   ARR_SETTLE]

/-- Objects 240 to 255 of the dictionary, by rising index. -/
def chunk15 : List ObjDef :=
  [ARR_MATCH, ARR_REQUIRE_LOCK, ARR_BROADCAST, ARR_FORCE_CAPTURE, DOMINO_DISCARD_COUNT,
   DOMINO_SEQ_GAP_COUNT, DOMINO_TIME_ERR_COUNT, DOMINO_LATE_COUNT, TRGO_ENABLE, TRGO_OFFSET,
   TRGO_WIDTH, TRGI_ENABLE, TRGI_DELAY, TRGI_COUNT, HIST_BITS,
   HIST_INPUT_MASK]

/-- Objects 256 to 271 of the dictionary, by rising index. -/
def chunk16 : List ObjDef :=
  [HIST_RUN, HIST_RUN_START, HIST_OLDEST_TICK, HIST_SLOT_GRANULES, HIST_PIN_GRANULES,
   HIST_PIN_PEAK, HIST_SKIP_COUNT, HIST_WRITE_LOSS_COUNT, HIST_POISON_COUNT, HIST_SLOT_SELECT,
   HIST_SLOT_ENTRY, HIST_CUT_BACKLOG, REC_PRE, REC_POST, REC_INPUT_MASK,
   REC_CRC]

/-- Objects 272 to 287 of the dictionary, by rising index. -/
def chunk17 : List ObjDef :=
  [REC_CLIP_COUNT, REC_PRE_SHORT_COUNT, REC_PIN_DROP_COUNT, REC_MEAS_MODE, REC_MEAS_PRE,
   REC_MEAS_POST, DRAM_WAIT_COUNT, CODER_TAB_SHADOW, CODER_TAB_CRC, CODER_TAB_LIVE,
   CODER_SEG_TAB, CODER_TAB_USE, CODER_LOSSY_COUNT, CODER_FOLD_COUNT, CODER_FALLBACK_COUNT,
   CODER_VERIFY_FAIL_COUNT]

/-- Objects 288 to 303 of the dictionary, by rising index. -/
def chunk18 : List ObjDef :=
  [CODER_VERIFY_LOSS_COUNT, CODER_DECODE_ERR_COUNT, CODER_BITS_USED, CODER_SYM_HIST, CODER_JOB_FAIL_COUNT,
   SPEC_DECISION_TICKS, SPEC_EXPIRY_ACTION, SPEC_SEND_AHEAD, SPEC_PARTNER_CAPABLE, SPEC_ENG_MEAS_SPACE,
   SPEC_NEXT_SEQ, SPEC_OPEN, SPEC_OPEN_PEAK, SPEC_STAGING_PAGES, SPEC_HEAD_PAGES,
   SPEC_OUTCOME_COUNT]

/-- Objects 304 to 319 of the dictionary, by rising index. -/
def chunk19 : List ObjDef :=
  [SPEC_OPEN_FAIL_COUNT, SPEC_RECORD_COUNT, SPEC_RECORD_BYTES, SPEC_MEAS_COUNT, SPEC_RETRACT_COUNT,
   SPEC_CAND_SELECT, SPEC_CAND_ENTRY, DISC_THRESHOLD, DISC_HYST, TDC_ENABLE,
   TDC_EDGE, TDC_OFFSET, HIT_OUT, TDC_ARM, TDC_GATE_SEL,
   TDC_START_SEL]

/-- Objects 320 to 335 of the dictionary, by rising index. -/
def chunk20 : List ObjDef :=
  [TDC_WIN_LO, TDC_WIN_HI, TDC_DLL_LOCK, TDC_DLL_UNLOCK_COUNT, TDC_CAL_STATE,
   TDC_CAL_HITS, TDC_CAL_MODE, TDC_CAL_TABLE, TDC_CAL_RMS, TDC_CAL_REJECT_COUNT,
   TDC_CAL_GEN, HIT_COUNT, PAIR_LOST_COUNT, HIT_OVERFLOW_COUNT, HIT_ALLOC_DROP_COUNT,
   TDC_UNARMED_COUNT]

/-- Objects 336 to 351 of the dictionary, by rising index. -/
def chunk21 : List ObjDef :=
  [EARLY_STOP_COUNT, NO_STOP_COUNT, FREQ_ENABLE, FREQ_GATE, FREQ_DECIM,
   FREQ_RESULT, FREQ_NOT_READY_COUNT, LANE_STATE, LANE_DOWN, LANE_CMD,
   LANE_FAIL_RUN, LANE_FAIL_COUNT, LANE_LAST_FAIL, LANE_DROP_COUNT, LANE_CODE_ERR_COUNT,
   LANE_CTRL_ABORT_COUNT]

/-- Objects 352 to 367 of the dictionary, by rising index. -/
def chunk22 : List ObjDef :=
  [LANE_CTRL_TX_DROP_COUNT, LINK_RATE_DOWN, LINK_RATE_CASCADE, LINK_DOWN_MASK, LINK_CASCADE_MASK,
   LINK_ADVERTISE, LINK_PARTNER_EXCH, LINK_DOWN_CAPACITY, LINK_CASCADE_CAPACITY, LANE_EQ_MODE,
   LANE_PRESET, EQ_PRESET_TABLE, LANE_COMPAT_PEAKING, LANE_PEAKING_NOW, LANE_FOM,
   LANE_PHASE_OFFSET]

/-- Objects 368 to 383 of the dictionary, by rising index. -/
def chunk23 : List ObjDef :=
  [LANE_RX_OFFSET, LANE_FOM_MIN, LANE_ADAPT, LINK_ALLOC_SPECTRA, LINK_ALLOC_SUPP,
   LINK_ALLOC_REC, LINK_ALLOC_HIT, LINK_ALLOC_CASCADE, LINK_MIX_CRC, LINK_ALLOC_DEPTH,
   LINK_PLAN_CAPACITY, LINK_PLAN_USED, LINK_SHARE_FACTOR, LINK_BEAMS_SHED, LINK_QUEUE_LIMIT,
   CASCADE_HOLD]

/-- Objects 384 to 399 of the dictionary, by rising index. -/
def chunk24 : List ObjDef :=
  [CASCADE_LATE_COUNT, CASCADE_GAP_COUNT, MASK_GEN, FRAME_TX_COUNT, FRAME_DROP_COUNT,
   ALLOC_EXCEEDED_COUNT, LANE_CRC_ERR_COUNT, LANE_REPLAY_COUNT, LANE_CREDIT_STALL_COUNT, RX_DISCARD_COUNT,
   LANE_REPLAY_STALL_COUNT, NET_MAC, NET_IP_ADDR, NET_IP_MASK, NET_GATEWAY,
   SDP_PORT]

/-- Objects 400 to 415 of the dictionary, by rising index. -/
def chunk25 : List ObjDef :=
  [PLCA_NODE_ID, PLCA_NODE_COUNT, NET_LINK_STATE, SDP_SESSIONS, SDP_IDLE_TIMEOUT,
   SDP_MAC_FAIL_COUNT, SDP_REPLAY_DROP_COUNT, SDP_BUSY_COUNT, SDP_LATE_RESPONSE_COUNT, SDP_AUTH_FAIL_COUNT,
   SDP_FORMAT_DROP_COUNT, KEY_PUBLIC, KEY_SECRET, KEY_ROLE, MEM_FILL_TIME,
   ECC_CE_COUNT]

/-- Objects 416 to 431 of the dictionary, by rising index. -/
def chunk26 : List ObjDef :=
  [ECC_CB_COUNT, ECC_UE_COUNT, ECC_LAST_UE, ECC_BUCKET_LEVEL, ECC_BUCKET_CAPACITY,
   ECC_BUCKET_LEAK, ECC_BUCKET_OVERFLOW_COUNT, MRAM_CE_COUNT, MRAM_UE_COUNT, FRAME_POISON_DROP_COUNT,
   SCRUB_ENABLE, SCRUB_LAP_LAST, SCRUB_LAP_MIN, SCRUB_LAP_MAX, SCRUB_LAP_COUNT,
   SCRUB_LAP_LIMIT]

/-- Objects 432 to 447 of the dictionary, by rising index. -/
def chunk27 : List ObjDef :=
  [CVU_SUBMIT, CVU_RESULT, CVU_CONTEXT_SELECT, CVU_CONTEXT, CVU_QUEUE_DEPTH,
   CVU_JOB_COUNT, KERNEL_SLOT_RUNNING, KERNEL_CONFIRM, ROLLBACK_FUSE, ROLLBACK_COMMIT,
   FUSE_VENDOR_HASH, FUSE_OWNER_KEY, FUSE_OWNER_REVOKE, IMAGE_UPLOAD, IMAGE_STATE,
   IMAGE_HEADER]

/-- Objects 448 to 463 of the dictionary, by rising index. -/
def chunk28 : List ObjDef :=
  [IMAGE_VERIFY, IMAGE_ERASE, IMAGE_ACTIVATE, IMAGE_TRIAL_LIMIT, APP_STATE,
   APP_SLOT_RUNNING, APP_RESTART_COUNT, APP_RESTART_LIMIT, APP_WATCHDOG, FAULT_HEAD,
   FAULT_SEQ, FAULT_LOG_SELECT, FAULT_LOG_ENTRY, FAULT_CLASS_COUNT, CFG_VOTE_FIX_COUNT,
   CFG_MASTER_FIX_COUNT]

/-- Objects 464 to 473 of the dictionary, by rising index. -/
def chunk29 : List ObjDef :=
  [SELFTEST_START, SELFTEST_RESULT, SELFTEST_GOLDEN, SELFTEST_RUNNING, DUMP_STATE,
   DUMP_DATA, DUMP_COPY, DUMP_ACK, DUMP_KEEP_FIRST, DUMP_FAULT]

/-- Every object of the dictionary by rising index (R420). -/
def all : List ObjDef :=
  chunk0 ++ chunk1 ++ chunk2 ++ chunk3 ++ chunk4 ++ chunk5 ++ chunk6 ++ chunk7 ++ chunk8 ++ chunk9 ++
  chunk10 ++ chunk11 ++ chunk12 ++ chunk13 ++ chunk14 ++ chunk15 ++ chunk16 ++ chunk17 ++ chunk18 ++ chunk19 ++
  chunk20 ++ chunk21 ++ chunk22 ++ chunk23 ++ chunk24 ++ chunk25 ++ chunk26 ++ chunk27 ++ chunk28 ++ chunk29

end Sys2Proof.Machine.Obj
end

