-- ==== Sys2Proof/Machine/Defaults.lean ====
section
/-! DEFINITION. The defaults of dictionary objects that a table entry does not hold as one number: values that differ by
element or sub, and the contents of tables. -/

namespace Sys2Proof.Machine

/-- The entry of the default housekeeping sequence (04 R94). The entries beyond its length have the reset fields of R94, with the
`SOURCE` 0x00, which R94 does not give (assumption log 80, DESIGN CHOICE). -/
def dfltHkEntry (hk entry : Nat) : Nat :=
  if hk = 8 then (if entry < 10 then 0x00900300 + entry else 0x00900300)
  else (if entry < 9 then 0x00900320 + entry else 0x00900300)

/-- The staged linearizer coefficient before any calibration is loaded: the nominal gain of R112 as a first-order
coefficient, `512 · 4^r` for c₁₀ and zero elsewhere (assumption log 11, DESIGN CHOICE). -/
def dfltLinCoeff (sub : Nat) : Int :=
  let k := (sub - 1) % 12
  let r := (sub - 1) / 12
  if k = 3 then f32OfInt (512 * 4 ^ r) else 0

/-- The housekeeping coefficient before any calibration is loaded: y = x (assumption log 11, DESIGN CHOICE). -/
def dfltHkCoeff (idx : Nat) : Int := if idx = 0x2823 then 0x3F800000 else 0

/-- The default of an object's value at an element and sub. -/
def dfltVal (o : ObjDef) (e sub : Nat) : Int :=
  if o.idx = 0x2800 then dfltHkEntry e (sub - 1)
  else if o.idx = 0x2801 then (if e = 8 then 10 else 9)
  else if 0x2820 ≤ o.idx ∧ o.idx ≤ 0x282B then dfltHkCoeff o.idx
  else if o.idx = 0x3000 then dfltLinCoeff sub
  else if o.idx = 0x9822 then (if sub = 1 then 3 else 0)
  else o.dflt

/-- Tap `k` of the default window: a sinc with zeros every 4,096 taps under a Hann taper over 65,536 taps, at full scale
(05 R119; its scale and rounding are assumption log 12, DESIGN CHOICE). The centre lies between taps 32,767 and 32,768. -/
def dfltTap (k : Nat) : Int :=
  let d : Int := 2 * (32767 - (k : Int)) + 1                 -- distance to the centre in half taps
  let (sn, _) := sinCosTurn d 16384                          -- sin(π · (d/2) / 4096)
  let (hs, _) := sinCosTurn (2 * (k : Int) + 1) 262144       -- sin(π (k + 1/2) / 65536)
  -- sinc = sn / (π d / 8192)
  let num := 32767 * sn * 8192 * (hs * hs / 2 ^ trigBits)
  divAway num (piFix * d.toNat * 2 ^ trigBits)

/-- The default window as its 65,536 bytes (05 R119). -/
def dfltWindow : List Byte := (List.range 32768).flatMap fun k => leInt 2 (dfltTap k)

/-- Coefficient `j` of the default trigger filter: a band-pass from 30 to 200 MHz with a Hamming taper over 32 taps
(10 R216; its scale and rounding are assumption log 12, DESIGN CHOICE). -/
def dfltTrigTap (j : Nat) : Int :=
  let d : Int := 2 * (j : Int) - 31                          -- half samples from the centre
  let (s2, _) := sinCosTurn (200 * d) 2048                   -- sin(2π · 200 MHz · d/2 / 1024 MHz)
  let (s1, _) := sinCosTurn (30 * d) 2048
  let (_, c) := sinCosTurn (j : Int) 31
  let w := 54 * 2 ^ trigBits - 46 * c                        -- 100 × Hamming
  -- h = (s2 - s1) / (π d / 2)
  let num := 32768 * (s2 - s1) * 2 * w
  if d > 0 then divAway num (piFix * d.toNat * 100 * 2 ^ trigBits)
  else divAway (-num) (piFix * (-d).toNat * 100 * 2 ^ trigBits)

/-- The default trigger filter sets: set 0, and copies of it as sets 1-7 (10 R216). -/
def dfltTrigSets : List Byte := (List.range 256).flatMap fun i => leInt 2 (dfltTrigTap (i % 32))

/-- The default coder table set: mode 0 and eight copies of the static lengths (12 R274, R276, R284). -/
def dfltCoderTab : List Byte :=
  0 :: (List.range 136).map fun i => BitVec.ofNat 8 (if i % 17 = 16 then 16 else i % 17 + 1)

/-- The nominal TDC table p_c = 256 c + 128 (14 R314). -/
def dfltTdcTable : List Byte := (List.range 64).flatMap fun c => leBytes 2 (256 * c + 128)

/-- The default equaliser presets (15 R347). -/
def dfltPresets : List Byte := (List.range 16).flatMap fun p => leBytes 4 (0x00800000 + (p / 2) * 2 ^ 16 + p * 2 ^ 12)

/-- The bytes of a BLOB default. -/
def blobDefault : BlobDefault → List Byte
  | .fill n b => List.replicate n (BitVec.ofNat 8 b)
  | .window => dfltWindow
  | .gains => (List.range 2048).flatMap fun _ => [0, 0, 0, 0x40]
  | .trigSets => dfltTrigSets
  | .coderTab => dfltCoderTab
  | .tdcNominal => dfltTdcTable

/-- The default of a BLOB object. -/
def dfltBlob (o : ObjDef) : List Byte := if o.idx = 0x9022 then dfltPresets else blobDefault o.bd

/-! ### Keys -/

/-- The key under which an object's value at a sub and element is held. -/
def key (o : ObjDef) (e sub : Nat) : Nat := (o.idx * 256 + sub) * 65536 + e

/-- The index of a key. -/
def keyIdx (k : Nat) : Nat := k / 16777216

/-- The sub of a key. -/
def keySub (k : Nat) : Nat := k / 65536 % 256

/-- The element of a key. -/
def keyElem (k : Nat) : Nat := k % 65536

/-- The object of an index, if there is one (17 R395 step 1). -/
def findObj (idx : Nat) : Option ObjDef := Obj.all.find? fun o =>
  if o.idx = 0x2820 then decide (0x2820 ≤ idx ∧ idx ≤ 0x282B) else o.idx == idx

/-- The object of an index; the twelve indexes of `HK_COEFF` share one entry of the table. -/
def objAt (idx : Nat) : Option ObjDef := (findObj idx).map fun o => { o with idx := idx }

/-- The bits of a type (17 R391). -/
def Ty.bits : Ty → Nat
  | .bool | .u8 | .i8 | .enum => 8
  | .u16 | .i16 => 16
  | .u32 | .i32 | .f32 => 32
  | .u64 | .i64 => 64
  | .time72 => 72
  | .str | .blob => 0

/-- Whether a type is signed. -/
def Ty.signed : Ty → Bool
  | .i8 | .i16 | .i32 | .i64 => true
  | _ => false

/-- The element number a scope kind and number name for an object's scope (17 R390), if they belong to it; `sub` decides
the scope of the objects "as R37" (02 R37, sub = table + 1). -/
def elemOf (sc : Scope) (sub kind num : Nat) : Option Nat :=
  let one (k n : Nat) : Option Nat := if kind = k ∧ num < n then some num else none
  let modul : Option Nat := if kind = 0 ∧ num = 0 then some 0 else none
  match sc with
  | .none => modul
  | .ch => one 1 256
  | .cl => one 2 64
  | .rg => one 3 16
  | .rd => one 4 8
  | .rdCd => if kind = 5 ∧ num = 0 then some 8 else one 4 8
  | .se => one 6 256
  | .bk => one 7 16
  | .ln => one 8 48
  | .tdc => if kind = 9 ∧ num < 16 then some (256 + num) else one 1 256
  | .hk => one 10 9
  | .domain => if kind = 11 ∧ num < 4 then some num else if kind = 5 ∧ num = 0 then some 4
    else if kind = 4 ∧ num < 8 then some (5 + num) else none
  | .table =>
    match sub with
    | 1 | 2 | 3 | 8 | 10 => one 3 16
    | 4 | 5 | 6 => one 7 16
    | _ => modul
  | .softReset => if kind = 1 ∧ num < 256 then some num else if kind = 2 ∧ num < 64 then some (256 + num)
    else if kind = 3 ∧ num < 16 then some (320 + num) else if kind = 4 ∧ num < 8 then some (336 + num) else none

/-- The subs that exist for an object: the sources of R93 for the per-source housekeeping objects, the table's subs
otherwise. -/
def subOk (o : ObjDef) (sub kind num : Nat) : Bool :=
  if o.idx = 0x2810 ∨ o.idx = 0x2811 ∨ (0x2820 ≤ o.idx ∧ o.idx ≤ 0x282B) then
    let src := sub - 1
    decide (0 < sub) && (if kind = 10 ∧ num = 8 then decide (src ≤ 9)
      else decide (src ≤ 0x2B) && !decide (0x20 ≤ src ∧ src ≤ 0x23))
  else decide (o.subLo ≤ sub ∧ sub ≤ o.subHi)

/-- The bytes of a value of an object's type. -/
def encodeVal (t : Ty) (v : Int) : List Byte := leBytes (t.bits / 8) (toTwos t.bits v)

/-- The value that bytes of an object's type spell. -/
def decodeVal (t : Ty) (l : List Byte) : Int := if t.signed then ofTwos t.bits (leNat l) else leNat l

end Sys2Proof.Machine
end

