-- ==== Sys2Proof/Machine/Flags.lean ====
section
/-! DEFINITION. The bits of the condition word (00 R8), of the record flag word, and the status codes (17 R421). -/

namespace Sys2Proof.Machine.Flag

/-- `WARM`. -/
def warm : Cond := 0x0001
/-- `BLANK`. -/
def blank : Cond := 0x0002
/-- `OVR`. -/
def ovr : Cond := 0x0004
/-- `CLAMP`. -/
def clamp : Cond := 0x0008
/-- `NBR`. -/
def nbr : Cond := 0x0010
/-- `EXC`. -/
def exc : Cond := 0x0020
/-- `FEED`. -/
def feed : Cond := 0x0040
/-- `RNG`. -/
def rng : Cond := 0x0080
/-- `LATE`. -/
def late : Cond := 0x0100
/-- `POISON`. -/
def poison : Cond := 0x0200
/-- `LOSSY`. -/
def lossy : Cond := 0x0400
/-- `STALE_TBL`. -/
def staleTbl : Cond := 0x0800
/-- `TIME_UNLOCKED`. -/
def timeUnlocked : Cond := 0x1000
/-- `CAL`. -/
def cal : Cond := 0x2000
/-- `SPEC`. -/
def spec : Cond := 0x4000
/-- `DEGRADED`. -/
def degraded : Cond := 0x8000

/-- Whether a condition word holds any bit of a mask. -/
def any (c m : Cond) : Bool := c &&& m ≠ 0

/-- The mask when a condition holds, nothing otherwise. -/
def when (b : Bool) (m : Cond) : Cond := if b then m else 0

end Sys2Proof.Machine.Flag

namespace Sys2Proof.Machine.St

/-- Status codes (17 R421). -/
def OK : Nat := 0x00
/-- `NOT_READY`. -/
def NOT_READY : Nat := 0x01
/-- `NO_OBJECT`. -/
def NO_OBJECT : Nat := 0x02
/-- `NO_SUB`. -/
def NO_SUB : Nat := 0x03
/-- `ACCESS`. -/
def ACCESS : Nat := 0x04
/-- `MODE`. -/
def MODE : Nat := 0x05
/-- `TYPE`. -/
def TYPE : Nat := 0x06
/-- `RANGE`. -/
def RANGE : Nat := 0x07
/-- `BUSY`. -/
def BUSY : Nat := 0x08
/-- `CHECK`. -/
def CHECK : Nat := 0x09
/-- `TRUST`. -/
def TRUST : Nat := 0x0A
/-- `LENGTH`. -/
def LENGTH : Nat := 0x0B
/-- `TIMEOUT`. -/
def TIMEOUT : Nat := 0x0C
/-- `QUARANTINED`. -/
def QUARANTINED : Nat := 0x0D
/-- `INTERNAL`. -/
def INTERNAL : Nat := 0x0F

end Sys2Proof.Machine.St

namespace Sys2Proof.Machine.Mode

/-- The mode codes (01 R28). -/
def BOOT : Int := 0
/-- `SAFE`. -/
def SAFE : Int := 1
/-- `CALIBRATE`. -/
def CALIBRATE : Int := 2
/-- `TRANSIENT`. -/
def TRANSIENT : Int := 7
/-- `TIMING`. -/
def TIMING : Int := 8
/-- `FULL`. -/
def FULL : Int := 9
/-- `TEST`. -/
def TEST : Int := 10
/-- `HALT`. -/
def HALT : Int := 11

/-- Analogue front ends, converters, linearizer, channelizer and requantiser run (20 R480). -/
def frontEnd (m : Int) : Bool := (decide (2 ≤ m ∧ m ≤ 7)) || m == 9
/-- Spectra run (20 R480). -/
def spectra (m : Int) : Bool := (decide (3 ≤ m ∧ m ≤ 7)) || m == 9
/-- Suppression runs (20 R480). -/
def suppression (m : Int) : Bool := m == 4 || m == 6 || m == 9
/-- Beams run (20 R480). -/
def beams (m : Int) : Bool := m == 5 || m == 9
/-- Triggers, history, coder and speculative capture run (20 R480). -/
def record (m : Int) : Bool := m == 7 || m == 9
/-- Engines may be `RUNNING` (20 R480). -/
def engines (m : Int) : Bool := spectra m
/-- TDC loop of CD and the PPS converter run (20 R480). -/
def ppsTdc (m : Int) : Bool := decide (1 ≤ m ∧ m ≤ 9)
/-- TDC loops of the reader dies and calibration collection run (20 R480). -/
def tdcLoops (m : Int) : Bool := decide (2 ≤ m ∧ m ≤ 9)
/-- External timing inputs run (20 R480). -/
def xt (m : Int) : Bool := decide (6 ≤ m ∧ m ≤ 9)
/-- Discriminators, hits, intervals and frequency run (20 R480). -/
def hits (m : Int) : Bool := m == 6 || m == 8 || m == 9
/-- Housekeeping runs (20 R480). -/
def housekeeping (m : Int) : Bool := decide (1 ≤ m ∧ m ≤ 10)
/-- Lanes, dictionary and scrubber run (20 R480). -/
def lanes (m : Int) : Bool := decide (1 ≤ m ∧ m ≤ 11)
/-- Feeds run as commanded (20 R480). -/
def feeds (m : Int) : Bool := decide (1 ≤ m ∧ m ≤ 10)

end Sys2Proof.Machine.Mode
end

