-- ==== Sys2Proof/Machine/State.lean ====
section
/-! DEFINITION. The state of the block: plain data, every piece of state the spec gives it, and the queue of waiting
commands. Dictionary objects (17 R390) live in `vals` and `blobs` under their keys (`Sys2Proof.Machine.key`); what is no
object has a field of its own. Reset values are the fields' defaults (assumption log 3, DESIGN CHOICE). -/

namespace Sys2Proof.Machine

/-! ### Dictionary, protocol, events (17) -/

/-- An event record (17 R415). -/
structure Event where
  seq  : Nat
  code : Nat
  kind : Nat
  num  : Nat
  tick : Nat
  arg  : List Byte
deriving DecidableEq, Repr

/-- A response as sent (17 R399): the body without padding, the MAC as computed under the session's key. -/
structure Reply where
  opcode  : Nat
  status  : Nat
  session : Nat
  reqId   : BitVec 32
  tick    : Nat
  body    : List Byte
  mac     : List Byte
deriving DecidableEq, Repr

/-- Records discarded from a session's backlog and not yet reported (17 R414). -/
structure LostEvents where
  count  : Nat
  oldest : Nat
  newest : Nat
deriving DecidableEq, Repr

/-- A session (17 R401-R405, R409, R413, R414); `since` is the boundary (by `ord`) after its `HELLO` or last valid request. `remembered` holds the last 256 object keys read with the generation
received, newest first; `kept` the last 8 requests with their responses, newest first. -/
structure Session where
  num        : Nat
  src        : Source
  slot       : Nat
  role       : Nat
  isOpen     : Bool := false
  since      : Nat := 0
  nonceM     : List Byte := []
  nonceC     : List Byte := []
  lastReq    : Option (BitVec 32) := none
  kept       : List (BitVec 32 × BitVec 64 × Reply) := []
  remembered : List (Nat × Nat) := []
  macFails   : Nat := 0
  subs       : List (Nat × EvSub) := []
  waiting    : List Event := []
  lost       : Option LostEvents := none
  msgCount   : Nat := 0
  sentThisSecond : Nat := 0
deriving DecidableEq, Repr

/-- A BLOB value being built by `WRITE_SEG` (17 R411): the bytes so far (of an image upload only their number: they are in
MRAM), the boundary after its last segment, and whether it ran out of time. -/
structure Partial where
  key     : Nat
  addr    : ObjAddr
  session : Nat
  data    : List Byte
  done    : Nat
  since   : Nat
  timedOut : Bool := false
deriving DecidableEq, Repr

/-- A `READ`, `READ_SEG` or `WRITE` that waits for the application (19 R464) or for the end of the tick's hand-out (08 R194): the request
(none: a command answered in `Sdp.answer`), its role and items, the items forwarded (request number, item, boundary of forwarding) and
those answered (item, status, value); whether it waits for the hand-out's end; the body of a `READ_SEG`; the boundary of its arrival, and
whether more than 8 requests were outstanding beside it (17 R412). -/
structure Job where
  hdr    : Option SdpHdr
  role   : Nat
  writes : Bool
  items  : List WItem
  waits  : List (Nat × Nat × Nat)
  got    : List (Nat × Nat × List Byte) := []
  held   : Bool := false
  seg    : Option (List Byte) := none
  born   : Nat := 0
  many   : Bool := false
deriving DecidableEq, Repr

/-- A saved set (17 R417). `valid` is the match of its CRC. -/
structure SavedSet where
  layout : Nat
  tick   : Nat
  name   : List Byte
  vals   : SMap Int
  blobs  : SMap (List Byte)
  size   : Nat
  crc    : Nat
  valid  : Bool
deriving DecidableEq, Repr

/-- What the module answered last: the status, the failing item (0xFF none), the action number (0 none) and the data. -/
structure Answer where
  status : Nat
  item   : Nat := 0xFF
  action : Nat := 0
  data   : List Byte := []
deriving DecidableEq, Repr

/-- The dictionary protocol. `gens` holds the generations of the result objects that do not carry them in their value, `saving` a save
under way (slot, action, contents), `restoring` a restore (slot, action), `reply` the last response, `answer` what the last
command was answered, `event` the last `EVENT` message with its session and message count. -/
structure Sdp where
  sessions : List Session := []
  banned   : List (Source × Nat) := []
  partials : List Partial := []
  jobs     : List Job := []
  nextForward : Nat := 1
  gens     : SMap Nat := []
  saving   : Option (Nat × Nat × SavedSet) := none
  restoring : Option (Nat × Nat) := none
  sets     : SMap SavedSet := []
  ring     : List Event := []
  reply    : Option Reply := none
  answer   : Option Answer := none
  event    : Option (Nat × Nat × List Event) := none
deriving DecidableEq, Repr

/-! ### Tick, time, clocks, tables (02) -/

/-- What held in one sampling tick: its number, the mode, the inputs out of service, and whether `TIME_UNLOCKED` held in
it, with the condition word of its tick header (02 R34, R53; 16 R370; 20 R485), and whether its hits are sent (16 R376). -/
structure TickInfo where
  tick     : Nat := 0
  mode     : Int := 0
  out      : List Nat := []
  unlocked : Bool := false
  cond     : Cond := 0
  hits     : Bool := false
deriving DecidableEq, Repr

/-- The tick sequencer, Kloif time and the clocks (02 R31-R57). `ord` counts the boundaries since reset (durations count these:
assumption log 16, DESIGN CHOICE); `info` holds the
current tick and those before it, newest first; `armed` a time set with the boundary of its write; `nextTick` the number a
completed time set gives the next boundary; `relockRun` and `ppsSecond` the run of `PPS` edges in window and the second last
judged; `secondDue` a second whose bookkeeping waits; `pllLost` the boundary (plus one) of a reader-die PLL's loss of lock, `refKhz` and `refPpm` the
reference measured; `short` that the current tick is the one a time set ended; `lateDue` the units that do not complete in the
current tick, with the sampling tick (R35), and `lateHdr` that one was counted at the cut-off. -/
structure Clk where
  tick      : Nat := 0
  ord       : Nat := 0
  counting  : Bool := false
  info      : List TickInfo := []
  pastCutoff : Bool := false
  armed     : Option Nat := none
  armedOrd  : Nat := 0
  ppsSecond : Option Nat := none
  secondDue : Option Nat := none
  nextTick  : Option Nat := none
  short     : Bool := false
  relockRun : Nat := 0
  lateDue   : List (Nat × Nat) := []
  lateHdr   : Bool := false
  pllLost   : SMap Nat := []
  refKhz    : Nat := 0
  refPpm    : Int := 0
  holdover  : Bool := false
  slewing   : Bool := false
  flushing  : List Crossing := []
deriving DecidableEq, Repr

/-- One table instance's swap state beside its objects (02 R37-R42): the target tick (0 the next possible), whether the
commit is recorded, and in time for the coming boundary, the deferral run, the boundary of the last swap (by `ord`), the
ticks of deferral (by `ord`, the latest 64), and the expected check value written since the last swap. -/
structure TabSt where
  target   : Nat := 0
  ready    : Bool := false
  late     : Bool := false
  deferRun : Nat := 0
  swapOrd  : Option Nat := none
  stale    : List Nat := []
  crc      : Option Nat := none
  group    : List Nat := []
deriving DecidableEq, Repr

/-! ### Inputs (03) -/

/-- One input beside its objects (03): the range in force, the range that takes effect in the next tick, the samples at
which evaluation and the release count start, the recovery samples left, the sample at which the NBR period ends, the
condition words of the current tick and the ticks before it (newest first), the feed's runs, what it was when
set aside, the fold-back, the latch kept in `RAIL_LOW` (R80), the attack clips counted so far by their sample (R66), the last linearised value, the run of unchanged raw words, the last 16 linear frames (newest first; an empty
one is all zero, 05 R117), and the spectra accumulators of the running period (05 R123, R124). -/
structure InSt where
  range     : Nat := 3
  pend      : Option Nat := none
  evalFrom  : Nat := 0
  relFrom   : Nat := 0
  relCount  : Nat := 0
  recovery  : Nat := 0
  nbrTo     : Nat := 0
  cond      : List Cond := []
  limitRun  : Nat := 0
  openRun   : Nat := 0
  normRun   : Nat := 0
  aside     : Option Nat := none
  foldedBack : Bool := false
  latched   : Bool := false
  clips     : List Nat := []
  lastLin   : Int := 0
  stuckWord : BitVec 12 := 0
  stuckRun  : Nat := 0
  frames    : List (List Int) := []
  s1        : List Nat := []
  s2        : List Nat := []
  mEff      : Nat := 0
  specCond  : Cond := 0
deriving DecidableEq, Repr

/-- A BLANK pin (03 R74): the level that has taken effect, its transitions in the current tick by sample, the edges
registered and not yet applied (absolute sample of the effect, level), and the sample count after the last active sample of the ticks
before (10 R220). -/
structure Pin where
  level : Bool := false
  log   : List (Nat × Bool) := []
  wait  : List (Nat × Bool) := []
  activeTo : Nat := 0
deriving DecidableEq, Repr

/-- A cluster beside its objects (03 R71, R72, R86): the sample at which the running episode began, the sources latched then, and the
injector's PRBS state. -/
structure ClSt where
  begun : Nat := 0
  latched : BitVec 4 := 0
  prbs  : BitVec 15 := 1
deriving DecidableEq, Repr

/-! ### Regions: linearizer, channelizer, spectra (05) -/

/-- A linearizer table: the aᵢ of 16 inputs in four ranges, 14 fraction bits, by `64 · input + 4 · range + i`, with the
temperature it was built from (05 R108, R113, R114). -/
structure LinTable where
  a      : SMap Int
  temp   : Nat
  tState : Nat
deriving DecidableEq, Repr

/-- A completed spectrum as handed to the engines and the framer (05 R125): the input, its sums as binary32, M_eff, the
OR of the condition words, the period, and the boundary (by `ord`) at or after which it ended. -/
structure Spectrum where
  input : Nat
  ended : Nat
  first : Nat
  len   : Nat
  mEff  : Nat
  cond  : Cond
  s1    : List Nat
  s2    : List Nat
deriving DecidableEq, Repr

/-- One region beside its objects (05): the live linearizer table (none: the first one, R114) and the shadow being built, the
active coefficients by `48 · input + sub - 1`, the copy and the build that wait with the boundary before which they were asked for
(05 R115, R116), the flags of each channel tick
that are the region's own (newest first), the flag spans, whether the spectra period runs, its first tick, length and
lateness, and whether a restart waits for the boundary. -/
structure RgSt where
  lin       : Option LinTable := none
  linShadow : Option LinTable := none
  coeff     : SMap Int := []
  copyWaits : Bool := false
  buildWaits : Bool := false
  askOrd    : Nat := 0
  extra     : List Cond := []
  spans     : List Nat := []
  specOn    : Bool := false
  specFirst : Nat := 0
  specLen   : Nat := 0
  specLate  : Bool := false
  restartDue : Bool := false
deriving DecidableEq, Repr

/-- The channel data of one sampling tick on its way through the pipeline (02 R34): the tick, and per input its 2,048
requantised samples (05 R128; an unlisted input is zero), and the inputs whose gains held a poisoned word (18 R432). -/
structure PipeTick where
  tick  : Nat
  ord   : Nat
  chans : SMap (List (Int × Int))
  bad   : List Nat := []
deriving DecidableEq, Repr

/-! ### Housekeeping converters (04) -/

/-- What a housekeeping converter is doing (04 R95, R102). -/
inductive Burst where
  | none | seq | urgent (source : Nat) (fromDict : Bool)
deriving DecidableEq, Repr

/-- An urgent request waiting (04 R102, R104). -/
structure Urgent where
  source   : Nat
  fromDict : Bool
deriving DecidableEq, Repr

/-- A housekeeping result as it was before one published in the tick in progress: the source, its record, its filter value and whether
the filter was to be reseeded (01 R19). -/
structure HkOld where
  source : Nat
  result : List Byte
  filt   : Nat
  reseed : Bool
deriving DecidableEq, Repr

/-- One housekeeping converter beside its objects (04): the active sequence, the commits waiting for the next pass, the pass
with its entry and the member at which a group resumes, the boundary (plus one) of the last pass start and that of the tick in which the
last pass ended, the burst, the urgent queue, the filter values with the sources to reseed, the feeds in fault during the
running burst, and what the results of the tick in progress replaced, newest first. -/
structure HkSt where
  seq     : List (BitVec 32) := []
  seqLen  : Nat := 0
  commit  : Nat := 0
  passing : Bool := false
  startOrd : Nat := 0
  endOrd  : Nat := 0
  entry   : Nat := 0
  member  : Nat := 0
  burst   : Burst := .none
  queue   : List Urgent := []
  filt    : SMap Nat := []
  reseed  : SMap Bool := []
  faulted : List Nat := []
  olds    : List HkOld := []
deriving DecidableEq, Repr

/-! ### Containment, faults, dump (01, 21) -/

/-- Isolations and quarantines whose boundary has not come, with the fault code (0 for a command), dies (d) and channels
(256 + n) that return, and the die soft resets in progress with their boundary (by `ord`, plus one), their actions, and those whose
handshake is done; the dies and channels out of service in force (01 R17, 20 R476-R478, 21 R497). `softs` holds the soft resets requested: scope kind, number, action. `d2dRun`
counts the consecutive ticks whose transfer failed (01 R19), `hot` the consecutive results above the limit (21 R495),
`repairs` the repairs of a channel in the running hour with its begin (21 R496). -/
structure Containment where
  isolating    : List (Nat × Nat) := []
  quarantining : List (Nat × Nat) := []
  returning    : List Nat := []
  resetting    : SMap Nat := []
  softs        : List (Nat × Nat × Nat) := []
  dieActions   : List (Nat × Nat) := []
  shaken       : List Nat := []
  out          : List Nat := []
  quar         : List Nat := []
  d2dRun       : SMap Nat := []
  hot          : SMap Nat := []
  repairs      : SMap Nat := []
  repairHour   : Nat := 0
deriving DecidableEq, Repr

/-- A span of repeats (21 R498): the boundary (by `ord`) at which it opened, and the ticks of its first and last repeat. -/
structure Span where
  code  : Nat
  kind  : Nat
  num   : Nat
  start : Nat
  count : Nat := 0
  first : Nat := 0
  last  : Nat := 0
deriving DecidableEq, Repr

/-- Faults, triplicated configuration, self-test and dump (21). `master` holds settings whose voted value no longer equals
the master copy (21 R494): the die that holds the field, the key of the object that sets it, its address, and the master value; `repair` those a
check has found, at the boundary `checkOrd`, and the next boundary rewrites. -/
structure Faults where
  spans      : List Span := []
  mramDead   : Bool := false
  master     : List (Nat × Nat × ObjAddr × Int) := []
  repair     : List (Nat × Nat × ObjAddr × Int) := []
  checkOrd   : Nat := 0
  testMask   : Nat := 0
  testBad    : Bool := false
  testAction : Nat := 0
  bankHeld   : List Nat := []
  dumpAcked  : Bool := false
  dumpTick   : Nat := 0
  dumpMode   : Nat := 0
  dumpSeq    : Nat := 0
  dumpDram   : Bool := false
  dumpCopy   : Bool := false
  dumpPart   : Bool := false
  dumpLost   : Bool := false
  dumpNoMram : Bool := false
  dumping    : Bool := false
deriving DecidableEq, Repr

/-! ### Slices and beams (06, 07) -/

/-- A channel context (06 R134): `BASELINE`, `K`, `STATE`, `WARM_CNT`, `HANG_CNT`, `PRE_VALID`, `PREV`, `ISO`, `COND_SUMMARY`
and `LAST_EMIT`. -/
structure Ctx where
  baseline : Nat := 0
  k        : Nat := 0
  state    : Nat := 0
  warm     : Nat := 0
  hang     : Nat := 0
  preValid : Nat := 0
  prev     : Bool := false
  iso      : Bool := false
  cond     : Cond := 0
  lastEmit : Nat := 0
deriving DecidableEq, Repr

/-- An item of a slice's group (06 R145); `ctx` is the context within the slice. -/
structure Item where
  cond : Cond
  re   : Int
  im   : Int
  kind : Nat
  age  : Nat
  ctx  : Nat
deriving DecidableEq, Repr

/-- One slice (06, 07): its contexts, and as they stood at the boundary; the rotation pointer (R148); the quiet ticks and the items the
tick yielded (R149); the group to be framed; whether its context update was late; the engine masks in
force, those that wait for the boundary, and the sampling tick whose beams first used them (07 R171, 16 R374);
the contexts the engine wrote at the last hand-out (R152). -/
structure SlSt where
  ctx      : SMap Ctx := []
  ctx0     : SMap Ctx := []
  rot      : Nat := 0
  quiet    : Nat := 0
  yielded  : Nat := 0
  items    : List Item := []
  exclude  : Nat := 0
  chanMask : Nat := 0
  newExclude : Option Nat := none
  newChanMask : Option Nat := none
  maskRef  : Nat := 0
  engWrote : List Nat := []
deriving DecidableEq, Repr

/-- A dictionary write of a context, or a context command, waiting for the boundary (06 R152, R153). -/
inductive CtxWrite where
  | set (k c : Nat) (v : Ctx)
  | cmd (n word : Nat)
deriving DecidableEq, Repr

/-- One tick of the delay lines and of the shared condition-word store (06 R143). -/
structure DelayTick where
  tick  : Nat
  ord   : Nat
  chans : SMap (List (Int × Int))
  cond  : List Cond
deriving DecidableEq, Repr

/-- One beam of one sampling tick (07 R159-R168): its samples by channel (an unlisted one is zero), the condition words and the
contributing inputs of its slices, and the mask generation. -/
structure BeamOut where
  beam    : Nat
  tick    : Nat
  wide    : Bool
  banks   : Nat
  samples : SMap (Int × Int)
  cond    : SMap Cond
  inputs  : SMap Nat
  gen     : Nat
deriving DecidableEq, Repr

/-! ### Stream engines (08, 09) -/

/-- A zero-overhead loop counter (09 R211). -/
structure LoopCtr where
  count : Nat := 0
  start : Nat := 0
  stop  : Nat := 0
deriving DecidableEq, Repr

/-- A context operation staged by a handler, in program order (09 R205-R207). -/
inductive CtxOp where
  | cwr (c m : Nat) (w1 w2 w3 : Word)
  | cmd (c code : Nat)
deriving DecidableEq, Repr

/-- A spill copy waiting for a hand-out (08 R190, R191). -/
structure Spill where
  write  : Bool
  addr   : Nat
  offset : Nat
  len    : Nat
  seq    : Nat
deriving DecidableEq, Repr

/-- One engine beside its objects (08, 09): registers and predicates, loop counters (`newer` the one started later), the program
counter, whether the handler runs, its count, the count at which a `wait` ends, the entry points, whether the init entry
runs next, the overrun run, the queues (with the messages that join at the boundary and the replies that wait), the outputs
staged, the program's initial data, the boundary of the quarantine, the automatic restarts of the hour, the inbound count, run,
boost and generation as handed in, the load waiting or under way, whether the crossing of a restart is still flushing, the boundary after
which the handler last started or was put off to the next boundary (`ord` + 1), and how many messages the inbound queue has given out. -/
structure Eng where
  g        : List Word := List.replicate 16 0
  v        : List Word := List.replicate 64 0
  p        : List Bool := List.replicate 4 false
  lc0      : LoopCtr := {}
  lc1      : LoopCtr := {}
  newer    : Nat := 0
  pc       : Nat := 0
  active   : Bool := false
  yielded  : Bool := false
  cyc      : Nat := 0
  waitTo   : Option Nat := none
  initAt   : Nat := 0
  tickAt   : Nat := 0
  initNext : Bool := false
  run      : Nat := 0
  inq      : List (List Word) := []
  arriving : List (List Word) := []
  replies  : List (List Word) := []
  outq     : List (List Word) := []
  ops      : List CtxOp := []
  bx       : SMap Nat := []
  bc       : SMap Nat := []
  trigs    : List Word := []
  meas     : List (BitVec 64) := []
  msgs     : List (List Word) := []
  spills   : List Spill := []
  initData : List Byte := []
  quarOrd  : Nat := 0
  autoHour : Nat := 0
  autoDone : Nat := 0
  hInbound : Nat := 0
  hRun     : Nat := 0
  hGen     : Nat := 0
  hBoost   : Nat := 0
  load     : Option Nat := none
  shaking  : Bool := false
  startOrd : Nat := 0
  inHead   : Nat := 0
deriving DecidableEq, Repr

/-- What the hand-in gave every engine beside the frame window (08 R176): the beams of the tick before, and the spectrum
window with its period; the spectra not yet handed in, and those to be framed. -/
structure EngWin where
  beams     : List BeamOut := []
  spectra   : SMap Spectrum := []
  specFirst : Nat := 0
  specLen   : Nat := 0
  gen       : Nat := 0
  waiting   : List Spectrum := []
  framing   : List Spectrum := []
deriving DecidableEq, Repr

/-! ### Lanes and framer (15, 16) -/

/-- A frame before it is handed out (16 R361, R371): its class (0 VC0, 1 VC1, 2 `MASK`, 3 `BEAM`, 4 `SUPP`, 5 `SPECTRA`, 6 VC6,
7 `RECORD`, 8 VC7), the boundary after which it was queued, the bytes its bucket is still to be charged, what a
drop counts, the candidate it is of (8,192 none; of a `SPECTRA` frame the input), and where it lies in the output queues. -/
structure Frame where
  cls     : Nat
  vc      : Nat
  type    : Nat
  payload : List Byte
  born    : Nat
  charge  : Nat := 0
  drops   : Nat := 0
  cand    : Nat := 8192
  isLast  : Bool := false
  place   : Nat := 0
deriving DecidableEq, Repr

/-- A frame handed to a lane, or to be resent (16 R364, R366, R368). `lane` is the cascade lane a relayed frame came from,
with the credits it holds. -/
structure TxFrame where
  vc      : Nat
  type    : Nat
  module  : Nat
  ftick   : Nat
  gseq    : Nat
  alive   : Nat := 0
  payload : List Byte
  cand    : Nat := 8192
deriving DecidableEq, Repr

/-- A frame received and not yet delivered or relayed (16 R365, R368, R385): the lane, and the boundary of its arrival. -/
structure RxWait where
  lane  : Nat
  at_   : Nat
  frame : RxFrame
deriving DecidableEq, Repr

/-- The `TICK` frame of a boundary, laid out when it is handed out (16 R370). -/
structure TickHdr where
  tick     : Nat
  ord      : Nat
  mode     : Int
  cond     : Cond
  swapped  : Nat
  inputs   : Nat
  prescale : Nat
  boost    : Nat
  place    : Nat := 0
deriving DecidableEq, Repr

/-- A lane beside its objects (15, 16): whether it is disabled by command, the boundaries of its last entry into `TRAIN`,
`EXCHANGE`, `BACKOFF` and `ACTIVE`, those since which a signal may have been present in `DETECT`, symbols have been clean in
`SYMBOL_LOCK`, the last sweep was complete and the acknowledgement has not advanced, the good sweeps in a row, the exchange (entries, valid message received, partner's
acknowledgement received, own messages with `ACK` since, last message sent), the equaliser settings taken at `TRAIN`, the
peaking adaptation, the outgoing control sequences (start of transmission, message) with the time the transmitter is free,
and the frame link in both directions. -/
structure LnSt where
  disabled  : Bool := false
  trainOrd  : Nat := 0
  exchOrd   : Nat := 0
  backOrd   : Nat := 0
  actOrd    : Nat := 0
  detOrd    : Nat := 0
  cleanOrd  : Nat := 0
  sweepOrd  : Nat := 0
  ackOrd    : Nat := 0
  good      : Nat := 0
  exchId    : Nat := 0
  gotValid  : Bool := false
  gotAck    : Bool := false
  sentAck   : Nat := 0
  exchTx    : Option (BitVec 128) := none
  eqCompat  : Bool := false
  preset    : Nat := 0
  sweeps    : Nat := 0
  peakUp    : Bool := true
  peakFom   : Option Nat := none
  ctrl      : List (Nat × BitVec 128) := []
  ctrlFree  : Nat := 0
  txAlive   : Nat := 0
  unacked   : List TxFrame := []
  lastAck   : Nat := 255
  stuckReplays : Nat := 0
  replaySyms : Nat := 0
  syms      : Nat := 0
  used      : Nat := 0
  limit     : Nat := 0
  creditStall : Bool := false
  replayStall : Bool := false
  rxNext    : Nat := 0
  rxLimit   : Nat := 0
  nakDue    : Bool := false
  nakDone   : Bool := false
  linkDue   : Bool := false
  linkTx    : Option (BitVec 64) := none
deriving DecidableEq, Repr

/-- The receive order of a lane group (16 R368): the next sequence number once one was received, and the frames that wait. -/
structure RxOrder where
  next    : Option Nat := none
  waiting : List RxWait := []
deriving DecidableEq, Repr

/-- A cascade block (16 R386). -/
structure CascBlock where
  ftick    : Nat
  frames   : List RxWait := []
  complete : Bool := false
deriving DecidableEq, Repr

/-- The framer (16): the frames waiting by class in order, where the next one is stored, the `TICK` frames waiting, frames to be resent, the sequence
numbers, the block in hand, the buckets (in bytes times 2^150; 0 suppressed, 1 spectra, 2 records, 3 hits, 4 cascade), the
rotating starts, the reports of the tick in hand (0 suppressed, 1 records, 2 hits), the line-rate writes waiting, the counts of
the second, the receive orders and the cascade merge. -/
structure Framer where
  queue     : List Frame := []
  qptr      : Nat := 0
  ticks     : List TickHdr := []
  resendDown : List TxFrame := []
  resendCasc : List TxFrame := []
  fwdCasc   : List TxFrame := []
  gseqDown  : Nat := 0
  gseqCasc  : Nat := 0
  block     : Nat := 0
  blockOpen : Bool := false
  blockFrames : Nat := 0
  buckets   : SMap Nat := []
  suppStart : Nat := 0
  maskRot   : Nat := 0
  masksChanged : List Nat := []
  exceeding : Nat := 0
  rateDown  : Option Nat := none
  rateCasc  : Option Nat := none
  secCond   : Cond := 0
  secLate   : Nat := 0
  secAlloc  : Nat := 0
  secDrops  : Nat := 0
  secReplays : Nat := 0
  secStart  : Nat := 0
  rxDown    : RxOrder := {}
  rxCasc    : RxOrder := {}
  casc      : List CascBlock := []
  cascOut   : List RxWait := []
  cascDone  : Option Nat := none
  holdOver  : Bool := false
deriving DecidableEq, Repr

/-! ### Triggers and the Domino bus (10) -/

/-- A channel's trigger path (10 R218, R220, R227): the armed bits, the Kloif sample at which its re-arm ends (0 none), the sample count up
to which the comparator has taken its samples, and that up to which a reset or restart leaves it warming. -/
structure TrigCh where
  armedR : Bool := true
  armedF : Bool := true
  rearm  : Nat := 0
  seen   : Nat := 0
  warmTo : Nat := 0
deriving DecidableEq, Repr

/-- An open window of a coincidence level (10 R222): its first stamp, the k and W of that stamp's tick, and the triggers
that joined, first first. -/
structure CoinWin where
  t0     : Nat
  k      : Nat
  w      : Nat
  joined : List MemberTrig
deriving DecidableEq, Repr

/-- A coincidence level's element (10 R222, R227): its window, the triggers it holds, and the end of its re-arm. -/
structure CoinSt where
  win   : Option CoinWin := none
  held  : List MemberTrig := []
  rearm : Nat := 0
deriving DecidableEq, Repr

/-- A report at a root (10 R234). -/
structure Report where
  module : Nat
  cand   : Nat
  level  : Nat
  stamp  : Nat
  unlocked : Bool
deriving DecidableEq, Repr

/-- A decision waiting for its boundary (10 R235, 13 R293): the candidate with the stamp it names, or the candidates an
array trigger matched; with the boundary of its arrival. -/
structure Decision where
  confirm : Bool
  cands   : List Nat
  stamp   : Option Nat
  ord     : Nat
deriving DecidableEq, Repr

/-- Triggers (10): the channels, the coincidence levels by `512 · level + element`, the re-arm ends of the external inputs
and the engines, the triggers issued and not yet delivered to the next level, the intervals of dead time, the dead time of the second so far
before a time set, and the begin of an interval with a full table (TU), the prescaler count, the boundary of the last change of its level and its quiet ticks; the
array window with its reports, the reports held, the stamp up to which windows have closed; the Domino counters sent and
last received by lane, the boundary of each lane's last probe (plus one); the decisions that wait; the
`TRGO` pin, its pulses in Kloif samples; crossing words of the current tick and of the tick before; the last active edge of `TRGI`
(22 R526). -/
structure Trig where
  chans    : SMap TrigCh := []
  coins    : SMap CoinSt := []
  sources  : SMap Nat := []
  flight   : List (Nat × Nat × MemberTrig) := []
  dead     : List (Nat × Nat) := []
  deadBank : Nat := 0
  fullFrom : Option Nat := none
  count    : Nat := 0
  changed  : Nat := 0
  quiet    : Nat := 0
  arrT0    : Option Nat := none
  joined   : List Report := []
  held     : List Report := []
  closedTo : Option Nat := none
  txSeq    : SMap Nat := []
  rxSeq    : SMap (Option Nat) := []
  probed   : SMap Nat := []
  decisions : List Decision := []
  trgo     : Bool := false
  pulses   : List (Nat × Nat) := []
  words    : List (Nat × BitVec 64) := []
  wordsOld : List (Nat × BitVec 64) := []
  trgiLast : Option Nat := none
deriving DecidableEq, Repr

/-! ### History, coder, candidates (11, 12, 13) -/

/-- A slot of the ring (11 R245-R250): `granules` the runs of granules taken (first, length), `conds` the condition words by
`256 · offset + input`, `rewritten` the inputs and ticks with a block rewritten by the coder. -/
structure Slot where
  j        : Nat
  first    : Nat
  run      : Nat
  state    : Nat
  bits     : Nat
  pins     : Nat := 0
  granules : List (Nat × Nat)
  count    : Nat
  written  : Nat := 0
  condOr   : Cond := 0
  flags    : Nat := 0
  nodata   : Nat := 0
  inputs   : List Nat
  conds    : SMap Cond := []
deriving DecidableEq, Repr

/-- The blocks of one input and tick as the coder made them (12): their bytes, whether any is lossy, whether any was
rewritten after a failed verification, and how many are `NODATA`. -/
structure Coded where
  input    : Nat
  bytes    : List Byte
  lossy    : Bool
  rewritten : Bool
  nodata   : Nat
  bad      : Bool := false
deriving DecidableEq, Repr

/-- The history writer (11): whether a run is on, its bits and inputs, the geometry of the last window test (R254), the write
pointer, the slots, newest first, the blocks coded and not yet written with their tick, the newest tick written, and the slot whose
entry is completed a tick late, as it still reads (02 R35). -/
structure Hist where
  on       : Bool := false
  bits     : Nat := 6
  inputs   : List Nat := []
  testBits : Nat := 6
  testInputs : List Nat := []
  wptr     : Nat := 0
  slots    : List Slot := []
  coded    : List Coded := []
  codedTick : Option Nat := none
  newest   : Option Nat := none
  lateSlot : Option Slot := none
deriving DecidableEq, Repr

/-- An input's coder (12 R277): the table of the segment (0 static, 1-8 dynamic), and the prices of the segment so far. -/
structure CoderIn where
  tab    : Nat := 0
  prices : List Nat := []
deriving DecidableEq, Repr

/-- A region's coder (12 R277, R284): whether the next segment is static because of a swap or a reset, and the symbols of the
segment so far. -/
structure CoderRg where
  disturbed : Bool := false
  syms      : List Nat := []
deriving DecidableEq, Repr

/-- The coder (12): inputs, regions, and the tick of the last segment start. -/
structure Coder where
  ins     : SMap CoderIn := []
  rgs     : SMap CoderRg := []
  segTick : Option Nat := none
deriving DecidableEq, Repr

/-- A candidate (13 R288) with its record (11 R252-R262): `state` 0 is a free entry. `word` is the trigger word, `slots` the
slots pinned (run, number), `reserved` those still to come; `staging` and `head` the pages reserved, `blocks` and `conds` what was cut, `measIns` the inputs to be measured with
the filter set and the `SAT` fill of each at the trigger's tick, `sealNo` the order of sealing, `queued` whether its
frames were queued, `commitQueued` its `COMMIT`, `waits` a failed export, `crossed` the inputs whose condition words of the trigger's tick
(by `ord`) the trigger word still takes. -/
structure Candidate where
  trigTick : Nat := 0
  deadline : Nat := 0
  seq      : Nat := 0
  staging  : List Nat := []
  head     : List Nat := []
  state    : Nat := 0
  outcome  : Nat := 0
  level    : Nat := 0
  cutDone  : Bool := false
  isSealed : Bool := false
  ahead    : Bool := false
  exporting : Bool := false
  word     : BitVec 128 := 0
  stamp    : Nat := 0
  first    : Nat := 0
  ticks    : Nat := 0
  preReq   : Nat := 0
  postReq  : Nat := 0
  flags    : BitVec 16 := 0
  bits     : Nat := 0
  inputs   : List Nat := []
  run      : Nat := 0
  slots    : List (Nat × Nat) := []
  reserved : List Nat := []
  noticeTick : Nat := 0
  notices  : List Nat := []
  space    : Nat := 0
  measIns  : List (Nat × Nat × Nat) := []
  measured : Bool := false
  meas     : List (BitVec 64) := []
  cond     : Cond := 0
  conds    : List Cond := []
  blocks   : List Byte := []
  sealNo   : Nat := 0
  queued   : Bool := false
  commitQueued : Bool := false
  waits    : Bool := false
  crossed  : List Nat := []
  trigOrd  : Nat := 0
deriving DecidableEq, Repr

/-- The candidate table (13): the entries, those of the boundary of the current tick, the entry most recently allocated, the
number of seals, and whether no record was committed since the reset. -/
structure Spec where
  cands  : SMap Candidate := []
  cands0 : SMap Candidate := []
  last   : Nat := 8191
  seals  : Nat := 0
  fresh  : Bool := true
deriving DecidableEq, Repr

/-! ### Time-to-digital converters (14) -/

/-- An edge as stamped (14 R309): its stamp in 2⁻⁸ TU and in TU, the stamp counted from reset, which no time set moves (`at_`), the
tick, the arming in force and its gate (R330), and the marks of a hit. -/
structure Edge where
  s8       : Int
  stamp    : Int
  at_      : Int
  ord      : Nat
  arm      : Nat
  gate     : Nat
  rising   : Bool
  uncal    : Bool
  unlocked : Bool
  blank    : Bool
  decided  : Bool := false
deriving DecidableEq, Repr

/-- A start of an armed TDC, with the settings of its window (14 R323, R330). -/
structure StartEdge where
  s8       : Int
  stamp    : Int
  src      : Nat
  uncal    : Bool
  unlocked : Bool
  lo       : Int
  hi       : Int
  arm      : Nat
  gate     : Nat
  at_      : Int
  ord      : Nat
deriving DecidableEq, Repr

/-- A frequency gate in progress (14 R326, R327): its first tick, G, D and the direction in force at its start (R330), the edges seen,
the stamps used with their sums, and the marks; `inTick` when a stamp of the tick in progress was used, `endOrd` the tick in which
it was found complete. -/
structure Gate where
  first  : Nat := 0
  g      : Nat := 250000
  d      : Nat := 1
  rising : Bool := true
  seen   : Nat := 0
  n      : Nat := 0
  s0     : Int := 0
  sy     : Int := 0
  sxy    : Int := 0
  syy    : Int := 0
  lost   : Bool := false
  capped : Bool := false
  uncal  : Bool := false
  unlocked : Bool := false
  inTick : Bool := false
  endOrd : Nat := 0
deriving DecidableEq, Repr

/-- A hit word with its source, the tick of its stamp and the tick in which it was stamped, counted from reset. -/
structure HitWord where
  src  : Nat
  tick : Nat
  ord  : Nat
  word : BitVec 64
deriving DecidableEq, Repr

/-- A TDC beside its objects (14): the output of its discriminator (R307), the time of its previous edge (2⁻⁸ TU from reset), the
times of the losses that no hit has told of yet, the number of hits in the buffer, the edges kept for gates and windows, those of an
external input for the gates it may serve as (stamp from reset, rising), the starts not settled, the histogram, the table that the next boundary takes, the frequency gate, the finished one
waiting to be published, and whether results are not ready. -/
structure TdcSt where
  high     : Bool := false
  prev     : Option Int := none
  losses   : List Int := []
  stored   : Nat := 0
  edges    : List Edge := []
  levels   : List (Int × Bool) := []
  starts   : List StartEdge := []
  histo    : SMap Nat := []
  newTable : Option (List Nat) := none
  newRms   : Nat := 0
  gate     : Option Gate := none
  done     : Option Gate := none
  notReady : Bool := false
deriving DecidableEq, Repr

/-- The TDCs (14) by source code, the delay-locked loops that run (the first whole tick of each, counted from reset, plus 1), the
hits of the tick and of the tick before, the interval words (stop source, tick, word), and the rotating start of the hit
allocation. -/
structure Tdc where
  tdcs     : SMap TdcSt := []
  loops    : SMap Nat := []
  hits     : List HitWord := []
  hitsOld  : List HitWord := []
  intervals : List (Nat × Nat × BitVec 96) := []
  rot      : Nat := 0
deriving DecidableEq, Repr

/-! ### Memory integrity and check-value units (18) -/

/-- A context slot of a check-value unit (18 R441). -/
structure CvuSlot where
  poly  : Nat := 0
  value : Nat := 0
  count : Nat := 0
  alive : Nat := 0
deriving DecidableEq, Repr

/-- A descriptor queued (18 R439): its word, and the action of `CVU_SUBMIT` (0 from the application). -/
structure CvuJob where
  desc   : BitVec 256
  action : Nat
deriving DecidableEq, Repr

/-- A check-value unit (18 R439-R443). -/
structure Cvu where
  slots : SMap CvuSlot := []
  queue : List CvuJob := []
deriving DecidableEq, Repr

/-- Memory integrity (18) by domain (0-3 stacks, 4 CD, 5-12 reader dies): disarmed buckets, the scrubbers' next granules, the boundaries
at which the running laps began, the laps whose slowness was reported, and the boundary (plus one) of the last leak; the check-value units and the supervisor's
result ring, newest first. -/
structure Integrity where
  disarmed : SMap Bool := []
  lapAt    : SMap Nat := []
  lapOrd   : SMap Nat := []
  slow     : SMap Bool := []
  leaked   : SMap Nat := []
  cvus     : SMap Cvu := []
  ring     : List (BitVec 128) := []
deriving DecidableEq, Repr

/-! ### Supply, start-up, supervisor (19, 20) -/

/-- Start-up (20 R468-R475): `PWR_GOOD`, a recognised low period of `RESET_N`, whether the module is held before start-up (`step` 0) or
in which step of R469 it is (1 ROM boot; 2 fuses and fill; 4 kernel verification; 5 kernel started; 6 SAFE reached), the
fuse read and fill done, the kind of reset (0 cold, 1 warm, 2 dump-preserving) with its cause and the mode it left, the boundary of
HALT, the elapsed ticks of the hour of automatic resets with the boundary they were counted at; the boot record (19 R457): preferred kernel slot, trial and
attempt flags, preferred application slot and trial flag; whether the kernel runs on trial, and the fallback to be logged. -/
structure Boot where
  power    : Bool := true
  low      : Bool := false
  step     : Nat := 0
  fuses    : Bool := false
  filled   : Bool := false
  kind     : Nat := 0
  cause    : Nat := 0
  prev     : Int := 0
  safeOrd  : Nat := 0
  haltOrd  : Nat := 0
  hour     : Option Nat := none
  hourOrd  : Nat := 0
  kPref    : Nat := 0
  kTrial   : Bool := false
  kTried   : Bool := false
  aPref    : Nat := 2
  aTrial   : Bool := false
  onTrial  : Bool := false
  fellBack : Bool := false
deriving DecidableEq, Repr

/-- The application's supervision (19 R460-R462): the slot being started and the slots that have failed in this start,
a switch waiting for the boundary; the boundaries of its start and last `KICK`, the restarts of the hour with its begin. -/
structure App where
  starting : Option Nat := none
  failed   : List Nat := []
  switchTo : Option Nat := none
  startOrd : Nat := 0
  kickOrd  : Nat := 0
  restarts : Nat := 0
  hour     : Nat := 0
deriving DecidableEq, Repr

/-- Long actions in progress (17 R408): a mode request's, image verifications (slot, action), and a fuse burn (item 1 owner key,
2 revocation, 3 rollback; number; bytes; action). -/
structure Acts where
  mode     : Nat := 0
  verifies : List (Nat × Nat) := []
  burn     : Option (Nat × Nat × List Byte × Nat) := none
deriving DecidableEq, Repr

/-! ### The machine -/

/-- A setting accepted and waiting for its boundary (03 R90). -/
structure Staged where
  key   : Nat
  value : Int
  blob  : List Byte := []
deriving DecidableEq, Repr

/-- A copy of a table instance that a swap retired (02 R38): the instance, the boundary (by `ord`) of the swap, and its contents. -/
structure RetiredCopy where
  tab   : Nat
  ord   : Nat
  vals  : SMap Int
  blobs : SMap (List Byte)
deriving DecidableEq, Repr

/-- The value that a change at a boundary (by `ord`) replaced, of an object whose value at a past tick is asked for (11 R262). -/
structure PastVal where
  key   : Nat
  ord   : Nat
  value : Int
deriving DecidableEq, Repr

/-- The state of the block. -/
structure State where
  vals     : SMap Int := []
  blobs    : SMap (List Byte) := []
  live     : SMap Int := []
  liveBlobs : SMap (List Byte) := []
  retired  : List RetiredCopy := []
  staged   : List Staged := []
  past     : List PastVal := []
  sdp      : Sdp := {}
  clk      : Clk := {}
  tabs     : SMap TabSt := []
  inputs   : SMap InSt := []
  pins     : SMap Pin := []
  clusters : SMap ClSt := []
  mem      : List Host.Cell := []
  poison   : SMap Bool := []
  regions  : SMap RgSt := []
  pipe     : List PipeTick := []
  periods  : List (Nat × Nat) := []
  hks      : SMap HkSt := []
  cont     : Containment := {}
  flt      : Faults := {}
  lanes    : SMap LnSt := []
  slices   : SMap SlSt := []
  ctxQueue : List CtxWrite := []
  delay    : List DelayTick := []
  suppTick : Option Nat := none
  beams    : List BeamOut := []
  engs     : SMap Eng := []
  engLoads : List Nat := []
  win      : EngWin := {}
  fr       : Framer := {}
  trig     : Trig := {}
  hist     : Hist := {}
  coder    : Coder := {}
  spec     : Spec := {}
  tdc      : Tdc := {}
  ecc      : Integrity := {}
  boot     : Boot := {}
  app      : App := {}
  acts     : Acts := {}
  freeCtr  : Nat := 0
  pending  : List Instr := []
deriving DecidableEq, Repr

/-- Why the machine stops with a fault. The spec gives every command an effect in every state, so there is no reason: no
meaning stops. -/
inductive Fault
deriving DecidableEq, Repr

/-- Why a command has no meaning. -/
inductive Refusal where
  /-- A command whose meaning is not written yet: raised by `exec` alone. Safe. -/
  | notModelled (mnemonic : String)
deriving DecidableEq, Repr

/-- The state after reset. -/
def State.reset : State := {}

end Sys2Proof.Machine
end

