-- ==== Sys2Proof/Machine/Ops.lean ====
section
/-! DEFINITION. The named operations every meaning is built from: dictionary values, free values, memory, events, answers
and long actions, and the fault log. -/

namespace Sys2Proof.Machine

/-- What a command answers. -/
abbrev Out := Host.Outcome State Fault Refusal

/-! ### Dictionary values -/

/-- The value of an object at an element and sub (in force). -/
def State.val (s : State) (o : ObjDef) (e : Nat := 0) (sub : Nat := o.subLo) : Int :=
  smGet (dfltVal o e sub) s.vals (key o e sub)

/-- The value as a natural number. -/
def State.nat (s : State) (o : ObjDef) (e : Nat := 0) (sub : Nat := o.subLo) : Nat := (s.val o e sub).toNat

/-- Whether a BOOL object, or a mask, is not 0. -/
def State.on (s : State) (o : ObjDef) (e : Nat := 0) (sub : Nat := o.subLo) : Bool := s.val o e sub != 0

/-- The state with an object's value set. -/
def State.setVal (s : State) (o : ObjDef) (v : Int) (e : Nat := 0) (sub : Nat := o.subLo) : State :=
  { s with vals := smPut (dfltVal o e sub) s.vals (key o e sub) v }

/-- A counter that wraps at its type's width, raised by `n` (17 R422 and the tables' "wraps"). -/
def State.inc (s : State) (o : ObjDef) (e : Nat := 0) (sub : Nat := o.subLo) (n : Nat := 1) : State :=
  s.setVal o ((s.val o e sub + n) % (2 ^ o.ty.bits : Int)) e sub

/-- A generation of a result object: rises by one, wraps to 1 past 65,535 (17 R409). -/
def nextGen (g : Int) : Int := if g ≥ 65535 then 1 else g + 1

/-- The bytes of a BLOB object. -/
def State.blob (s : State) (o : ObjDef) (e : Nat := 0) (sub : Nat := o.subLo) : List Byte :=
  smGet (dfltBlob o) s.blobs (key o e sub)

/-- The state with a BLOB object's bytes set. -/
def State.setBlob (s : State) (o : ObjDef) (b : List Byte) (e : Nat := 0) (sub : Nat := o.subLo) : State :=
  { s with blobs := smPut (dfltBlob o) s.blobs (key o e sub) b }

/-- The live value of an object of a swapped table (02 R37). -/
def State.liveVal (s : State) (o : ObjDef) (e : Nat := 0) (sub : Nat := o.subLo) : Int :=
  smGet (dfltVal o e sub) s.live (key o e sub)

/-- The live bytes of a BLOB of a swapped table. -/
def State.liveBlob (s : State) (o : ObjDef) (e : Nat := 0) (sub : Nat := o.subLo) : List Byte :=
  smGet (dfltBlob o) s.liveBlobs (key o e sub)

/-- The value last accepted: the one waiting for its boundary, else the one in force (17 R538). -/
def State.accepted (s : State) (o : ObjDef) (e : Nat := 0) (sub : Nat := o.subLo) : Int :=
  match s.staged.reverse.find? (fun w => w.key == key o e sub) with
  | some w => w.value
  | none => s.val o e sub

/-- The value of an object for a sampling tick, by its `ord`: what the first change at a later boundary replaced, else the one in force
(03 R90). -/
def State.natAt (s : State) (o : ObjDef) (ord : Nat) (e : Nat := 0) (sub : Nat := o.subLo) : Nat :=
  match (s.past.filter fun p => p.key == key o e sub && decide (ord < p.ord)).getLast? with
  | some p => p.value.toNat
  | none => s.nat o e sub

/-- Notes what a change at this boundary replaces, for as long as a record may ask for it (11 R262; 13 R289). -/
def State.notePast (s : State) (o : ObjDef) (e : Nat) : State :=
  { s with past := { key := key o e o.subLo, ord := s.clk.ord, value := s.val o e } :: s.past.filter fun p => decide (s.clk.ord < p.ord + 8192) }

/-- The mode in force (01 R28). -/
def State.mode (s : State) : Int := s.val Obj.MODE_NOW

/-! ### Free values -/

/-- The next free value below `n` and the state with the counter advanced (assumption log 5, DESIGN CHOICE). -/
def State.free (s : State) (n : Nat) : Nat × State :=
  (Config.free s.freeCtr % n, { s with freeCtr := s.freeCtr + 1 })

/-- `n` free bytes. -/
def State.freeBytes (s : State) (n : Nat) : List Byte × State :=
  ((List.range n).map fun i => BitVec.ofNat 8 (Config.free (s.freeCtr + i)), { s with freeCtr := s.freeCtr + n })

/-! ### Time -/

/-- The number of the tick in progress (02 R32). -/
def State.tick (s : State) : Nat := s.clk.tick

/-- The Kloif time of the current tick's boundary (02 R48). -/
def State.timeNow (s : State) : Nat := s.clk.tick * 2 ^ 19 % 2 ^ 72

/-- The Kloif time of a sample of the current tick. -/
def State.timeAt (s : State) (sample : Nat) : Nat := (s.clk.tick * 2 ^ 19 + sample * 128) % 2 ^ 72

/-- What held in the sampling tick `i` ticks back. -/
def State.infoAt (s : State) (i : Nat) : TickInfo := nth {} s.clk.info i

/-! ### Inputs and elements -/

/-- An input's state. -/
def State.inp (s : State) (n : Nat) : InSt := smGet {} s.inputs n

/-- The state with an input's state changed. -/
def State.setInp (s : State) (n : Nat) (f : InSt → InSt) : State := { s with inputs := smUpd {} s.inputs n f }

/-- The condition word of input `n`, `i` ticks back (0 the current tick). -/
def State.condAt (s : State) (n i : Nat) : Cond := nth 0 (s.inp n).cond i

/-- Sets bits in the condition word of input `n`, `i` ticks back. -/
def State.mark (s : State) (n : Nat) (c : Cond) (i : Nat := 0) : State :=
  s.setInp n fun x =>
    { x with cond := (List.range (Nat.max x.cond.length (i + 1))).map fun k =>
        if k = i then nth 0 x.cond k ||| c else nth 0 x.cond k }

/-- Whether a reader die is set aside (01 R16). -/
def State.dieOut (s : State) (d : Nat) : Bool := s.val Obj.DIE_STATE d != 0

/-- Whether a reader die is set aside in force: the boundary of its isolation has come (01 R17). Assumption log 60, DEDUCED. -/
def State.dieOff (s : State) (d : Nat) : Bool := s.cont.out.contains d

/-- Whether an input is in service: its die not isolated and its channel not quarantined (01 R29), by the states that are
in force (isolations and quarantines whose boundary has come). -/
def State.inService (s : State) (n : Nat) : Bool :=
  bitOf (leNat (slice (s.blob Obj.INPUT_SERVICE_MASK) (n / 8) 1)) (n % 8)

/-- The inputs in service. -/
def State.servedInputs (s : State) : List Nat := (List.range 256).filter s.inService

/-- The mask bytes of a predicate on inputs (01 R29). -/
def inputMask (p : Nat → Bool) : List Byte :=
  (List.range 32).map fun k => BitVec.ofNat 8 (ofBits ((List.range 8).map fun i => p (8 * k + i)))

/-- Whether input `n` is set in a 32-byte mask. -/
def maskHas (m : List Byte) (n : Nat) : Bool := (nth 0 m (n / 8)).toNat.testBit (n % 8)

/-! ### Memory -/

/-- The byte-addressed memories, by the space codes of 18 R439. -/
def spaceBase (space : Nat) : Nat := space * 2 ^ 40

/-- The canonical form of memory: addresses strictly rising, no byte listed that is the 0 an unlisted address reads as. -/
def Memory.wf (m : List Host.Cell) : Bool := smWf 0 m

/-- The byte at an address. -/
def State.byte (s : State) (a : Nat) : Byte := smGet 0 s.mem a

/-- The state with a byte written. -/
def State.putByte (s : State) (a : Nat) (b : Byte) : State := { s with mem := smPut 0 s.mem a b }

/-- `n` bytes from an address. -/
def State.bytes (s : State) (a n : Nat) : List Byte := (List.range n).map fun i => s.byte (a + i)

/-- The state with bytes written from an address. -/
def State.putBytes (s : State) (a : Nat) : List Byte → State
  | [] => s
  | b :: r => (s.putByte a b).putBytes (a + 1) r

/-- The state with a range of addresses filled with zeros. -/
def State.fillZero (s : State) (a n : Nat) : State :=
  { s with mem := s.mem.filter fun c => decide (c.1 < a ∨ a + n ≤ c.1),
           poison := s.poison.filter fun c => decide (c.1 < a ∨ a + n ≤ c.1) }

/-- Whether any granule base in a range is marked poison. -/
def State.poisoned (s : State) (a n : Nat) : Bool := s.poison.any fun c => decide (a ≤ c.1 ∧ c.1 < a + n)

/-- The state with the poison marks of a range cleared, as whole granules are written (18 R428). -/
def State.clearPoison (s : State) (a n : Nat) : State :=
  if s.poison.isEmpty then s else { s with poison := s.poison.filter fun c => decide (c.1 < a ∨ a + n ≤ c.1) }

/-- The state with a granule marked (18 R428). -/
def State.markPoison (s : State) (a : Nat) : State := { s with poison := smPut false s.poison a true }

/-- The DRAM regions of 01 R26, one after the other in the order of its table (assumption log 24, DESIGN CHOICE): the history ring is at 0. -/
def dumpBase : Nat := 120 * 2 ^ 30
/-- Speculative staging. -/
def stagingBase : Nat := dumpBase + 2 ^ 28
/-- Supervisor application and engine spill. -/
def appBase : Nat := stagingBase + 2 ^ 32
/-- Output queues. -/
def queueBase : Nat := appBase + 2 ^ 30
/-- Tables and slot map. -/
def tablesBase : Nat := queueBase + 2 ^ 31
/-- The head store within the tables region. -/
def headBase : Nat := tablesBase + 2 ^ 29
/-- The slot-map entry of slot `j` (11 R249). -/
def slotMapAddr (j : Nat) : Nat := tablesBase + j % 1310720 * 64

/-! ### Answers and long actions (17 R407, R408) -/

/-- Records what a write or request was answered with. -/
def State.answer (s : State) (a : Answer) : State := { s with sdp := { s.sdp with answer := some a } }

/-- Answers with a status alone. -/
def State.status (s : State) (st : Nat) : State := s.answer { status := st }

/-- A new action number, non-zero (17 R408), and the state that has used it. -/
def State.newAction (s : State) : Nat × State := let q := s.free (2 ^ 32 - 1); (q.1 + 1, q.2)

/-! ### Events (17 R413-R415) -/

/-- Whether a subscription's scope matches an event's (17 R413). -/
def subScopeMatches (b : EvSub) (kind num : Nat) : Bool :=
  if b.kind = 0 then (if b.num = 0xFFFF then true else kind == 0)
  else b.kind == kind && (b.num == 0xFFFF || b.num == num)

/-- Whether a subscription matches an event (17 R413). -/
def subMatches (b : EvSub) (e : Event) : Bool :=
  (b.code == 0xFFFF || b.code.toNat == e.code) && b.mask.toNat.testBit (e.code / 4096) && subScopeMatches b e.kind e.num

/-- A session's backlog with one record more: beyond 256 the oldest is discarded and counted (17 R414). -/
def pushWaiting (x : Session) (e : Event) : Session :=
  let w := x.waiting ++ [e]
  if w.length ≤ 256 then { x with waiting := w } else
    match w with
    | [] => x
    | o :: r =>
      { x with waiting := r
               lost := some (match x.lost with
                 | none => { count := 1, oldest := o.seq, newest := o.seq }
                 | some l => { l with count := l.count + 1, newest := o.seq }) }

/-- The next event sequence number: 1 after an empty ring, and never 0 (17 R413). -/
def nextSeq (ring : List Event) : Nat :=
  match ring with
  | [] => 1
  | e :: _ => if e.seq ≥ 2 ^ 32 - 1 then 1 else e.seq + 1

/-- An event's argument: the bytes given, filled to 12 (17 R415). -/
def argBytes (l : List Byte) : List Byte := slice l 0 12

/-- Raises an event of a scope: it enters the ring and the backlog of every open session that holds a matching
subscription (17 R413). -/
def State.raise (s : State) (code kind num : Nat) (arg : List Byte) : State :=
  let e : Event := { seq := nextSeq s.sdp.ring, code, kind, num, tick := s.tick, arg := argBytes arg }
  { s with sdp := { s.sdp with
      ring := (e :: s.sdp.ring).take 4096
      sessions := s.sdp.sessions.map fun x =>
        if x.isOpen && x.subs.any (fun b => subMatches b.2 e) then pushWaiting x e else x } }

/-- The end of a long action, by event `ACTION_DONE` (17 R408, R416). -/
def State.actionDone (s : State) (action status : Nat) : State :=
  if action = 0 then s else s.raise 0xD001 0 0 (leBytes 4 action ++ leBytes 1 status)

/-! ### The fault log (21 R498, R499) -/

/-- The offset of fault-log entry `i` in the MRAM (19 R449). -/
def faultLogAddr (i : Nat) : Nat := spaceBase 1 + 0x0050000 + 128 * i

/-- The 128 bytes of a log entry (21 R499). -/
def State.faultEntry (s : State) (seq code kind num rep t0 t1 : Nat) (arg : List Byte) : List Byte :=
  let b := leBytes 4 seq ++ leBytes 2 code ++ leBytes 1 kind ++ leInt 1 s.mode ++ leBytes 2 num ++ leBytes 2 0 ++
    leBytes 4 rep ++ leBytes 8 t0 ++ leBytes 8 t1 ++ leInt 4 (s.val Obj.KERNEL_VERSION) ++
    leInt 4 (s.val Obj.APP_VERSION) ++ leInt 4 (s.val Obj.RESET_COUNT) ++ slice arg 0 32 ++ leBytes 48 0
  b ++ leBytes 4 (crc32c b)

/-- Writes one entry to the log and raises `FAULT_LOGGED` (21 R498). Nothing is written while the MRAM does not respond
(21 R504). -/
def State.logEntry (s : State) (code kind num rep t0 t1 : Nat) (arg : List Byte) : State :=
  if s.flt.mramDead then s else
    let head := (s.nat Obj.FAULT_HEAD + 1) % 4096
    let seq := (s.nat Obj.FAULT_SEQ + 1) % 2 ^ 32
    let b := s.faultEntry seq code kind num rep t0 t1 arg
    (((s.putBytes (faultLogAddr head) b).setVal Obj.FAULT_HEAD head).setVal Obj.FAULT_SEQ seq).raise
      0xF004 kind num (leBytes 2 code ++ leBytes 4 seq)

/-- Whether a span is of a code and scope. -/
def Span.sameAs (x : Span) (code kind num : Nat) : Bool := x.code == code && x.kind == kind && x.num == num

/-- Writes the summary entry of a span whose count is above 0 (21 R498). -/
def State.logSummary (s : State) (x : Span) : State :=
  if x.count = 0 then s else s.logEntry x.code x.kind x.num x.count x.first x.last []

/-- Logs a fault: in full when no span of its code and scope is open, counted otherwise (21 R498). The class counter rises
either way (21 R509). -/
def State.logFault (s : State) (code kind num : Nat) (arg : List Byte := []) : State :=
  let s := s.inc Obj.FAULT_CLASS_COUNT 0 (code / 4096)
  match s.flt.spans.find? (fun x => x.sameAs code kind num && decide (s.clk.ord < x.start + 250000)) with
  | some _ =>
    let bump (x : Span) : Span :=
      if x.sameAs code kind num then
        { x with count := x.count + 1, first := if x.count = 0 then s.tick else x.first, last := s.tick }
      else x
    { s with flt := { s.flt with spans := s.flt.spans.map bump } }
  | none =>
    let s := (s.flt.spans.filter (fun x => x.sameAs code kind num)).foldl State.logSummary s
    let s := s.logEntry code kind num 0 s.tick s.tick arg
    { s with flt := { s.flt with spans :=
        { code, kind, num, start := s.clk.ord } :: s.flt.spans.filter fun x => !x.sameAs code kind num } }

/-- Writes every pending count as a summary entry and closes the spans (21 R498). -/
def State.flushSpans (s : State) : State :=
  let s := s.flt.spans.reverse.foldl State.logSummary s
  { s with flt := { s.flt with spans := [] } }

/-! ### Containment causes (01 R16, 21 R495, R496) -/

/-- The kernel sets a reader die aside as `FAULTED`: the state changes and the isolation waits for the next boundary. A die
already set aside stays as it is. `DIE_ISOLATE` then reads 1, which the spec does not say (assumption log 84, DESIGN CHOICE). -/
def State.faultDie (s : State) (d code : Nat) (arg : List Byte := []) : State :=
  let s := s.logFault code 4 d arg
  if s.dieOut d then s else
    let s := s.setVal Obj.DIE_STATE 2 d
    let s := s.setVal Obj.DIE_ISOLATE 1 d
    { s with cont := { s.cont with isolating := s.cont.isolating ++ [(d, code)] } }

/-- The kernel quarantines a channel as `FAULTED`; the quarantine waits for the next boundary (21 R496). `CH_QUARANTINE` then reads
1, which the spec does not say (assumption log 84, DESIGN CHOICE). -/
def State.faultChannel (s : State) (n code : Nat) : State :=
  let s := s.logFault code 1 n
  if s.val Obj.CH_STATE n != 0 then s else
    let s := s.setVal Obj.CH_STATE 2 n
    let s := s.setVal Obj.CH_QUARANTINE 1 n
    { s with cont := { s.cont with quarantining := s.cont.quarantining ++ [(n, code)] } }

end Sys2Proof.Machine
end

