-- ==== Sys2Proof/Machine/Housekeeping.lean ====
section
/-! DEFINITION. The housekeeping converters (04). -/

namespace Sys2Proof.Machine

/-- A housekeeping converter's state. -/
def State.hk (s : State) (h : Nat) : HkSt := smGet {} s.hks h

/-- The state with a converter's state changed. -/
def State.setHk (s : State) (h : Nat) (f : HkSt → HkSt) : State := { s with hks := smUpd {} s.hks h f }

/-- Whether a source code is one of a converter's, groups included (04 R93). -/
def hkSourceOk (h src : Nat) : Bool := if h = 8 then decide (src ≤ 9) else decide (src ≤ 0x2B)

/-- Whether a source is a feed group (04 R93). -/
def hkIsGroup (h src : Nat) : Bool := h != 8 && decide (0x20 ≤ src ∧ src ≤ 0x23)

/-- Whether a source is a feed current. -/
def hkIsFeed (h src : Nat) : Bool := h != 8 && decide (src < 0x20)

/-- Whether a source is a temperature (04 R93). -/
def hkIsTemp (h src : Nat) : Bool := if h = 8 then decide (src ≤ 4) else decide (0x25 ≤ src ∧ src ≤ 0x28)

/-- The die-centre temperature source of a converter (04 R99). -/
def hkCentre (h : Nat) : Nat := if h = 8 then 0 else 0x27

/-- The checks of an entry word's fields (04 R94). -/
def hkEntryOk (h : Nat) (w : Nat) : Bool :=
  decide (w < 2 ^ 24) && decide ((w >>> 19) % 16 ≤ 8) && decide ((w >>> 16) % 8 ≤ 4) && hkSourceOk h (w % 256)

/-- The active sequence: the default one until a commit (04 R94, R97). -/
def HkSt.entryAt (x : HkSt) (h i : Nat) : Nat :=
  if x.seqLen = 0 then dfltHkEntry h i else (nth 0 x.seq i).toNat

/-- The active length. -/
def HkSt.len (x : HkSt) (h : Nat) : Nat := if x.seqLen = 0 then (if h = 8 then 10 else 9) else x.seqLen

/-- The first enabled entry from `i` on, if any (04 R94 `ENABLE`, R96). -/
def HkSt.nextEntry (x : HkSt) (h i : Nat) : Option Nat :=
  (List.range (x.len h)).find? fun k => decide (i ≤ k) && (x.entryAt h k).testBit 23

/-- Whether a converter runs: modes 1-10, its die neither set aside nor in reset nor under test (04 R106). -/
def State.hkRuns (s : State) (h : Nat) : Bool :=
  Mode.housekeeping s.mode &&
  (h == 8 || (!s.dieOff h && !(s.cont.resetting.any fun e => e.1 == h) &&
    !(s.nat Obj.SELFTEST_RUNNING == h) && !(s.nat Obj.SELFTEST_RUNNING == 8 + h)))

/-- Stops a converter: the pass is aborted and the queue emptied, results and sequence stay (04 R106). -/
def State.hkStop (s : State) (h : Nat) : State :=
  (s.setHk h fun x => { x with passing := false, entry := 0, member := 0, burst := .none, queue := [], faulted := [] }).setVal
    Obj.HK_STATE 0 h

/-- The polynomial of 04 R99 in binary32: `c i j` the coefficients, `x = xn / xd` (`xd` a power of two), `t` the
temperature. The spec gives no order of evaluation; `Config.f32Form` selects one (assumption log 8, DESIGN CHOICE). -/
def polyF32 (c : Nat → Nat → Nat) (xn : Int) (xlog : Nat) (t : Nat) : Nat :=
  let x := f32OfRat xn (2 ^ xlog)
  match Config.f32Form % 3 with
  | 0 =>
    -- exact sum, rounded once
    let term (i j : Nat) : Int :=
      f32Num (c i j) * xn ^ i * 2 ^ (xlog * (3 - i)) * f32Num t ^ j * 2 ^ (149 * (2 - j))
    let sum := (List.range 4).foldl (fun a i => (List.range 3).foldl (fun b j => b + term i j) a) 0
    f32OfRat sum (2 ^ (149 + 3 * xlog + 298))
  | 1 =>
    -- ascending sum of rounded products
    let pow (b : Nat) (n : Nat) : Nat := (List.range n).foldl (fun a _ => f32Mul a b) 0x3F800000
    (List.range 4).foldl (fun a i => (List.range 3).foldl (fun b j =>
      f32Add b (f32Mul (f32Mul (c i j) (pow x i)) (pow t j))) a) 0
  | _ =>
    -- Horner in x over Horner in t
    let a (i : Nat) : Nat := f32Add (f32Mul (f32Add (f32Mul (c i 2) t) (c i 1)) t) (c i 0)
    f32Add (f32Mul (f32Add (f32Mul (f32Add (f32Mul (a 3) x) (a 2)) x) (a 1)) x) (a 0)

/-- The `VALUE` of a source's latest result. -/
def State.hkValue (s : State) (h src : Nat) : Nat := leNat (slice (s.blob Obj.HK_RESULT h (src + 1)) 0 4)

/-- The generation of a source's latest result, 0 before the first (04 R100, R101). -/
def State.hkGen (s : State) (h src : Nat) : Nat := leNat (slice (s.blob Obj.HK_RESULT h (src + 1)) 6 2)

/-- The mean of conversions, ties away from zero (04 R98). -/
def hkMean (l : List Int) : Int := if l.isEmpty then 0 else divAway (l.foldl (· + ·) 0) l.length

/-- The local input's channel of a feed source. -/
def hkFeedCh (h src : Nat) : Nat := 32 * h + src

/-- Whether a feed is in one of the states of 04 R103. -/
def State.feedFaulted (s : State) (n : Nat) : Bool := decide (2 ≤ s.val Obj.FEED_STATE n)

/-- The members of an entry's source: a group's eight inputs, or the source itself (04 R93, R95). -/
def hkMembers (h src : Nat) : List Nat :=
  if hkIsGroup h src then (List.range 8).map fun i => 8 * (src - 0x20) + i else [src]

/-- The word of the running entry (04 R94). -/
def HkSt.word (x : HkSt) (h : Nat) : Nat := x.entryAt h x.entry

/-- Whether the running burst converts a source (04 R103). -/
def HkSt.converts (x : HkSt) (h src : Nat) : Bool :=
  match x.burst with
  | .none => false
  | .seq => (hkMembers h (x.word h % 256)).contains src
  | .urgent q _ => q == src

/-- A feed enters a state of 04 R103 while a burst converts its current: the results of that burst are tagged. -/
def State.hkFault (s : State) (h src : Nat) : State :=
  if (s.hk h).converts h src && !(s.hk h).faulted.contains src then s.setHk h fun x => { x with faulted := src :: x.faulted } else s

/-- The averaging count of an entry or urgent word (04 R94, R95). -/
def hkAvg (w : Nat) : Nat := 2 ^ (w / 2 ^ 19 % 16)

/-- The gain field of an entry or urgent word (04 R94). -/
def hkGain (w : Nat) : Nat := w / 2 ^ 16 % 8

/-- The members of the running entry that are still to be converted (04 R95, R102). -/
def HkSt.remaining (x : HkSt) (h : Nat) : List Nat := (hkMembers h (x.word h % 256)).drop x.member

/-- Publishes a member's result (04 R98-R101, R103, R105), with the over-temperature rule of 21 R495. -/
def State.hkPublish (s : State) (h src gain : Nat) (urgent : Bool) (codes : List Int) : State :=
  if hkIsFeed h src && s.val Obj.EXC_REMAINING (hkFeedCh h src) != 0 then
    s.inc Obj.HK_DISCARD_COUNT h
  else
    let raw := hkMean codes
    let clipped := codes.any fun c => c == -32768 || c == 32767
    let noT := s.hkGen h (hkCentre h) == 0
    let temp := hkIsTemp h src
    let t := if temp then 0 else if noT then 0x41C80000 else s.hkValue h (hkCentre h)
    let coeff (i j : Nat) : Nat := s.nat { Obj.HK_COEFF with idx := 0x2820 + 3 * i + j } h (src + 1)
    let y := polyF32 coeff raw (15 + gain) t
    let sh := s.nat Obj.HK_FILTER_SHIFT h (src + 1)
    let first := s.hkGen h src == 0 || smGet false (s.hk h).reseed src || sh == 0
    let old := smGet 0 (s.hk h).filt src
    let yf := if first then y else f32Add old (f32OfRat (f32Num (f32Sub y old)) (2 ^ (149 + sh)))
    let gen := (nextGen (s.hkGen h src)).toNat
    let fault := hkIsFeed h src && (s.feedFaulted (hkFeedCh h src) || (s.hk h).faulted.contains src)
    let flags := ofBits [fault, urgent, clipped, !temp && noT]
    let rec_ := leBytes 4 yf ++ leInt 2 raw ++ leBytes 2 gen ++ leBytes 2 flags ++ leBytes 6 s.tick
    let was : HkOld := { source := src, result := s.blob Obj.HK_RESULT h (src + 1), filt := old, reseed := smGet false (s.hk h).reseed src }
    let s := (s.setBlob Obj.HK_RESULT rec_ h (src + 1)).setHk h fun x =>
      { x with filt := smPut 0 x.filt src yf, reseed := smPut false x.reseed src false, olds := was :: x.olds }
    if h != 8 && src == 0x27 then
      if f32Lt (f32OfInt (s.val Obj.DIE_TEMP_LIMIT h)) yf then
        if smGet 0 s.cont.hot h ≥ 1 then
          ({ s with cont := { s.cont with hot := smPut 0 s.cont.hot h 0 } }).faultDie h 0x2013
        else { s with cont := { s.cont with hot := smPut 0 s.cont.hot h 1 } }
      else { s with cont := { s.cont with hot := smPut 0 s.cont.hot h 0 } }
    else s

/-- Publishes the members of a sequence burst from the member at which it stood. -/
def State.hkPublishSeq (s : State) (h : Nat) (codes : List (List Int)) : State :=
  (((s.hk h).remaining h).zip codes).foldl (fun t p => t.hkPublish h p.1 (hkGain ((s.hk h).word h)) false p.2) s

/-- The averaging of a group's member is complete before its burst ends: the result is published then (04 R95, R100). A burst ends with its
last member, by `HK_BURST_DONE`. -/
def State.hkMemberDone (s : State) (h : Nat) (codes : List Int) : State :=
  let x := s.hk h
  if s.hkRuns h && x.burst == .seq && decide (1 < (x.remaining h).length) && codes.length == hkAvg (x.word h) then
    (s.hkPublishSeq h [codes]).setHk h fun x => { x with member := x.member + 1 }
  else s

/-- The converter after a burst: it waits for a queued request, goes on with the pass, or idles (04 R96, R102). -/
def State.hkNext (s : State) (h : Nat) : State :=
  let x := s.hk h
  if !x.queue.isEmpty then s.setHk h fun x => { x with burst := .none, faulted := [] }
  else if x.passing then
    (s.setHk h fun x => { x with burst := .seq, faulted := [] }).setVal Obj.HK_STATE 2 h
  else (s.setHk h fun x => { x with burst := .none, faulted := [] }).setVal Obj.HK_STATE 1 h

/-- Takes back the results that a converter published in the tick that ends: the die's transfer of them failed (01 R19; assumption log 77,
DEDUCED). -/
def State.hkTakeBack (s : State) (h : Nat) : State :=
  let back (s : State) (o : HkOld) : State :=
    (s.setBlob Obj.HK_RESULT o.result h (o.source + 1)).setHk h fun x =>
      { x with filt := smPut 0 x.filt o.source o.filt, reseed := smPut false x.reseed o.source o.reseed }
  ((s.hk h).olds.foldl back s).setHk h fun x => { x with olds := [] }

/-- The results of a tick stand once it has ended. -/
def State.hkTickEnd (s : State) : State := { s with hks := smEach {} (fun _ (x : HkSt) => { x with olds := [] }) s.hks }

/-- Moves the pass to its next enabled entry, or ends it. -/
def State.hkAdvance (s : State) (h : Nat) : State :=
  match (s.hk h).nextEntry h ((s.hk h).entry + 1) with
  | some i => s.setHk h fun x => { x with entry := i, member := 0 }
  | none => s.setHk h fun x => { x with passing := false, entry := 0, member := 0, endOrd := s.clk.ord + 1 }

/-- A converter that runs again, or for the first time, is idle until its next scheduled boundary (04 R106, R107). -/
def State.hkWake (s : State) : State :=
  (List.range 9).foldl (fun s h => if s.hkRuns h && s.val Obj.HK_STATE h == 0 then s.setVal Obj.HK_STATE 1 h else s) s

/-- Queues an urgent request: merged with one for its source, `false` when the queue is full (04 R104). -/
def State.hkQueue (s : State) (h src : Nat) (fromDict : Bool) : Bool × State :=
  let x := s.hk h
  if x.queue.any fun q => q.source == src then
    let merge (q : Urgent) : Urgent := if q.source = src then { q with fromDict := q.fromDict || fromDict } else q
    (true, s.setHk h fun x => { x with queue := x.queue.map merge })
  else if x.queue.length ≥ 4 then (false, s)
  else (true, s.setHk h fun x => { x with queue := x.queue ++ [{ source := src, fromDict }] })

/-- A fault comparator's request (04 R102, R104). -/
def State.hkComparator (s : State) (h src : Nat) : State :=
  if !s.hkRuns h || !s.on Obj.HK_URGENT_ON_FAULT h then s else
    match s.hkQueue h src false with
    | (true, s) => s
    | (false, s) => s.inc Obj.HK_URGENT_DROP_COUNT h

/-- The effect of an accepted write of `HK_URGENT_REQUEST`: the request is queued (04 R102). A converter that does not run holds it until
it runs (assumption log 77, DEDUCED). -/
def State.writeHkUrgent (s : State) (h src : Nat) : State := (s.hkQueue h src true).2

/-- The effect of an accepted write of `HK_SEQ_COMMIT` (04 R97). -/
def State.writeHkCommit (s : State) (h : Nat) : State := s.setHk h fun x => { x with commit := x.commit + 1 }

/-- A pass starts at a boundary, once, or is skipped as an overrun; every commit since the last pass counts (04 R96, R97). With the period
0 it starts at a boundary after the one in whose tick the last pass ended. -/
def State.hkPassStart (s : State) (h : Nat) : State :=
  let p := s.nat Obj.HK_SEQ_PERIOD h
  if !s.hkRuns h || (s.hk h).startOrd == s.clk.ord + 1 then s
  else if p != 0 && s.tick % p != 0 then s
  else if p == 0 && ((s.hk h).passing || decide (s.clk.ord < (s.hk h).endOrd)) then s
  else
    let s := s.setHk h fun x => { x with startOrd := s.clk.ord + 1 }
    if (s.hk h).passing then s.inc Obj.HK_OVERRUN_COUNT h else
    let shadow := (List.range 16).map fun i => BitVec.ofNat 32 (s.nat Obj.HK_SEQ_ENTRY h (i + 1))
    let n := (s.hk h).commit
    let s := if 0 < n then
        (s.setHk h fun x => { x with commit := 0, seq := shadow, seqLen := s.nat Obj.HK_SEQ_LENGTH h }).inc Obj.HK_SEQ_GEN h (n := n)
      else s
    match (s.hk h).nextEntry h 0 with
    | none => if (s.hk h).burst = .none then s.setVal Obj.HK_STATE 1 h else s
    | some i =>
      let s := s.setHk h fun x => { x with passing := true, entry := i, member := 0 }
      if (s.hk h).burst = .none && (s.hk h).queue.isEmpty then
        (s.setHk h fun x => { x with burst := .seq, faulted := [] }).setVal Obj.HK_STATE 2 h
      else s

/-- A burst completes (04 R95, R98-R105). `codes` are the conversions of its members that were still to be published, each the
averaging count of the entry, or of `HK_URGENT_CFG`; a burst makes no other number of conversions. -/
def State.hkBurstDone (s : State) (h : Nat) (codes : List (List Int)) : State :=
  match (s.hk h).burst with
  | .none => s
  | .seq =>
    let x := s.hk h
    if codes.length == (x.remaining h).length && codes.all fun l => l.length == hkAvg (x.word h) then
      ((s.hkPublishSeq h codes).hkAdvance h).hkNext h
    else s
  | .urgent src fromDict =>
    let w := s.nat Obj.HK_URGENT_CFG h
    if codes.length != 1 || codes.any fun l => l.length != hkAvg w then s else
    let s := s.hkPublish h src (hkGain w) true (codes.headD [])
    let s := if fromDict then s.raise 0x2001 10 h (leBytes 1 src ++ leBytes 2 (s.hkGen h src)) else s
    s.hkNext h

/-- Whether the running burst may be aborted for a request: never by the fault of a feed it converts (04 R103). -/
def HkSt.mayAbort (x : HkSt) (h : Nat) (q : Urgent) : Bool :=
  q.fromDict || !(hkIsFeed h q.source && (hkMembers h (x.word h % 256)).contains q.source)

/-- A queued urgent request reaches the converter, where it runs (04 R102-R104, R106). `codes` are the conversions of the members that the
aborted burst had completed since the last that was published, fewer than it had left. -/
def State.hkUrgentStart (s : State) (h : Nat) (codes : List (List Int)) : State :=
  let x := s.hk h
  if !s.hkRuns h then s else
    match x.queue, x.burst with
    | [], _ => s
    | _ :: _, .urgent _ _ => s
    | q :: r, .none =>
      (s.setHk h fun x => { x with queue := r, burst := .urgent q.source q.fromDict, faulted := [] }).setVal Obj.HK_STATE 4 h
    | q :: r, .seq =>
      if !x.mayAbort h q || decide ((x.remaining h).length ≤ codes.length) || codes.any fun l => l.length != hkAvg (x.word h) then s else
        let s := (s.hkPublishSeq h codes).setHk h fun x => { x with
          queue := r, burst := .urgent q.source q.fromDict, faulted := [], member := x.member + codes.length }
        (s.inc Obj.HK_ABORT_COUNT h).setVal Obj.HK_STATE 4 h

/-- `HK_PASS_START` (04 R96). -/
def execHkPassStart (h : Hk) (s : State) : Out := .next (s.hkPassStart h)

/-- `HK_BURST_DONE` (04 R95). -/
def execHkBurstDone (h : Hk) (codes : List (List Int)) (s : State) : Out := .next (s.hkBurstDone h codes)

/-- `HK_URGENT_START` (04 R104). -/
def execHkUrgentStart (h : Hk) (codes : List (List Int)) (s : State) : Out := .next (s.hkUrgentStart h codes)

/-- `TEMPERATURE_COMPARATOR_TRIP` (04 R102). -/
def execTemperatureComparatorTrip (h : Hk) (s : State) : Out := .next (s.hkComparator h (hkCentre h))

end Sys2Proof.Machine
end

