-- ==== Sys2Proof/Machine/FrontEnd.lean ====
section
/-! DEFINITION. Inputs, ranging, clamps, blanking, feeds, injectors and settle windows (03). -/

namespace Sys2Proof.Machine

/-! ### Raw words (03 R61, R62) -/

/-- The range field of a raw word. -/
def rawRange (w : BitVec 12) : Nat := w.toNat / 1024

/-- The mantissa of a raw word. -/
def rawMant (w : BitVec 12) : Int := ofTwos 10 (w.toNat % 1024)

/-- Whether a raw word is the saturation sentinel. -/
def rawSat (w : BitVec 12) : Bool := w == 0xE00

/-- Whether a raw word is a clip of ranges 0-2 (03 R66). -/
def rawClip (w : BitVec 12) : Bool := decide (rawRange w < 3) && (rawMant w).natAbs == 511

/-! ### Blanking (03 R74-R77) -/

/-- A BLANK pin's state. -/
def State.pin (s : State) (p : Nat) : Pin := smGet {} s.pins p

/-- The state with a pin changed. -/
def State.setPin (s : State) (p : Nat) (f : Pin → Pin) : State := { s with pins := smUpd {} s.pins p f }

/-- The level of a pin, as it acts, at a sample of the current tick. -/
def Pin.at (p : Pin) (sample : Nat) : Bool := p.log.foldl (fun l t => if t.1 ≤ sample then t.2 else l) p.level

/-- Whether a pin is active at a sample: its level against `BLANK_POLARITY` (03 R74). -/
def State.pinActive (s : State) (p sample : Nat) : Bool :=
  ((s.pin p).at sample) != bitOf (s.nat Obj.BLANK_POLARITY) p

/-- Whether input `n` is blanked at a sample of the current tick (03 R74). -/
def State.blankedAt (s : State) (n sample : Nat) : Bool :=
  (List.range 4).any fun p => bitOf (s.nat Obj.BLANK_MASK n) p && s.pinActive p sample

/-- The sample count since reset at a sample of the current tick. -/
def State.absSample (s : State) (sample : Nat) : Nat := s.clk.ord * 4096 + sample

/-- A BLANK pin's edge is registered and takes effect 16 samples later (03 R74). An inactive edge that ends a pulse of
less than 2 samples leaves 0, 1 or 2 blanked samples, which is free (03 R75). Assumption log 36, DESIGN CHOICE. -/
def State.blankEdge (s : State) (p : Nat) (level : Bool) (sample width : Nat) : State :=
  let a := s.absSample sample + 16
  let active := level != bitOf (s.nat Obj.BLANK_POLARITY) p
  if !active && width < 2 then
    let (n, s) := s.free 3
    s.setPin p fun x =>
      let start := match x.wait.getLast? with | some w => w.1 | none => a - width
      let kept := x.wait.dropLast
      { x with wait := if n = 0 then kept else kept ++ [(start, !level), (start + n, level)] }
  else s.setPin p fun x => { x with wait := x.wait ++ [(a, level)] }

/-- The oldest registered edge of a pin takes effect, when its sample lies in the current tick or before it. -/
def State.blankApply (s : State) (p : Nat) : State :=
  match (s.pin p).wait with
  | [] => s
  | (a, l) :: r =>
    if a / 4096 > s.clk.ord then s else
      let at_ := if a / 4096 < s.clk.ord then 0 else a % 4096
      s.setPin p fun x => { x with wait := r, log := x.log ++ [(at_, l)] }

/-- The sample count after a pin's last active sample up to the end of the tick (10 R220). -/
def State.pinActiveTo (s : State) (p : Nat) : Nat :=
  if s.pinActive p 4095 then s.absSample 4096
  else
    let ends := (s.pin p).log.filter fun t => decide (0 < t.1) && s.pinActive p (t.1 - 1)
    let last := ends.foldl (fun a t => Nat.max a t.1) 0
    if 0 < last then s.absSample last else (s.pin p).activeTo

/-- The pins at a boundary: the level reached becomes the level of the new tick. -/
def State.pinsBoundary (s : State) : State :=
  { s with pins := smEach {} (fun k p => { p with level := p.at 4095, log := [], activeTo := s.pinActiveTo k }) s.pins }

/-- `BLANK_PIN_EDGE` (03 R74). -/
def execBlankPinEdge (p : Fin 4) (level : Bool) (sample : Fin 4096) (width : Nat) (s : State) : Out :=
  .next (s.blankEdge p level sample width)

/-- `BLANK_APPLY` (03 R74). -/
def execBlankApply (p : Fin 4) (s : State) : Out := .next (s.blankApply p)

/-! ### Ranging (03 R64-R70) -/

/-- The range an input's mode locks it to, if it does (03 R68). -/
def State.rangeLock (s : State) (n : Nat) : Option Nat :=
  let m := s.nat Obj.RANGE_MODE n
  if m = 0 then none else some (m - 1)

/-- Whether an input's converter runs: the mode runs the front ends and its die is neither set aside nor in reset. -/
def State.converterRuns (s : State) (n : Nat) : Bool :=
  Mode.frontEnd s.mode && !s.dieOff (n / 32) && !(s.cont.resetting.any fun e => e.1 == n / 32)

/-- A range that takes effect now: counted and marked `RNG` (03 R67). The release count starts again with the first sample converted
in it (03 R64). -/
def State.rangeTo (s : State) (n r sample : Nat) : State :=
  if (s.inp n).range = r then s.setInp n fun x => { x with pend := none } else
    let s := s.setInp n fun x => { x with range := r, pend := none, evalFrom := s.absSample sample,
                                          relFrom := s.absSample sample, relCount := 0 }
    (s.inc Obj.RANGE_CHANGE_COUNT n).mark n Flag.rng

/-- A decision at `sample`: the new range takes effect two samples later (03 R64). -/
def State.rangeDecide (s : State) (n r sample : Nat) : State :=
  if sample + 2 < 4096 then s.rangeTo n r (sample + 2)
  else s.setInp n fun x => { x with pend := some r, evalFrom := s.absSample (sample + 2),
                                    relFrom := s.absSample (sample + 2), relCount := 0 }

/-- An attack: the sample's word exceeds the threshold in a range below 3; it and the word after it count as attack clips
when they are ±511 and not blanked (03 R64-R66). -/
def State.rangeAttack (s : State) (n sample : Nat) (w nx : BitVec 12) : State :=
  let x := s.inp n
  if s.converterRuns n && (s.rangeLock n).isNone && x.pend.isNone && rawRange w == x.range && decide (x.range < 3)
      && decide ((rawMant w).natAbs > s.nat Obj.RANGE_ATTACK n) && decide (x.evalFrom ≤ s.absSample sample)
      && !s.blankedAt n sample then
    let here := if rawClip w then [s.absSample sample] else []
    let after := if rawClip nx && !s.blankedAt n (sample + 1) then [s.absSample (sample + 1)] else []
    let clips := here ++ after
    let s := s.inc Obj.ATTACK_CLIP_COUNT n (n := clips.length)
    (s.setInp n fun x => { x with clips := x.clips ++ clips }).rangeDecide n (x.range + 1) sample
  else s

/-- Whether a sample counts towards the release: neither `SAT` nor at or above the threshold (03 R64). -/
def relSmall (thr : Nat) (w : BitVec 12) : Bool := !rawSat w && decide ((rawMant w).natAbs < thr)

/-- The release count after a sample: a blanked one holds it, one that is not small sets it to zero (03 R64, R76). -/
def relStep (thr : Nat) (count : Nat) (w : BitVec 12) (blanked : Bool) : Nat :=
  if blanked then count else if relSmall thr w then count + 1 else 0

/-- The sample of the current tick from which the release count is still to go on: the first of the tick, or the first converted in
the present range. -/
def State.relStart (s : State) (n : Nat) : Nat := (s.inp n).relFrom - s.absSample 0

/-- The release count of an input over the words from `relStart` on (03 R64). -/
def State.relRun (s : State) (n : Nat) (words : List (BitVec 12)) : Nat :=
  ((List.range words.length).zip words).foldl
    (fun c p => relStep (s.nat Obj.RANGE_RELEASE n) c p.2 (s.blankedAt n (s.relStart n + p.1))) (s.inp n).relCount

/-- A release: the count of consecutive small samples reaches the hold (03 R64). `words` are the words of the current tick over which the
count goes on, that of the deciding sample last. A small sample is below every attack threshold (03 R69), so attack precedes
release (03 R65). -/
def State.rangeRelease (s : State) (n : Nat) (words : List (BitVec 12)) : State :=
  let x := s.inp n
  let sample := s.relStart n + words.length - 1
  let small := match words.getLast? with | some w => relSmall (s.nat Obj.RANGE_RELEASE n) w | none => false
  if s.converterRuns n && (s.rangeLock n).isNone && x.pend.isNone && decide (0 < x.range) && decide (x.evalFrom ≤ s.absSample sample)
      && decide (sample < 4096) && small && decide (s.nat Obj.RANGE_HOLD n ≤ s.relRun n words)
      && !s.blankedAt n sample then
    s.rangeDecide n (x.range - 1) sample
  else s

/-- The range controller after a reset that reaches the channel (03 R70), and the last linear value (05 R110). The converter's recovery
runs on in time (03 R63). The set to range 3 is no change that R67 counts; a lock that `RANGE_MODE` holds is applied at the
same boundary, as any lock is, and counts where it changes the range (assumption log 74, DESIGN CHOICE). -/
def State.rangeReset (s : State) (n : Nat) : State :=
  (s.setInp n fun x => { x with range := 3, pend := none, evalFrom := s.absSample 0, relFrom := s.absSample 0,
                                relCount := 0, lastLin := 0 }).setVal Obj.RANGE_NOW 3 n

/-- `RANGE_ATTACK` (03 R64). -/
def execRangeAttack (n : Ch) (sample : Fin 4096) (w nx : BitVec 12) (s : State) : Out :=
  .next (s.rangeAttack n sample w nx)

/-- `RANGE_RELEASE` (03 R64). -/
def execRangeRelease (n : Ch) (words : List (BitVec 12)) (s : State) : Out := .next (s.rangeRelease n words)

/-! ### Clamps (03 R71-R73) -/

/-- A cluster's state. -/
def State.cl (s : State) (c : Nat) : ClSt := smGet {} s.clusters c

/-- The state with a cluster changed. -/
def State.setCl (s : State) (c : Nat) (f : ClSt → ClSt) : State := { s with clusters := smUpd {} s.clusters c f }

/-- The four inputs of a cluster. -/
def clInputs (c : Nat) : List Nat := (List.range 4).map fun i => 4 * c + i

/-- A clamp episode begins: its sources are latched, `CLAMP` on the four inputs, a running `NBR` period ends (03 R71-R73). The tick
carries `NBR` where the period held a sample of it. -/
def State.clampBegin (s : State) (c sample : Nat) (sources : BitVec 4) : State :=
  if !Mode.frontEnd s.mode || s.on Obj.CLAMP_STATE c then s else
    let s := (s.setVal Obj.CLAMP_STATE 1 c).setCl c fun x => { x with begun := s.absSample sample, latched := sources }
    let s := s.setVal Obj.CLAMP_SOURCE ((s.nat Obj.CLAMP_SOURCE c ||| sources.toNat : Nat) : Int) c
    let runs (n : Nat) : Bool := decide (0 < sample) && decide (s.clk.ord * 4096 < (s.inp n).nbrTo)
    (clInputs c).foldl (fun s n => (s.mark n (Flag.clamp ||| Flag.when (runs n) Flag.nbr)).setInp n fun x => { x with nbrTo := 0 }) s

/-- A clamp episode ends: the sources that joined it since its first sample are latched, all are reported, and the other inputs carry
`NBR` for 256 samples (03 R71-R73). A latch cleared during the episode stays clear (assumption log 74, DESIGN CHOICE). -/
def State.clampEnd (s : State) (c sample : Nat) (sources : BitVec 4) : State :=
  if !s.on Obj.CLAMP_STATE c then s else
    let s := s.setVal Obj.CLAMP_STATE 0 c
    let joined := sources &&& ~~~(s.cl c).latched
    let s := s.setVal Obj.CLAMP_SOURCE ((s.nat Obj.CLAMP_SOURCE c ||| joined.toNat : Nat) : Int) c
    let s := s.inc Obj.CLAMP_COUNT c
    let len := s.absSample sample - (s.cl c).begun
    let s := s.raise 0x1001 2 c (leInt 1 (s.val Obj.CLAMP_SOURCE c) ++ leBytes 4 len)
    let step (s : State) (n : Nat) : State :=
      let s := if sample > 0 then s.mark n Flag.clamp else s
      if sources.toNat.testBit (n % 4) then s
      else (s.mark n Flag.nbr).setInp n fun x => { x with nbrTo := s.absSample sample + 256 }
    (clInputs c).foldl step s

/-- The `NBR` period of a cluster ends (03 R73). -/
def State.nbrEnd (s : State) (c : Nat) : State :=
  let step (s : State) (n : Nat) : State :=
    let e := (s.inp n).nbrTo
    if e = 0 ∨ (s.clk.ord + 1) * 4096 < e then s else
      let s := if s.clk.ord * 4096 < e then s.mark n Flag.nbr else s
      s.setInp n fun x => { x with nbrTo := 0 }
  (clInputs c).foldl step s

/-- The effect of an accepted write of `CLAMP_SOURCE`: a 1 clears its latch (03 R72). -/
def State.writeClampSource (s : State) (c bits : Nat) : State :=
  s.setVal Obj.CLAMP_SOURCE (ofBits ((List.range 4).map fun i => bitOf (s.nat Obj.CLAMP_SOURCE c) i && !bitOf bits i) : Nat) c

/-- `CLAMP_EPISODE_BEGIN` (03 R71). -/
def execClampEpisodeBegin (c : Cl) (sample : Fin 4096) (sources : BitVec 4) (s : State) : Out :=
  .next (s.clampBegin c sample sources)

/-- `CLAMP_EPISODE_END` (03 R71). -/
def execClampEpisodeEnd (c : Cl) (sample : Fin 4096) (sources : BitVec 4) (s : State) : Out :=
  .next (s.clampEnd c sample sources)

/-- `NBR_PERIOD_END` (03 R73). -/
def execNbrPeriodEnd (c : Cl) (s : State) : Out := .next (s.nbrEnd c)

/-! ### Settle windows (03 R88, R89) -/

/-- Opens, or restarts, the settle window of an input: the current tick carries `EXC`, and the first conversion of the feed's current
after the window reseeds its filter (03 R88, R89; 04 R105). -/
def State.openExc (s : State) (n : Nat) : State :=
  ((s.setVal Obj.EXC_REMAINING (s.val Obj.EXC_SETTLE n) n).mark n Flag.exc).setHk (n / 32) fun x =>
    { x with reseed := smPut false x.reseed (n % 32) true }

/-- `EXC_WINDOW_END`: the window's last tick is over (03 R89). -/
def execExcWindowEnd (n : Ch) (s : State) : Out :=
  .next (if s.val Obj.EXC_REMAINING n ≤ 1 then s.setVal Obj.EXC_REMAINING 0 n else s)

/-! ### Feeds (03 R78-R85, R537) -/

/-- `FEED_STATE` values (03 R92). -/
def feedOFF : Int := 0
/-- `ON`. -/
def feedON : Int := 1
/-- `OPEN`. -/
def feedOPEN : Int := 2
/-- `LIMIT`. -/
def feedLIMIT : Int := 3
/-- `LATCHED`. -/
def feedLATCHED : Int := 4
/-- `RAIL_LOW`. -/
def feedRAILLOW : Int := 5

/-- Whether a feed's tick carries `FEED` for its present state (03 R82). -/
def State.feedFlagged (s : State) (n : Nat) : Bool :=
  let st := s.val Obj.FEED_STATE n
  st == feedOPEN || st == feedLATCHED || st == feedRAILLOW || (st == feedLIMIT && decide (4 ≤ (s.inp n).limitRun))

/-- A feed moves to a state: the runs start again, an unflagged limit period that ends is counted (03 R84), and a housekeeping burst that
converts its current is tagged where the state is a fault (04 R103). -/
def State.feedMove (s : State) (n : Nat) (st : Int) : State :=
  let old := s.val Obj.FEED_STATE n
  if old = st then s else
    let run := (s.inp n).limitRun
    let s := if old = feedLIMIT && decide (0 < run) && decide (run < 4) then s.inc Obj.FEED_LIMIT_COUNT n else s
    let s := if feedOPEN ≤ st then s.hkFault (n / 32) (n % 32) else s
    (s.setInp n fun x => { x with openRun := 0, normRun := 0, limitRun := if st = feedLIMIT then x.limitRun else 0,
                                  foldedBack := x.foldedBack && st == feedLIMIT }).setVal Obj.FEED_STATE st n

/-- A feed moves to a state within a tick: the tick carries `FEED` when part of it was spent in a flagged state (03 R82). -/
def State.feedTo (s : State) (n : Nat) (st : Int) : State :=
  (if s.feedFlagged n then s.mark n Flag.feed else s).feedMove n st

/-- A feed fault: counted and reported (03 R82). -/
def State.feedFault (s : State) (n : Nat) : State :=
  (s.inc Obj.FEED_FAULT_COUNT n).raise 0x1002 1 n (leInt 1 (s.val Obj.FEED_STATE n))

/-- The condition word of an input and tick in the slot map takes bits, where its slot is held and the tick written (11 R250; 03 R82). -/
def State.slotMark (s : State) (n i : Nat) (c : Cond) : State :=
  let t := (s.infoAt i).tick
  match s.hist.slots.find? (fun x => x.j == t / 64 && decide (x.first ≤ t)) with
  | none => s
  | some x =>
    if !x.inputs.contains n then s else
      let k := 256 * (t % 64) + n
      { s with hist := { s.hist with slots := s.hist.slots.map fun y =>
          if y.run = x.run ∧ y.j = x.j then { y with condOr := y.condOr ||| c, conds := smUpd 0 y.conds k fun v => v ||| c } else y } }

/-- Marks `FEED` at a detection: the tick itself, and the 4 ticks counted towards it after a normal period; those already written to
the history are marked in their slots at once (03 R82; 11 R250). -/
def State.feedMark (s : State) (n : Nat) : State :=
  let before := Flag.any (s.condAt n 0 ||| s.condAt n 1) Flag.feed
  if before then s.mark n Flag.feed
  else
    let s := (((s.mark n Flag.feed 0).mark n Flag.feed 1).mark n Flag.feed 2).mark n Flag.feed 3
    if s.hist.slots.isEmpty then s else (s.slotMark n 2 Flag.feed).slotMark n 3 Flag.feed

/-- Whether a feed passes current (03 R78). -/
def feedPassing (st : Int) : Bool := st == feedON || st == feedOPEN || st == feedLIMIT

/-- The comparator request of a feed (04 R102). -/
def State.feedRequest (s : State) (n : Nat) : State := s.hkComparator (n / 32) (n % 32)

/-- A feed latches off (03 R80, R82, R88). -/
def State.feedLatch (s : State) (n : Nat) : State :=
  let s := (s.feedMark n).feedTo n feedLATCHED
  ((s.feedFault n).openExc n).feedRequest n

/-- What the window comparator of a feed reads (03 R79). -/
inductive FeedReading where
  | normal | open_ | atLimit
deriving DecidableEq, Repr

/-- The reading for a current in µA that the load draws, before any fold-back: at the limit from `FEED_LIMIT` on, open below
`FEED_OPEN_LIMIT` (03 R78, R80). -/
def State.feedReading (s : State) (n microamps : Nat) : FeedReading :=
  if 1000 * s.nat Obj.FEED_LIMIT n ≤ microamps then .atLimit
  else if microamps < 1000 * s.nat Obj.FEED_OPEN_LIMIT n then .open_
  else .normal

/-- The comparator of an enabled feed at sample 2,048 of a tick (03 R79-R84). -/
def State.feedSample (s : State) (n microamps : Nat) : State :=
  let st := s.val Obj.FEED_STATE n
  if !Mode.feeds s.mode || !feedPassing st || !s.inService n then s else
    match s.feedReading n microamps with
    | .atLimit =>
      let s := if st = feedLIMIT then s else (s.feedTo n feedLIMIT).feedRequest n
      let s := s.setInp n fun x => { x with limitRun := x.limitRun + 1 }
      let run := (s.inp n).limitRun
      let s := if run = 4 then (s.feedMark n).feedFault n else s
      if run ≥ 25 then s.feedLatch n else s
    | reading =>
      let s := if st = feedLIMIT then s.feedTo n feedON else s
      if s.val Obj.FEED_STATE n = feedON then
        let s := s.setInp n fun x => { x with openRun := if reading = .open_ then x.openRun + 1 else 0 }
        if (s.inp n).openRun ≥ 4 then (((s.feedMark n).feedTo n feedOPEN).feedFault n).feedRequest n else s
      else
        let s := s.setInp n fun x => { x with normRun := if reading = .normal then x.normRun + 1 else 0 }
        if (s.inp n).normRun ≥ 4 then s.feedTo n feedON else s

/-- Switches a feed on: `RAIL_LOW` while the rail is low, `ON` otherwise (03 R81, R85). -/
def State.feedOn (s : State) (n : Nat) : State :=
  s.feedMove n (if s.on Obj.VFEED_LOW (n / 32) then feedRAILLOW else feedON)

/-- Whether a feed is latched off: in `LATCHED`, or in `RAIL_LOW` with its latch kept (03 R80). -/
def State.feedLatched (s : State) (n : Nat) : Bool :=
  s.val Obj.FEED_STATE n == feedLATCHED || (s.val Obj.FEED_STATE n == feedRAILLOW && (s.inp n).latched)

/-- A feed's kept latch is set or let go. -/
def State.keepLatch (s : State) (n : Nat) (b : Bool) : State := s.setInp n fun x => { x with latched := b }

/-- `FEED_ENABLE` takes effect at the boundary (03 R80, R81, R85, R88, R90): the window opens on a change, and on the release
of a latch; a feed is in `RAIL_LOW` while its rail is low. -/
def State.applyFeedEnable (s : State) (n : Nat) (v : Int) : State :=
  let changed := s.val Obj.FEED_ENABLE n != v
  let st := s.val Obj.FEED_STATE n
  let s := s.setVal Obj.FEED_ENABLE v n
  if v = 0 then
    let s := (s.feedMove n feedOFF).keepLatch n false
    if changed then s.openExc n else s
  else if s.feedLatched n then ((s.keepLatch n false).feedOn n).openExc n
  else
    let s := if st = feedOFF && (s.inp n).aside.isNone then s.feedOn n else s
    if changed then s.openExc n else s

/-- `FEED_LIMIT` takes effect at the boundary (03 R88, R90). -/
def State.applyFeedLimit (s : State) (n : Nat) (v : Int) : State :=
  if s.val Obj.FEED_LIMIT n = v then s else (s.setVal Obj.FEED_LIMIT v n).openExc n

/-- `VFEED` of a die falls below 4.5 V (03 R81, R82, R85). In HALT the feeds keep their last state (20 R480). A latched feed goes to
`RAIL_LOW` by R81 and keeps its latch, which only a write of 1 or a reset releases by R80 (assumption log 75, DEDUCED). A feed that an isolated
die's policy `HOLD` keeps on follows the rail too (assumption log 75, DEDUCED). -/
def State.vfeedLowSet (s : State) (d : Nat) : State :=
  if s.on Obj.VFEED_LOW d then s else
    let s := s.setVal Obj.VFEED_LOW 1 d
    let step (s : State) (n : Nat) : State :=
      let latched := s.feedLatched n
      if s.val Obj.FEED_STATE n != feedOFF && s.mode != Mode.HALT then
        ((s.feedTo n feedRAILLOW).mark n Flag.feed).keepLatch n latched
      else s
    ((List.range 32).foldl (fun s i => step s (32 * d + i)) s).hkComparator d 0x24

/-- A feed enters `LATCHED` again with its latch kept: an entry that R82 counts and reports, and that requests its current (04 R102). -/
def State.feedRelatch (s : State) (n : Nat) : State :=
  (((s.keepLatch n false).feedMove n feedLATCHED).feedFault n).feedRequest n

/-- `VFEED` of a die rises above 4.75 V (03 R81, R85, R88): a feed whose latch was kept returns to `LATCHED` (03 R80; assumption log 75,
DEDUCED), any other enabled one goes `ON`. -/
def State.vfeedLowClear (s : State) (d : Nat) : State :=
  if !s.on Obj.VFEED_LOW d then s else
    let s := s.setVal Obj.VFEED_LOW 0 d
    let step (s : State) (n : Nat) : State :=
      if s.val Obj.FEED_STATE n == feedRAILLOW && s.on Obj.FEED_ENABLE n && s.mode != Mode.HALT then
        (if (s.inp n).latched then (s.mark n Flag.feed).feedRelatch n else s.feedTo n feedON).openExc n
      else s
    (List.range 32).foldl (fun s i => step s (32 * d + i)) s

/-- A feed whose input is set aside: switched off under policy `OFF`, its latch remembered, with a window where it leaves `RAIL_LOW`
(03 R88); kept under `HOLD` (01 R17, 03 R537). The policy is read when the input leaves service, and a later change of it moves
no feed already set aside (assumption log 75, DEDUCED). -/
def State.feedAside (s : State) (n : Nat) : State :=
  if s.val Obj.ISOLATED_FEED_POLICY != 0 then s else
    let low := s.val Obj.FEED_STATE n == feedRAILLOW
    let was := if s.feedLatched n then feedLATCHED else s.val Obj.FEED_STATE n
    let s := ((s.setInp n fun x => { x with aside := some was.toNat, latched := false }).feedMove n feedOFF)
    if low then s.openExc n else s

/-- A feed whose input returns to service (03 R537, R88): a return to `LATCHED` is an entry that R82 counts and reports. -/
def State.feedReturn (s : State) (n : Nat) : State :=
  match (s.inp n).aside with
  | none => s
  | some st =>
    let s := s.setInp n fun x => { x with aside := none }
    if (st : Int) = feedLATCHED then s.feedRelatch n
    else if s.on Obj.FEED_ENABLE n then (s.feedOn n).openExc n
    else s

/-- Every feed off (20 R473, 03 R81). -/
def State.feedsOff (s : State) : State :=
  (List.range 256).foldl (fun s n => if s.val Obj.FEED_STATE n = feedOFF then s else (s.feedTo n feedOFF).keepLatch n false) s

/-- `FEED_COMPARATOR_SAMPLE` (03 R79). -/
def execFeedComparatorSample (n : Ch) (microamps : Nat) (s : State) : Out := .next (s.feedSample n microamps)

/-- `FEED_FOLD_BACK` (03 R80): the switch of a feed that passes current, and whose load draws the limit, folds it back to 25 % of
the limit. -/
def execFeedFoldBack (current : FeedCurrent) (s : State) : Out :=
  let n := current.input
  .next (if feedPassing (s.val Obj.FEED_STATE n) && s.feedReading n current.microamps == .atLimit then
    s.setInp n fun x => { x with foldedBack := true } else s)

/-- `VFEED_LOW_SET` (03 R85). -/
def execVfeedLowSet (d : Rd) (s : State) : Out := .next (s.vfeedLowSet d)

/-- `VFEED_LOW_CLEAR` (03 R85). -/
def execVfeedLowClear (d : Rd) (s : State) : Out := .next (s.vfeedLowClear d)

/-! ### Injectors (03 R86-R88) -/

/-- The pseudo-noise generator of a cluster restarts from its seed (03 R86, R91). -/
def State.prbsRestart (s : State) (c : Nat) : State :=
  s.setCl c fun x => { x with prbs := BitVec.ofNat 15 (s.nat Obj.INJ_PN_SEED c) }

/-- One step of the PRBS-15 sequence of x¹⁵ + x¹⁴ + 1 (03 R86). -/
def prbsStep (v : BitVec 15) : BitVec 15 :=
  let b := (v.toNat / 16384 % 2) ^^^ (v.toNat / 8192 % 2)
  BitVec.ofNat 15 (v.toNat * 2 + b)

/-- The generator after `n` samples. -/
def prbsRun : Nat → BitVec 15 → BitVec 15
  | 0, v => v
  | n + 1, v => prbsRun n (prbsStep v)

/-- What an injector sends at a sample of the current tick, as a signed count of its level `INJ_LEVEL`: a chip of the pseudo-noise sequence,
or an impulse every 4,096 ÷ N samples from sample 0 on, N being `INJ_COMB_SPACING` (03 R86). -/
def State.injChip (s : State) (c sample : Nat) : Int :=
  if s.val Obj.INJ_MODE c = 1 then (if (prbsRun sample (s.cl c).prbs).toNat / 16384 = 1 then 1 else -1)
  else if s.val Obj.INJ_MODE c = 2 then (if sample % (4096 / s.nat Obj.INJ_COMB_SPACING c) = 0 then 1 else 0)
  else 0

/-- An injector setting takes effect at the boundary: a change opens the window on the inputs of the old and new masks
(03 R88); the pseudo-noise mode begins from the seed in force, also between two multiples of 250,000 ticks, where R86 says nothing
(assumption log 76, DESIGN CHOICE). -/
def State.applyInjector (s : State) (o : ObjDef) (c : Nat) (v : Int) : State :=
  if s.val o c = v then s else
    let old := s.nat Obj.INJ_MASK c
    let s := s.setVal o v c
    let s := if o.idx = Obj.INJ_MODE.idx ∧ v = 1 then s.prbsRestart c else s
    let m := old ||| s.nat Obj.INJ_MASK c
    (List.range 4).foldl (fun s i => if bitOf m i then s.openExc (4 * c + i) else s) s

end Sys2Proof.Machine
end

