-- ==== Sys2Proof/Machine/Tables.lean ====
section
/-! DEFINITION. Table swaps (02 R37-R43, R535). A table instance is `(id, element)`; its objects' values in `vals` and
`blobs` are the shadow, those in `live` the live copy, and `retired` holds the copies that swaps retired, newest first. -/

namespace Sys2Proof.Machine

/-- The scope kind of a table (02 R37): 3 regions, 7 banks, 0 the module. -/
def tabKind (id : Nat) : Nat :=
  match id with
  | 0 | 1 | 2 | 7 | 9 => 3
  | 3 | 4 | 5 => 7
  | _ => 0

/-- How many instances a table has. -/
def tabCount (id : Nat) : Nat := if tabKind id = 0 then 1 else 16

/-- The key of a table instance. -/
def tabKey (id e : Nat) : Nat := id * 256 + e

/-- The table and element to which an object index and element belong as shadow contents (02 R37 and the tables' own
chapters), if any. -/
def shadowOf (idx e : Nat) : Option (Nat × Nat) :=
  if idx = 0x3010 then some (1, e)
  else if idx = 0x3040 ∨ idx = 0x3041 then some (2, e / 16)
  else if 0x4000 ≤ idx ∧ idx ≤ 0x4009 then some (3, e)
  else if idx = 0x4800 ∨ idx = 0x4801 then some (4, e)
  else if idx = 0x4803 then some (5, e)
  else if 0x4805 ≤ idx ∧ idx ≤ 0x4808 then some (6, 0)
  else if idx = 0x6010 then some (7, e)
  else if idx = 0x6020 then some (8, 0)
  else if 0x6021 ≤ idx ∧ idx ≤ 0x6028 then some (8, 0)
  else if idx = 0x7000 then some (9, e)
  else if 0x6810 ≤ idx ∧ idx ≤ 0x6812 then some (10, 0)
  else if 0x4810 ≤ idx ∧ idx ≤ 0x4812 then some (11, 0)
  else if 0x9040 ≤ idx ∧ idx ≤ 0x9044 then some (11, 0)
  else none

/-- The table and element whose expected check value an object index holds. -/
def crcObjOf (idx e : Nat) : Option (Nat × Nat) :=
  match idx with
  | 0x3011 => some (1, e)
  | 0x3042 => some (2, e)
  | 0x4802 => some (4, e)
  | 0x4804 => some (5, e)
  | 0x4809 => some (6, 0)
  | 0x6011 => some (7, e)
  | 0x6029 => some (8, 0)
  | 0x7001 => some (9, e)
  | 0x6813 => some (10, 0)
  | 0x9045 => some (11, 0)
  | _ => none

/-- Whether a table's commit needs a check value (02 R39). -/
def tabHasCrc (id : Nat) : Bool := id != 0 && id != 3

/-- A table instance's state. -/
def State.tab (s : State) (id e : Nat) : TabSt := smGet {} s.tabs (tabKey id e)

/-- The state with a table instance changed. -/
def State.setTab (s : State) (id e : Nat) (f : TabSt → TabSt) : State := { s with tabs := smUpd {} s.tabs (tabKey id e) f }

/-- `TABLE_SWAP_STATE` of an instance: 0 `IDLE`, 1 `PENDING`, 2 `DEFERRED`, 3 `RETIRING`. -/
def State.tabState (s : State) (id e : Nat) : Int := s.val Obj.TABLE_SWAP_STATE e (id + 1)

/-- The state with an instance's `TABLE_SWAP_STATE` set. -/
def State.setTabState (s : State) (id e : Nat) (v : Int) : State := s.setVal Obj.TABLE_SWAP_STATE v e (id + 1)

/-- Whether a swap of an instance is requested and not made. -/
def State.tabPending (s : State) (id e : Nat) : Bool := s.tabState id e == 1 || s.tabState id e == 2

/-- Whether the boundaries since the last swap are fewer than four (02 R42). -/
def State.tabRetiring (s : State) (id e : Nat) : Bool :=
  match (s.tab id e).swapOrd with
  | none => false
  | some o => decide (s.clk.ord < o + 4)

/-- Whether a shadow refuses writes: from the commit until four ticks after its swap boundary (02 R42). -/
def State.shadowBusy (s : State) (id e : Nat) : Bool := s.tabPending id e || s.tabRetiring id e

/-- A key filter: the keys that are contents of an instance. -/
def isContent (id e k : Nat) : Bool := shadowOf (keyIdx k) (keyElem k) == some (id, e)

/-- The retired copy of an instance that finishes the data of a sampling tick, by its `ord`: the one retired at the first swap
after it; none where the live copy does (02 R38). -/
def State.retiredFor (s : State) (id e ord : Nat) : Option RetiredCopy :=
  (s.retired.filter fun c => c.tab == tabKey id e && decide (ord < c.ord)).getLast?

/-- The value of a table's object for the data of a sampling tick (02 R38). -/
def State.tabVal (s : State) (o : ObjDef) (ord : Nat) (e : Nat := 0) (sub : Nat := o.subLo) : Int :=
  match shadowOf o.idx e with
  | some (id, te) =>
    let c := match s.retiredFor id te ord with | some c => c.vals | none => s.live
    smGet (dfltVal o e sub) c (key o e sub)
  | none => s.val o e sub

/-- The same as a natural number. -/
def State.tabNat (s : State) (o : ObjDef) (ord : Nat) (e : Nat := 0) (sub : Nat := o.subLo) : Nat := (s.tabVal o ord e sub).toNat

/-- The bytes of a table's BLOB for the data of a sampling tick. -/
def State.tabBlob (s : State) (o : ObjDef) (ord : Nat) (e : Nat := 0) (sub : Nat := o.subLo) : List Byte :=
  match shadowOf o.idx e with
  | some (id, te) =>
    let c := match s.retiredFor id te ord with | some c => c.blobs | none => s.liveBlobs
    smGet (dfltBlob o) c (key o e sub)
  | none => s.blob o e sub

/-! ### Poisoned words of live tables (18 R423, R432) -/

/-- The tables whose live copies lie in reader-die SRAM, with the words of an instance (18 R423): for each input of a region 16 linearizer
coefficients, and 2,048 gains and a shift; 32,768 taps of a window, two in a word; 256 taps of the trigger filters, two in a word;
a dynamic code set. -/
def dieTables : List (Nat × Nat) := [(0, 256), (1, 16384), (2, 32784), (7, 128), (9, 35)]

/-- The table, element and word that a granule of a reader die's SRAM holds, if it holds one (18 R423; assumption log 28, DESIGN CHOICE). -/
def dieWord (d g : Nat) : Option (Nat × Nat × Nat) :=
  let v := Config.dieWord d g
  (dieTables[v % 6]?).map fun t => (t.1, 2 * d + v / 6 % 2, v / 12 % t.2)

/-- The table word at an address, if it is one of a live table. -/
def wordAt (a : Nat) : Option (Nat × Nat × Nat) :=
  if a < spaceBase 5 ∨ spaceBase 13 ≤ a then none else dieWord (a / 2 ^ 40 - 5) (a % 2 ^ 40 / 4)

/-- The words of an instance's live copy that are poisoned: each is taken as zero until the next swap (18 R432). -/
def State.badWords (s : State) (id e : Nat) : List Nat :=
  s.poison.filterMap fun c => match wordAt c.1 with
    | some w => if w.1 = id ∧ w.2.1 = e then some w.2.2 else none
    | none => none

/-- The words from `base` to below `base + n` of an instance's live copy that are poisoned, counted from `base`; none for the data of a
sampling tick that a retired copy finishes. -/
def State.holesAt (s : State) (id e base n ord : Nat) : List Nat :=
  if s.poison.isEmpty || (s.retiredFor id e ord).isSome then []
  else (s.badWords id e).filterMap fun w => if base ≤ w ∧ w < base + n then some (w - base) else none

/-- Bytes with the four-byte words `ws` taken as zero. -/
def holed (ws : List Nat) (l : List Byte) : List Byte :=
  if ws.isEmpty then l else ((List.range l.length).zip l).map fun p => if ws.contains (p.1 / 4) then 0 else p.2

/-- Whether a table instance was deferred in a sampling tick (02 R40). -/
def State.staleAt (s : State) (id e ord : Nat) : Bool := (s.tab id e).stale.contains ord

/-! ### Groups (02 R41, R535) -/

/-- Every table instance. -/
def allTabs : List (Nat × Nat) := (List.range 12).flatMap fun id => (List.range (tabCount id)).map fun e => (id, e)

/-- The instances that `SWAP_GROUP` of an instance names (02 R535). -/
def State.tabNames (s : State) (id e : Nat) : List (Nat × Nat) :=
  let m := s.nat Obj.SWAP_GROUP e (id + 1)
  (List.range 12).flatMap fun j =>
    if j = 0 ∨ j = id ∨ !bitOf m j then []
    else if tabKind j = tabKind id then [(j, e)]
    else if tabKind j = 0 then [(j, 0)]
    else if tabKind id = 0 then (List.range 16).map fun k => (j, k)
    else []

/-- The pairs of instances that a naming joins. -/
def State.tabLinks (s : State) : List ((Nat × Nat) × (Nat × Nat)) :=
  allTabs.flatMap fun t => (s.tabNames t.1 t.2).map fun u => (t, u)

/-- A set of instances closed under the links, by `fuel` rounds. -/
def closeGroup (links : List ((Nat × Nat) × (Nat × Nat))) : Nat → List (Nat × Nat) → List (Nat × Nat)
  | 0, g => g
  | n + 1, g =>
    let more := links.filterMap fun l =>
      if g.contains l.1 && !g.contains l.2 then some l.2
      else if g.contains l.2 && !g.contains l.1 then some l.1 else none
    if more.isEmpty then g else closeGroup links n (g ++ more.eraseDups)

/-- The groups of the instances `pend`, each once: a group whose swap is deferred keeps its members, and the others are formed from
the namings in force among the instances that no such group holds (02 R535; assumption log 40, DESIGN CHOICE). -/
def State.tabGroups (s : State) (pend : List (Nat × Nat)) : List (List (Nat × Nat)) :=
  let add (acc : List (List (Nat × Nat))) (g : List (Nat × Nat)) : List (List (Nat × Nat)) :=
    if acc.any (fun h => h.any fun t => g.contains t) then acc else acc ++ [g]
  let kept := ((pend.map fun t => (s.tab t.1 t.2).group).filter fun g => !g.isEmpty).map fun g => g.map fun k => (k / 256, k % 256)
  let kept := kept.foldl add []
  let free (t : Nat × Nat) : Bool := !kept.any fun g => g.contains t
  let links := s.tabLinks.filter fun l => free l.1 && free l.2
  ((pend.filter free).map fun t => closeGroup links 132 [t]).foldl add kept

/-! ### Swaps -/

/-- Whether an instance is ready for the boundary of the current tick (02 R39). -/
def State.tabDue (s : State) (t : Nat × Nat) : Bool :=
  let x := s.tab t.1 t.2
  s.tabPending t.1 t.2 && x.ready && !x.late && (x.target == 0 || decide (x.target ≤ s.tick))

/-- Makes an instance's shadow live, the old copy retired, and the generation one higher (02 R38, R42); its words are written whole, so
their poison marks go (18 R428, R432). Copies that no data in the
pipeline or its delay lines can need are let go; those of table 9 stay, since blocks in the history are decoded with them (12 R278). -/
def State.swapCopies (s : State) (id e : Nat) : State :=
  let p := isContent id e
  let old : RetiredCopy := { tab := tabKey id e, ord := s.clk.ord, vals := smKeep p s.live, blobs := smKeep p s.liveBlobs }
  let s := { s with retired := old :: s.retired.filter fun c => c.tab / 256 == 9 || decide (s.clk.ord < c.ord + 32) }
  let s := { s with live := smCopy p s.vals s.live, liveBlobs := smCopy p s.blobs s.liveBlobs }
  let mine (a : Nat) : Bool := match wordAt a with | some w => w.1 == id && w.2.1 == e | none => false
  let s := if s.poison.isEmpty then s else { s with poison := s.poison.filter fun c => !mine c.1 }
  let s := s.setTab id e fun x => { x with target := 0, ready := false, late := false, deferRun := 0,
                                           swapOrd := some s.clk.ord, crc := none, group := [] }
  (s.setTabState id e 3).inc Obj.TABLE_GEN e (id + 1)

/-- Defers an instance of a group at this boundary (02 R40, R41). -/
def State.deferTab (s : State) (grp : List (Nat × Nat)) (t : Nat × Nat) : State :=
  let s := s.inc Obj.SWAP_DEFER_COUNT t.2 (t.1 + 1)
  let pend := s.tabPending t.1 t.2
  let s := s.setTab t.1 t.2 fun x => { x with
    stale := (s.clk.ord :: x.stale).take 64
    deferRun := if pend then x.deferRun + 1 else x.deferRun
    group := if pend then grp.map fun g => tabKey g.1 g.2 else x.group }
  if pend then s.setTabState t.1 t.2 2 else s

/-- What a boundary does with table swaps: the instances to swap, and those deferred with their groups (02 R38-R41). Assumption log 40, DESIGN CHOICE. -/
def State.planSwaps (s : State) : List (Nat × Nat) × List (List (Nat × Nat)) :=
  let pend := allTabs.filter fun t => s.tabPending t.1 t.2
  if pend.isEmpty then ([], []) else
    let groups := s.tabGroups pend
    let ready := groups.filter fun g => g.all s.tabDue
    let named (t : Nat × Nat) : Bool :=
      s.tabPending t.1 t.2 && decide (0 < (s.tab t.1 t.2).target) && decide ((s.tab t.1 t.2).target ≤ s.tick)
    let waits := groups.filter fun g => !g.all s.tabDue && g.any named
    (ready.flatten, waits)

/-- Bookkeeping after the swaps of a boundary: commits recorded after the cut-off become ready for the next one, and
retired copies older than four ticks are let go (02 R39, R42). -/
def State.tabsSettle (s : State) : State :=
  let s : State := { s with tabs := smEach {} (fun _ t => { t with late := false }) s.tabs }
  let settle (s : State) (t : Nat × TabSt) : State :=
    let id := t.1 / 256
    let e := t.1 % 256
    if s.tabState id e = 3 && !s.tabRetiring id e then s.setTabState id e 0 else s
  s.tabs.foldl settle s

/-- Discards an instance's shadow: its contents are those of the live copy again (02 R40). -/
def State.discardShadow (s : State) (id e : Nat) : State :=
  let p := isContent id e
  { s with vals := smCopy p s.live s.vals, blobs := smCopy p s.liveBlobs s.blobs }

/-- Cancels the swap of one instance (02 R40): a recoverable fault, with event `TABLE_SWAP_FAILED`. -/
def State.cancelTab (s : State) (t : Nat × Nat) : State :=
  if !s.tabPending t.1 t.2 then s else
    let s := s.discardShadow t.1 t.2
    let s := s.setTab t.1 t.2 fun x => { x with target := 0, ready := false, late := false, deferRun := 0, group := [] }
    let s := s.setTabState t.1 t.2 (if s.tabRetiring t.1 t.2 then 3 else 0)
    let arg := leBytes 1 t.1 ++ leInt 2 (s.val Obj.TABLE_GEN t.2 (t.1 + 1))
    (s.logFault 0x1001 (tabKind t.1) t.2 arg).raise 0x0004 (tabKind t.1) t.2 arg

/-- The effect of an accepted `TABLE_SWAP_REQUEST` (02 R39): the commit is recorded for its target. Assumption log 40, DESIGN CHOICE. -/
def State.commitTab (s : State) (id e target : Nat) : State :=
  (s.setTab id e fun x => { x with target, ready := true, late := s.clk.pastCutoff, deferRun := 0, group := [] }).setTabState
    id e 1

/-- `TABLE_SWAP_CANCEL` (02 R40): a swap deferred for `SWAP_DEFER_LIMIT` ticks is cancelled with its group. -/
def execTableSwapCancel (table : Fin 12) (elem : Nat) (s : State) : Out :=
  .next (
    let x := s.tab table elem
    if s.tabState table elem = 2 && decide (s.nat Obj.SWAP_DEFER_LIMIT ≤ x.deferRun) then
      (x.group.map fun k => (k / 256, k % 256)).foldl State.cancelTab s
    else s)

end Sys2Proof.Machine
end

