-- ==== Sys2Proof/Machine/Channelizer.lean ====
section
/-! DEFINITION. Sample correction, filter bank, spectra step and requantisation (05). -/

namespace Sys2Proof.Machine

/-- A region's state. -/
def State.rg (s : State) (g : Nat) : RgSt := smGet {} s.regions g

/-- The state with a region changed. -/
def State.setRg (s : State) (g : Nat) (f : RgSt → RgSt) : State := { s with regions := smUpd {} s.regions g f }

/-- Whether a region runs: the mode runs the channelizer, its die is neither set aside nor held in reset (05 R116). -/
def State.regionRuns (s : State) (g : Nat) : Bool :=
  Mode.frontEnd s.mode && !s.dieOff (g / 2) && !(s.cont.resetting.any fun e => e.1 == g / 2)

/-! ### The linearizer (05 R108-R116) -/

/-- The temperature a build uses with its state: 0 `VALID`, 1 `NO_TEMP`, 2 `CLAMPED` (05 R114). -/
def State.linTemp (s : State) (g : Nat) : Nat × Nat :=
  let src := if g % 2 = 0 then 0x25 else 0x26
  if s.hkGen (g / 2) src = 0 then (0x41C80000, 1)
  else
    let v := s.hkValue (g / 2) src
    let lo := f32OfInt (-55)
    let hi := f32OfInt 125
    if f32Lt v lo then (lo, 2) else if f32Lt hi v then (hi, 2) else (v, 0)

/-- An active coefficient (05 R115). -/
def RgSt.coeffAt (x : RgSt) (i sub : Nat) : Int := smGet (dfltLinCoeff sub) x.coeff (48 * i + sub - 1)

/-- aᵢ from its binary32 evaluation, with 14 fraction bits, rounded away from zero at ties and saturated (05 R108). -/
def linA (c : Nat → Nat) (t : Nat) : Int :=
  let y := polyF32 (fun i j => if i = 0 then c j else 0) 0 0 t
  clampInt (-(2 ^ 31)) (2 ^ 31 - 1) (divAway (f32Num y * 2 ^ 14) (2 ^ 149))

/-- Builds a region's table from its active coefficients (05 R113). -/
def State.linBuild (s : State) (g : Nat) : LinTable :=
  let x := s.rg g
  let (t, st) := s.linTemp g
  let a (k : Nat) : Int := linA (fun j => (x.coeffAt (k / 16) (1 + 12 * (k % 16 / 4) + 3 * (k % 4) + j)).toNat) t
  { a := smBuild 0 a 256 0, temp := t, tState := st }

/-- The aᵢ of input `n` in range `r` in the live table; before any swap, those of the first table (05 R114, 20 R479). A poisoned word is
taken as zero (18 R432). -/
def State.linCoef (s : State) (n r i : Nat) : Int :=
  if (s.holesAt 0 (n / 16) (16 * (n % 16) + 4 * r + i) 1 s.clk.ord).isEmpty then
    match (s.rg (n / 16)).lin with
    | some t => smGet 0 t.a (16 * (n % 16) + 4 * r + i)
    | none => if i = 1 then 512 * 4 ^ r * 2 ^ 14 else 0
  else 0

/-- Whether words of a frame were linearised with a poisoned coefficient of their range (18 R432). -/
def State.linBad (s : State) (n : Nat) (words : List (BitVec 12)) : Bool :=
  (s.holesAt 0 (n / 16) (16 * (n % 16)) 16 s.clk.ord).any fun w => words.any fun v => rawRange v == w / 4

/-- The cubic of 05 R108, rounded once and limited; the flag tells a limited sample. -/
def linEval (a : Nat → Int) (m : Int) : Int × Bool :=
  let num := a 0 * 2 ^ 27 + a 1 * m * 2 ^ 18 + a 2 * m * m * 2 ^ 9 + a 3 * m * m * m
  let y := divAway num (2 ^ 41)
  (clampInt (-32767) 32767 y, decide (y > 32767 ∨ y < -32767))

/-- What the pass over a frame gathers. -/
structure FrameAcc where
  recovery : Nat
  last     : Int
  rel      : Nat
  stuckW   : BitVec 12
  stuckN   : Nat
  sat      : Nat := 0
  blank    : Nat := 0
  lockClip : Nat := 0
  autoClip : Nat := 0
  linSat   : Nat := 0
  ovr      : Bool := false
  lin      : List Int := []
  raw      : List (BitVec 12) := []

/-- One sample through blanking and the linearizer (03 R63, R66, R68, R76; 05 R108-R112). `blanked` replaces the word, `counts` tells that
the release count goes on with the sample, `counted` that it is an attack clip counted already. -/
def frameStep (locked : Option Nat) (relThr : Nat) (nominal zeroFill : Bool) (a : Nat → Nat → Int)
    (acc : FrameAcc) (w : BitVec 12) (blanked counts counted : Bool) : FrameAcc :=
  let sat := rawSat w
  let recov := !sat && decide (0 < acc.recovery)
  let recovery := if sat then 8 else acc.recovery - 1
  if blanked then
    { acc with recovery, blank := acc.blank + 1, stuckN := 0, lin := 0 :: acc.lin, raw := 0xC00 :: acc.raw }
  else
    let r := rawRange w
    let m := rawMant w
    let (y, lim) := if sat then ((if zeroFill then 0 else if acc.last ≥ 0 then 32767 else -32767), false)
      else if nominal then (m * 4 ^ r, false) else linEval (a r) m
    let last := if sat then acc.last else y
    let rel := if counts then relStep relThr acc.rel w false else acc.rel
    let stuckN := if r != 0 then 0 else if w = acc.stuckW then acc.stuckN + 1 else 1
    let low := match locked with | some k => decide (k < 3) | none => false
    let clip := if low && m.natAbs == 511 then 1 else 0
    let auto_ := if locked.isNone && rawClip w && !counted then 1 else 0
    { recovery, last, rel, stuckW := w, stuckN, sat := acc.sat + (if sat then 1 else 0), blank := acc.blank
      autoClip := acc.autoClip + auto_, lockClip := acc.lockClip + clip, linSat := acc.linSat + (if lim then 1 else 0), ovr := acc.ovr || sat || recov
      lin := y :: acc.lin, raw := w :: acc.raw }

/-- A frame's samples in turn: `bl` tells the blanked ones, `from_` the first with which the release count goes on, `cl` the attack
clips counted already. -/
def frameRun (locked : Option Nat) (relThr : Nat) (nominal zeroFill : Bool) (a : Nat → Nat → Int) (bl : Nat → Bool) (from_ : Nat)
    (cl : Nat → Bool) : Nat → List (BitVec 12) → FrameAcc → FrameAcc
  | _, [], acc => acc
  | i, w :: r, acc => frameRun locked relThr nominal zeroFill a bl from_ cl (i + 1) r
      (frameStep locked relThr nominal zeroFill a acc w (bl i) (decide (from_ ≤ i)) (cl i))

/-- The frame of an input that the tick brought, if any: 4,096 words, those not given being range 3 and mantissa 0. Assumption log 45, DESIGN CHOICE. -/
def envFrame (frames : List (Nat × List (BitVec 12))) (n : Nat) : Option (List (BitVec 12)) :=
  (frames.find? fun f => f.1 == n).map fun f => (f.2 ++ List.replicate (4096 - f.2.length) 0xC00).take 4096

/-- A frame of which the tick brought no word: linear samples of 0, counted as range 3 and mantissa 0; `rel` of its samples that are not
blanked count towards the release. Assumption log 45, DESIGN CHOICE. -/
def frameNone (bl : Nat → Bool) (blanked rel : Nat) (acc : FrameAcc) : FrameAcc :=
  { acc with recovery := acc.recovery - 4096, last := if blanked = 4096 then acc.last else 0, rel := acc.rel + rel, blank := blanked
             stuckN := 0, ovr := (List.range (Nat.min acc.recovery 4096)).any fun i => !bl i, raw := List.replicate 4096 0xC00 }

/-- The frame sampled in the tick that ends: counted, flagged, linearised and put into the filter history. Answers the raw
words as the coder takes them (03 R63, R64, R66, R68, R76; 05 R108-R112, R117). -/
def State.takeFrame (s : State) (n : Nat) (words : Option (List (BitVec 12))) : List (BitVec 12) × State :=
  let x := s.inp n
  let start : FrameAcc := { recovery := x.recovery, last := x.lastLin, rel := x.relCount, stuckW := x.stuckWord, stuckN := x.stuckRun }
  let bl : Nat → Bool := if s.nat Obj.BLANK_MASK n = 0 then fun _ => false else s.blankedAt n
  let tab := (List.range 16).map fun k => s.linCoef n (k / 4) (k % 4)
  let acc := match words with
    | some l => frameRun (s.rangeLock n) (s.nat Obj.RANGE_RELEASE n) (s.val Obj.LIN_MODE n == 1) (s.val Obj.SAT_FILL n == 1)
        (fun r i => nth 0 tab (4 * r + i)) bl (s.relStart n) (fun i => x.clips.contains (s.absSample i)) 0 l start
    | none =>
      let dark := if s.nat Obj.BLANK_MASK n = 0 then [] else (List.range 4096).filter bl
      let lit := (4096 - s.relStart n) - (dark.filter fun i => decide (s.relStart n ≤ i)).length
      frameNone bl dark.length lit start
  let s := s.inc Obj.SAT_COUNT n (n := acc.sat)
  let s := s.inc Obj.BLANK_SAMPLE_COUNT n (n := acc.blank)
  let s := s.inc Obj.LOCK_CLIP_COUNT n (n := acc.lockClip)
  let s := s.inc Obj.ATTACK_CLIP_COUNT n (n := acc.autoClip)
  let s := s.inc Obj.LIN_SAT_COUNT n (n := acc.linSat)
  let bad := s.linBad n (words.getD [0xC00])
  let s := s.mark n (Flag.when acc.ovr Flag.ovr ||| Flag.when (decide (0 < acc.blank)) Flag.blank ||| Flag.when bad Flag.poison)
  let lin := acc.lin.reverse
  let lin := if lin.all (· == 0) then [] else lin
  (acc.raw.reverse, s.setInp n fun x => { x with
    recovery := acc.recovery, lastLin := acc.last, relCount := acc.rel, stuckWord := acc.stuckW, stuckRun := acc.stuckN,
    clips := x.clips.filter fun c => decide (s.absSample 4096 ≤ c)
    frames := (lin :: x.frames).take 16 })

/-- The staged coefficients of a region's inputs become active (05 R115). -/
def State.linCopy (s : State) (g : Nat) : State :=
  let c (k : Nat) : Int := s.val Obj.LIN_COEFF (16 * g + k / 48) (k % 48 + 1)
  let tab := (List.range 768).foldl (fun m k => smPut (dfltLinCoeff (k % 48 + 1)) m k (c k)) []
  s.setRg g fun x => { x with copyWaits := false, coeff := tab }

/-- The copies of staged coefficients that are due, at the boundary (05 R115, R116). -/
def State.linCopies (s : State) : State :=
  (List.range 16).foldl (fun s g => if (s.rg g).copyWaits && s.regionRuns g then s.linCopy g else s) s

/-- Starts a build of table ID 0: its shadow is built and wanted for the next tick (05 R113, R116). One that may not start
yet waits. -/
def State.linStart (s : State) (g : Nat) : State :=
  if !s.regionRuns g || s.tabPending 0 g || s.tabRetiring 0 g then s.setRg g fun x => { x with buildWaits := true }
  else
    let t := s.linBuild g
    let s := s.setRg g fun x => { x with linShadow := some t, buildWaits := false }
    (s.setTab 0 g fun x => { x with target := s.tick + 1, ready := false, late := false, deferRun := 0 }).setTabState 0 g 1

/-- `LIN_TABLE_BUILD`: the build of every 250 ticks (05 R113). -/
def execLinTableBuild (g : Rg) (s : State) : Out :=
  .next (if s.tick % 250 = 0 && s.regionRuns g then s.linStart g else s)

/-- `LIN_BUILD_DONE`: the build is ready and committed (05 R113, 02 R39). -/
def execLinBuildDone (g : Rg) (s : State) : Out :=
  .next (if s.tabPending 0 g then s.setTab 0 g fun x => { x with ready := true, late := s.clk.pastCutoff } else s)

/-- `LIN_DEFERRED_BUILD`: a build that waits is made, at the first boundary after it was asked for or later (05 R115, R116). -/
def execLinDeferredBuild (g : Rg) (s : State) : Out :=
  .next (if (s.rg g).buildWaits && decide ((s.rg g).askOrd < s.clk.ord) then s.linStart g else s)

/-- The swap of table ID 0: the shadow is live, its temperature reported, the build counted (05 R113, R114). -/
def State.linSwap (s : State) (g : Nat) : State :=
  match (s.rg g).linShadow with
  | none => s
  | some t =>
    let s := s.setRg g fun x => { x with lin := some t, linShadow := none }
    ((s.setVal Obj.LIN_TEMP t.temp g).setVal Obj.LIN_T_STATE t.tState g).inc Obj.LIN_REBUILD_COUNT g

/-! ### The filter bank (05 R117-R122) -/

/-- The window of a sampling tick as 65,536 taps (05 R119). -/
def State.window (s : State) (g ord : Nat) : Array Int :=
  let b := (holed (s.holesAt 1 g 0 16384 ord) (s.tabBlob Obj.WIN_SHADOW ord g)).toArray
  let h (k : Nat) : Int := ofTwos 16 ((b.getD (2 * k) 0).toNat + 256 * (b.getD (2 * k + 1) 0).toNat)
  let half := (List.range 32768).map h
  (half ++ half.reverse).toArray

/-- The sum of all taps, W (05 R117). -/
def windowSum (h : Array Int) : Int := h.foldl (· + ·) 0

/-- The folded sequence u (05 R117); `frames` newest first, an empty frame is zero. -/
def foldFrames (h : Array Int) (frames : List (List Int)) : Array Int :=
  let fs := (List.range 16).map fun m => (nth [] frames (15 - m)).toArray
  ((List.range 4096).map fun n =>
    ((List.range 16).zip fs).foldl (fun acc p => acc + h.getD (4096 * p.1 + n) 0 * p.2.getD n 0) 0).toArray

/-- Cosine and sine of the 4,096 angles 2π k / 4,096. -/
def twiddles : Array (Int × Int) := ((List.range 4096).map fun (k : Nat) => let sc := sinCosTurn k 4096; (sc.2, sc.1)).toArray

/-- A component of c[f] with 8 fraction bits: the nearest integer when the exact value is within 2^-30 of it, else one of
its two neighbours, which the spec leaves open (assumption log 9, DESIGN CHOICE). -/
def chanRound (num : Int) (den : Nat) (up : Bool) : Int :=
  let r := divAway num den
  if (num - r * den).natAbs * 2 ^ 30 < den then r
  else num / (den : Int) + (if up then 1 else 0)

/-- The 2,048 channel values of a folded sequence, before saturation (05 R117). -/
def transform (u : Array Int) (w : Int) (up : Nat → Nat → Bool) : List (Int × Int) :=
  let nz := (List.range 4096).filterMap fun n => let v := u.getD n 0; if v = 0 then none else some (n, v)
  let tw := twiddles
  let den : Nat := w.toNat * 2 ^ trigBits
  (List.range 2048).map fun f =>
    let sum := nz.foldl (fun (acc : Int × Int) p =>
      let t := tw.getD (f * p.1 % 4096) (0, 0)
      (acc.1 + p.2 * t.1, acc.2 - p.2 * t.2)) (0, 0)
    (chanRound (sum.1 * 256) den (up f 0), if f = 0 then 0 else chanRound (sum.2 * 256) den (up f 1))

/-- Saturates a component to 24 bits (05 R117). -/
def sat24 (v : Int) : Int := clampInt (-(2 ^ 23)) (2 ^ 23 - 1) v

/-- The channel values of input `n` for the tick that ends, and the state with saturations counted. -/
def State.channelise (s : State) (n ord : Nat) : List (Int × Int) × State :=
  let x := s.inp n
  if x.frames.all (·.isEmpty) then (List.replicate 2048 (0, 0), s) else
    let h := s.window (n / 16) ord
    let c := transform (foldFrames h x.frames) (windowSum h) fun f p => Config.chanUp n f p s.tick
    let k := c.foldl (fun a v => a + (if sat24 v.1 = v.1 then 0 else 1) + (if sat24 v.2 = v.2 then 0 else 1)) 0
    (c.map fun v => (sat24 v.1, sat24 v.2), s.inc Obj.CHAN_SAT_COUNT n (n := k))

/-- The condition word of the channel data of input `n` of the tick `i` ticks back (05 R121). -/
def State.chanCond (s : State) (n i : Nat) : Cond :=
  let x := s.rg (n / 16)
  let span := nth 16 x.spans i
  let ks := if span = 4 then (List.range 4).map (· + 6) else List.range 16
  ks.foldl (fun c k => c ||| s.condAt n (i + k)) (nth 0 x.extra i)

/-- Restarts a region's filter history at the boundary of the current tick (05 R120). -/
def State.regionHistory (s : State) (g : Nat) : State :=
  let s := (List.range 16).foldl (fun s i => s.setInp (16 * g + i) fun x => { x with frames := [] }) s
  (s.setVal Obj.WARM_REMAINING 15 g).setRg g fun x => { x with
    restartDue := false
    extra := match x.extra with | [] => [Flag.warm] | c :: r => (c ||| Flag.warm) :: r }

/-- `WARM_END`: the fifteen ticks are over (05 R120). -/
def execWarmEnd (g : Rg) (s : State) : Out :=
  .next (if s.val Obj.WARM_REMAINING g ≤ 1 then s.setVal Obj.WARM_REMAINING 0 g else s)

/-! ### Spectra (05 R123-R127) -/

/-- Adds the powers of a tick to an input's accumulators (05 R123). -/
def State.specAdd (s : State) (n : Nat) (c : List (Int × Int)) (cond : Cond) : State :=
  let p := c.map fun v => (v.1 * v.1 + v.2 * v.2).toNat
  let add (old : List Nat) (l : List Nat) : List Nat := ((List.range 2048).zip l).map fun (q : Nat × Nat) => nth 0 old q.1 + q.2
  s.setInp n fun x => { x with
    s1 := add x.s1 p
    s2 := add x.s2 (p.map fun (v : Nat) => v * v)
    mEff := x.mEff + 1
    specCond := x.specCond ||| cond }

/-- Clears an input's accumulators. -/
def State.specClear (s : State) (n : Nat) : State :=
  s.setInp n fun x => { x with s1 := [], s2 := [], mEff := 0, specCond := 0 }

/-- The spectrum of an input for the period that ends (05 R125): S₁ has 16 fraction bits and S₂ 32. -/
def State.specOf (s : State) (n g : Nat) : Spectrum :=
  let x := s.inp n
  let y := s.rg g
  { input := n, ended := s.clk.ord, first := y.specFirst, len := y.specLen, mEff := x.mEff
    cond := x.specCond ||| Flag.when y.specLate Flag.late
    s1 := (List.range 2048).map fun (f : Nat) => f32OfRat (nth (0 : Nat) x.s1 f : Nat) (2 ^ 16)
    s2 := (List.range 2048).map fun (f : Nat) => f32OfRat (nth (0 : Nat) x.s2 f : Nat) (2 ^ 32) }

/-! ### Requantisation (05 R128-R131) -/

/-- The gain entry of a channel for a sampling tick: real and imaginary part (05 R129). -/
def gainAt (b : Array Byte) (f : Nat) : Int × Int :=
  (ofTwos 16 ((b.getD (4 * f + 2) 0).toNat + 256 * (b.getD (4 * f + 3) 0).toNat),
   ofTwos 16 ((b.getD (4 * f) 0).toNat + 256 * (b.getD (4 * f + 1) 0).toNat))

/-- One requantised sample and how many of its components were limited (05 R128). -/
def requant (g c : Int × Int) (sh : Nat) : (Int × Int) × Nat :=
  let re := divAway (g.1 * c.1 - g.2 * c.2) (2 ^ (8 + sh))
  let im := divAway (g.1 * c.2 + g.2 * c.1) (2 ^ (8 + sh))
  let l := clampInt (-127) 127
  ((l re, l im), (if l re = re then 0 else 1) + (if l im = im then 0 else 1))

/-- The poisoned words among an input's gains, the shift being word 2,048 (18 R432). -/
def State.reqHoles (s : State) (n ord : Nat) : List Nat := s.holesAt 2 (n / 16) (2049 * (n % 16)) 2049 ord

/-- The requantised channels of an input for a sampling tick, and the state with limits counted. All-zero data gives an
empty list. -/
def State.requantise (s : State) (n ord : Nat) (c : List (Int × Int)) : List (Int × Int) × State :=
  if c.all (fun v => v.1 == 0 && v.2 == 0) then ([], s) else
    let holes := s.reqHoles n ord
    let b := (holed holes (s.tabBlob Obj.REQ_GAIN_SHADOW ord n)).toArray
    let sh := if holes.contains 2048 then 0 else s.tabNat Obj.REQ_SHIFT ord n
    let y := ((List.range 2048).zip c).map fun p => requant (gainAt b p.1) p.2 sh
    (y.map (·.1), s.inc Obj.REQ_SAT_COUNT n (n := y.foldl (fun a v => a + v.2) 0))

/-- The swap of table ID 2: the live gains and shifts as they are read (05 R133). -/
def State.reqSwap (s : State) (g : Nat) : State :=
  (List.range 16).foldl (fun s i =>
    let n := 16 * g + i
    (s.setBlob Obj.REQ_GAIN_LIVE (s.liveBlob Obj.REQ_GAIN_SHADOW n) n).setVal Obj.REQ_SHIFT_LIVE (s.liveVal Obj.REQ_SHIFT n) n) s

/-- W of a window's shadow bytes (05 R117, R119). -/
def windowW (b : List Byte) : Int :=
  let a := b.toArray
  2 * (List.range 32768).foldl (fun acc k => acc + ofTwos 16 ((a.getD (2 * k) 0).toNat + 256 * (a.getD (2 * k + 1) 0).toNat)) 0

end Sys2Proof.Machine
end

