-- ==== Sys2Proof/Machine/Slices.lean ====
section
/-! DEFINITION. Channel contexts and zero suppression (06). -/

namespace Sys2Proof.Machine

/-- A slice's state. -/
def State.sl (s : State) (k : Nat) : SlSt := smGet {} s.slices k

/-- The state with a slice changed. -/
def State.setSl (s : State) (k : Nat) (f : SlSt → SlSt) : State := { s with slices := smUpd {} s.slices k f }

namespace Ctx

/-- `STATE` values (06 R134). -/
def UNSET : Nat := 0
/-- `WARM`. -/
def WARM : Nat := 1
/-- `ARMED`. -/
def ARMED : Nat := 2
/-- `HELD`. -/
def HELD : Nat := 3
/-- `MASKED`. -/
def MASKED : Nat := 4

/-- The 128-bit word of a context (06 R134). -/
def word (x : Ctx) : Nat :=
  let b (p : Bool) : Nat := if p then 1 else 0
  x.baseline * 2 ^ 96 + x.k * 2 ^ 88 + x.state * 2 ^ 85 + x.warm * 2 ^ 73 + x.hang * 2 ^ 65 + x.preValid * 2 ^ 60 +
    b x.prev * 2 ^ 59 + b x.iso * 2 ^ 58 + x.cond.toNat * 2 ^ 32 + x.lastEmit

/-- The context a word spells (its reserved bits left out). -/
def ofWord (w : Nat) : Ctx :=
  { baseline := w / 2 ^ 96 % 2 ^ 32, k := w / 2 ^ 88 % 256, state := w / 2 ^ 85 % 8, warm := w / 2 ^ 73 % 4096
    hang := w / 2 ^ 65 % 256, preValid := w / 2 ^ 60 % 16 % 32, prev := w.testBit 59, iso := w.testBit 58
    cond := BitVec.ofNat 16 (w / 2 ^ 32), lastEmit := w % 2 ^ 32 }

/-- The checks of a write of a context that all writers share (06 R135), against the context held. -/
def writeOk (old : Ctx) (w : Nat) : Bool :=
  let x := ofWord w
  decide (x.state ≤ 4) && w / 2 ^ 48 % 2 ^ 10 == 0 && w / 2 ^ 60 % 32 == old.preValid && x.prev == old.prev && x.iso == old.iso &&
    x.cond == old.cond && x.lastEmit == old.lastEmit && (x.k != 0 || x.state == UNSET)

/-- The context with the writable fields of another. -/
def withRw (old new : Ctx) : Ctx :=
  { old with baseline := new.baseline, k := new.k, state := new.state, warm := new.warm, hang := new.hang }

end Ctx

/-- The greatest `BASELINE` the dictionary may write (06 R135). -/
def maxBaseline : Nat := 0x7E020000

/-- The CD SRAM address of a context (18 R423; its place is assumption log 21, DESIGN CHOICE). -/
def ctxAddr (k c : Nat) : Nat := spaceBase 2 + k * 0x38000 + 0x30000 + 16 * c

/-- The CD SRAM address of a delay-line sample of a tick. -/
def delayAddr (k c ord : Nat) : Nat := spaceBase 2 + 0x3800000 + k * 65536 + ord % 16 * 4096 + 2 * c

/-- The CD SRAM address of an input's condition word of a tick (01 R10; assumption log 21, DESIGN CHOICE). -/
def condAddr (n ord : Nat) : Nat := spaceBase 2 + 0x4800000 + ord % 16 * 512 + 2 * n

/-- The entries of `n` keys from `i`, defaults included. -/
def smList {α : Type} (d : α) : Nat → Nat → SMap α → List α
  | 0, _, _ => []
  | n + 1, i, [] => d :: smList d n (i + 1) []
  | n + 1, i, (k, v) :: m => if k ≤ i then v :: smList d n (i + 1) m else d :: smList d n (i + 1) ((k, v) :: m)

/-- The map of a list's values at keys from `i`. -/
def smOfList {α : Type} [DecidableEq α] (d : α) : Nat → List α → SMap α
  | _, [] => []
  | i, v :: r => if v = d then smOfList d (i + 1) r else (i, v) :: smOfList d (i + 1) r

/-! ### One context in one tick (06 R136-R144) -/

/-- The parameters of a bank's table ID 3 for a sampling tick (06 R158). -/
structure SuppParams where
  h : Nat
  p : Nat
  attack : Nat
  decay : Nat
  warmShift : Nat
  warmTicks : Nat
  seed : Nat
  floor : Nat
  kDefault : Nat
  freeze : Cond

/-- The parameters in force for a sampling tick. Bits 1 to 6 are always part of the freeze mask (06 R139). -/
def State.suppParams (s : State) (bank ord : Nat) : SuppParams :=
  { h := s.tabNat Obj.SUPP_H ord bank, p := s.tabNat Obj.SUPP_P ord bank
    attack := s.tabNat Obj.SUPP_ATTACK_SHIFT ord bank, decay := s.tabNat Obj.SUPP_DECAY_SHIFT ord bank
    warmShift := s.tabNat Obj.SUPP_WARM_SHIFT ord bank, warmTicks := s.tabNat Obj.SUPP_WARM_TICKS ord bank
    seed := s.tabNat Obj.SUPP_SEED ord bank, floor := s.tabNat Obj.SUPP_FLOOR ord bank
    kDefault := s.tabNat Obj.SUPP_K_DEFAULT ord bank, freeze := BitVec.ofNat 16 (s.tabNat Obj.SUPP_FREEZE_MASK ord bank) ||| 0x7E }

/-- A context seeded (06 R140, R141). -/
def seedCtx (p : SuppParams) (x : Ctx) : Ctx :=
  { x with baseline := p.seed, warm := p.warmTicks, hang := 0, k := if x.k = 0 then p.kDefault else x.k
           state := if p.warmTicks = 0 then Ctx.ARMED else Ctx.WARM }

/-- The baseline after a tick (06 R138). -/
def baselineStep (a q b : Nat) : Nat := if q > b then b + (q - b) >>> a else b - (b - q) >>> a

/-- What a context's tick gives before the budget: the context, the items proposed and the state its items carry. -/
structure CtxStep where
  c    : Nat
  x    : Ctx
  prim : Bool := false
  hang : Bool := false
  pre  : Nat := 0
  warm : Bool := false
  done : Bool := false

/-- Steps 1 to 6 of 06 R136 for one context, the fields of R144 apart. `done` marks one to which R144 does not apply. -/
def ctxStep (p : SuppParams) (boost t : Nat) (c : Nat) (x : Ctx) (re im : Int) (cond : Cond) (bad : Bool) : CtxStep :=
  let pv := Nat.min (x.preValid + 1) 15
  if bad then { c, x := {}, done := true }
  else if x.state = Ctx.MASKED then { c, x := { x with preValid := pv }, done := true }
  else
    let frozen := Flag.any cond p.freeze
    if x.state = Ctx.UNSET && frozen then { c, x }
    else
      let y := if x.state = Ctx.UNSET then seedCtx p x else x
      let pow := (re * re + im * im).toNat
      let prim := decide (pow * 2 ^ 20 > y.k * Nat.max y.baseline p.floor * 2 ^ boost)
      let hang := !prim && decide (0 < y.hang)
      let g := (t + 2 ^ 32 * 2 - 1 - y.lastEmit) % 2 ^ 32
      let g := if g = 0 then 2 ^ 32 else g
      let pre := if prim && !y.prev then Nat.min p.p (Nat.min y.preValid g) else 0
      let warm := y.state == Ctx.WARM
      let a := if warm then p.warmShift else if pow * 2 ^ 16 > y.baseline then p.attack else p.decay
      let b := if frozen || y.state == Ctx.HELD then y.baseline else baselineStep a (pow * 2 ^ 16) y.baseline
      let w := if warm && !frozen then y.warm - 1 else y.warm
      { c, prim, hang, pre, warm
        x := { y with baseline := b, warm := w
                      state := if warm && !frozen && w == 0 then Ctx.ARMED else y.state
                      hang := if prim then p.h else if hang then y.hang - 1 else y.hang } }

/-! ### The budget (06 R148) -/

/-- Keeps items of one kind in taking order while they fit: the contexts kept, and the room left, `none` once keeping has
stopped. -/
def keepKind (size : CtxStep → Nat) : List CtxStep → Option Nat → List Nat × Option Nat
  | [], room => ([], room)
  | _ :: _, none => ([], none)
  | x :: r, some room =>
    let n := size x
    if n = 0 then keepKind size r (some room)
    else if n ≤ room then
      let (l, q) := keepKind size r (some (room - n))
      (x.c :: l, q)
    else ([], none)

/-- What the budget keeps: the contexts whose primary, hangover and pre-items survive, and the rotation pointer. -/
structure Kept where
  all  : Bool
  prim : List Nat := []
  hang : List Nat := []
  pre  : List Nat := []
  rot  : Nat

/-- The number of items a tick yields. -/
def yieldOf (l : List CtxStep) : Nat :=
  l.foldl (fun n x => n + (if x.prim then 1 else 0) + (if x.hang then 1 else 0) + x.pre) 0

/-- The budget of a tick (06 R148). -/
def budget (rot : Nat) (l : List CtxStep) : Kept :=
  if yieldOf l ≤ 512 then { all := true, rot } else
    let act := l.filter fun x => x.prim || x.hang
    let order := act.filter (fun x => decide (rot ≤ x.c)) ++ act.filter (fun x => decide (x.c < rot))
    let (a, r1) := keepKind (fun x => if x.prim then 1 else 0) order (some 512)
    let (b, r2) := keepKind (fun x => if x.hang then 1 else 0) order r1
    let (c, _) := keepKind (fun x => x.pre) order r2
    let lastKept := if !c.isEmpty then c.getLast? else if !b.isEmpty then b.getLast? else a.getLast?
    { all := false, prim := a, hang := b, pre := c
      rot := match lastKept with | some i => (i + 1) % 2048 | none => rot }

/-- A context after its items are settled (06 R144). -/
def settleCtx (k : Kept) (t : Nat) (cond : Cond) (y : CtxStep) : Ctx :=
  if y.done then y.x else
    let prim := y.prim && (k.all || k.prim.contains y.c)
    let hang := y.hang && (k.all || k.hang.contains y.c)
    let pre := decide (0 < y.pre) && (k.all || k.pre.contains y.c)
    let some_ := prim || hang || pre
    { y.x with prev := some_, lastEmit := if prim || hang then t % 2 ^ 32 else y.x.lastEmit
               cond := if some_ then 0 else y.x.cond ||| cond, preValid := Nat.min (y.x.preValid + 1) 15 }

/-! ### One slice in one tick -/

/-- The samples and condition word that the delay line holds of `age` ticks before the tick at hand. -/
def State.delayed (s : State) (n f age : Nat) : (Int × Int) × Cond :=
  match s.delay[age]? with
  | some d => (nth (0, 0) (smGet [] d.chans n) f, nth 0 d.cond n)
  | none => ((0, 0), 0)

/-- The items a settled context gives, oldest first (06 R143, R145-R147). -/
def State.ctxItems (s : State) (k ord : Nat) (kept : Kept) (extra : Cond) (re im : Int) (cond : Cond) (y : CtxStep) : List Item :=
  let extra := extra ||| Flag.when y.warm Flag.warm
  let pre := if kept.all || kept.pre.contains y.c then y.pre else 0
  let old := (List.range pre).map fun j =>
    let age := pre - j
    let d := s.delayed (y.c / 8) (8 * k + y.c % 8) age
    let bad := s.poisoned (delayAddr k y.c (ord - age) / 4 * 4) 4 || s.poisoned (condAddr (y.c / 8) (ord - age) / 4 * 4) 4
    { cond := d.2 ||| extra ||| Flag.when bad Flag.poison, re := d.1.1, im := d.1.2, kind := 2, age, ctx := y.c : Item }
  let now := if y.prim && (kept.all || kept.prim.contains y.c) then
      [{ cond := cond ||| extra, re, im, kind := 0, age := 0, ctx := y.c : Item }]
    else if y.hang && (kept.all || kept.hang.contains y.c) then
      [{ cond := cond ||| extra, re, im, kind := 1, age := 0, ctx := y.c : Item }]
    else []
  old ++ now

/-- The hand-in update of slice `k` for the tick at the head of the delay line (06 R136, R146-R148, R155). `late` keeps
every context field (02 R35). -/
def State.sliceTick (s : State) (k : Nat) (rows : Array (Array (Int × Int))) (conds : Array Cond) (d : DelayTick)
    (late : Bool) : State :=
  let x := s.sl k
  let p := s.suppParams (k / 16) d.ord
  let b := s.nat Obj.SUPP_BOOST k
  let anyBad := s.poisoned (ctxAddr k 0) 32768
  let sample (c : Nat) : Int × Int := (rows.getD (c / 8) #[]).getD (8 * k + c % 8) (0, 0)
  let bad (c : Nat) : Bool := anyBad && s.poisoned (ctxAddr k c) 16
  let steps := ((List.range 2048).zip (smList {} 2048 0 x.ctx)).map fun q =>
    let v := sample q.1
    ctxStep p b d.tick q.1 q.2 v.1 v.2 (conds.getD (q.1 / 8) 0) (bad q.1)
  let kept := budget x.rot steps
  let extra := Flag.when (decide (0 < b)) Flag.degraded ||| Flag.when (s.staleAt 3 (k / 16) d.ord) Flag.staleTbl |||
    Flag.when late Flag.late
  let items := steps.flatMap fun y =>
    if y.prim || y.hang then
      let v := sample y.c
      s.ctxItems k d.ord kept extra v.1 v.2 (conds.getD (y.c / 8) 0) y
    else []
  let n := yieldOf steps
  let badList := if anyBad then (List.range 2048).filter bad else []
  let s : State := if anyBad && !late then
      { s with poison := s.poison.filter fun e => decide (e.1 < ctxAddr k 0 ∨ ctxAddr k 2048 ≤ e.1) }
    else s
  let s := s.inc Obj.SUPP_POISON_COUNT k (n := badList.length)
  let s := s.inc Obj.SUPP_DROP_COUNT k (n := n - items.length)
  let s := s.inc Obj.SUPP_ITEM_COUNT k (n := items.length)
  let s := if n > s.nat Obj.SUPP_PEAK_ITEMS k then s.setVal Obj.SUPP_PEAK_ITEMS n k else s
  s.setSl k fun x => { x with
    ctx := if late then x.ctx else smOfList {} 0 (steps.map fun y => settleCtx kept d.tick (conds.getD (y.c / 8) 0) y)
    rot := kept.rot, yielded := n, items }

/-! ### Rate reduction (06 R149) -/

/-- A slice's boost level falls by one. -/
def State.boostFall (s : State) (k : Nat) : State :=
  let b := s.nat Obj.SUPP_BOOST k
  if b = 0 ∨ (s.sl k).quiet < s.nat Obj.SUPP_BOOST_RELEASE then s else
    let s := (s.setVal Obj.SUPP_BOOST (b - 1 : Nat) k).setSl k fun x => { x with quiet := 0 }
    if b = 1 then s.raise 0x4002 6 k [] else s

/-- A slice's boost level at the end of a tick that ran suppression (06 R149); `reported` is the framer's report. -/
def State.boostStep (s : State) (reported : Bool) (k : Nat) : State :=
  let n := (s.sl k).yielded
  let b := s.nat Obj.SUPP_BOOST k
  if n > 512 || reported then
    let s := s.setSl k fun x => { x with quiet := 0 }
    if b ≥ 4 then s else
      let s := (s.setVal Obj.SUPP_BOOST (b + 1 : Nat) k).inc Obj.SUPP_BOOST_STEP_COUNT k
      if b = 0 then s.raise 0x4001 6 k (leBytes 1 1) else s
  else if b = 0 then (if (s.sl k).quiet = 0 then s else s.setSl k fun x => { x with quiet := 0 })
  else
    let q := if n ≤ 256 then (s.sl k).quiet + 1 else 0
    (s.setSl k fun x => { x with quiet := q }).boostFall k

/-- `SUPP_BOOST_FALL` (06 R149). -/
def execSuppBoostFall (k : Se) (s : State) : Out := .next (s.boostFall k)

/-! ### Commands and writes (06 R140, R152-R154) -/

/-- A context after a command of 06 R153, and whether it is passed over and counted. -/
def ctxCommand (cmd arg warmTicks : Nat) (served : Bool) (x : Ctx) : Ctx × Bool :=
  let masked := x.state == Ctx.MASKED
  match cmd with
  | 1 => (if x.state = Ctx.WARM ∨ x.state = Ctx.ARMED then { x with state := Ctx.HELD } else x, false)
  | 2 => (if x.state = Ctx.HELD then { x with state := Ctx.ARMED } else x, false)
  | 3 => ({ x with state := Ctx.MASKED, iso := false }, false)
  | 4 =>
    if !masked then (x, false)
    else if x.iso then (x, true)
    else if served then ({ x with state := Ctx.WARM, warm := warmTicks }, false)
    else ({ x with iso := true }, false)
  | 5 => (if x.state = Ctx.WARM ∨ x.state = Ctx.ARMED ∨ x.state = Ctx.HELD then { x with state := Ctx.UNSET } else x, false)
  | 6 => (if masked then x else { x with k := arg }, false)
  | _ => (x, false)

/-- Changes one context of a slice. -/
def State.updCtx (s : State) (k c : Nat) (f : Ctx → Ctx) : State := s.setSl k fun x => { x with ctx := smUpd {} x.ctx c f }

/-- Counts a conflict where the engine wrote the same context at the last hand-out (06 R152). -/
def State.ctxConflict (s : State) (k c : Nat) : State :=
  if (s.sl k).engWrote.contains c then s.inc Obj.SUPP_CTX_CONFLICT_COUNT k else s

/-- One context of a command's range. -/
def State.ctxCommandAt (s : State) (n cmd arg f : Nat) : State :=
  let k := f / 8
  let c := 8 * n + f % 8
  let old := smGet {} (s.sl k).ctx c
  let (x, skip) := ctxCommand cmd arg (s.liveVal Obj.SUPP_WARM_TICKS (k / 16)).toNat (s.inService n) old
  let s := if skip then s.inc Obj.SUPP_CMD_SKIP_COUNT else s
  if x = old then s else (s.ctxConflict k c).updCtx k c fun _ => x

/-- A waiting write takes effect (06 R152). Assumption log 44, DEDUCED. -/
def State.ctxApply1 (s : State) : CtxWrite → State
  | .set k c v => (s.ctxConflict k c).updCtx k c fun x => x.withRw v
  | .cmd n w =>
    let first := w / 2 ^ 11 % 2 ^ 11
    let last := w % 2 ^ 11
    (List.range (last + 1 - first)).foldl (fun s i => s.ctxCommandAt n (w / 2 ^ 60) (w / 2 ^ 52 % 256) (first + i)) s

/-- Every waiting context write and command takes effect, in the order served (06 R152). -/
def State.ctxApply (s : State) : State :=
  let q := s.ctxQueue
  q.foldl State.ctxApply1 { s with ctxQueue := [] }

/-- `SUPP_CTX_APPLY`: the boundary's context writes (06 R152). -/
def execSuppCtxApply (s : State) : Out := .next s.ctxApply

/-- The word of a context command (06 R153). -/
def ctxCmdWord (cmd arg first last : Nat) : Nat := cmd * 2 ^ 60 + arg * 2 ^ 52 + first * 2 ^ 11 + last

/-- Whether a context command word is well-formed (06 R153). -/
def ctxCmdOk (w : Nat) : Bool :=
  let cmd := w / 2 ^ 60
  let arg := w / 2 ^ 52 % 256
  decide (1 ≤ cmd ∧ cmd ≤ 6) && (if cmd = 6 then decide (0x10 ≤ arg) else arg == 0) && w / 2 ^ 22 % 2 ^ 30 == 0 &&
    decide (w / 2 ^ 11 % 2 ^ 11 ≤ w % 2 ^ 11)

/-- The contexts of an input that leaves service go to `MASKED` with `ISO`, those of one that returns to `UNSET` (06 R154). Assumption log 44, DEDUCED. -/
def State.ctxService (s : State) (n : Nat) (served : Bool) : State :=
  let f (x : Ctx) : Ctx :=
    if served then (if x.state = Ctx.MASKED ∧ x.iso = true then { x with state := Ctx.UNSET, iso := false } else x)
    else if x.state = Ctx.MASKED then x else { x with state := Ctx.MASKED, iso := true }
  let g (m : SMap Ctx) : SMap Ctx := (List.range 8).foldl (fun m i => smUpd {} m (8 * n + i) f) m
  { s with slices := smMap {} {} (fun _ (x : SlSt) => { x with ctx := g x.ctx }) 256 0 s.slices }

/-- `PRE_VALID` of every context to 0 (06 R143). -/
def State.preValidClear (s : State) : State :=
  let f (x : SlSt) : SlSt := { x with ctx := smEach {} (fun _ c => { c with preValid := 0 }) x.ctx }
  { s with slices := smEach {} (fun _ x => f x) s.slices }

/-- The contexts in each state as of the boundary (06 R158 `SUPP_STATE_TALLY`). -/
def State.stateTally (s : State) (st : Nat) : Nat :=
  let listed := s.slices.foldl (fun a e => e.2.ctx0.foldl (fun n c => if c.2.state = st then n + 1 else n) a) 0
  let total := s.slices.foldl (fun a e => a + e.2.ctx0.length) 0
  if st = Ctx.UNSET then listed + (524288 - total) else listed

end Sys2Proof.Machine
end

