-- ==== Sys2Proof/Machine/Beams.lean ====
section
/-! DEFINITION. The beamformer (07). -/

namespace Sys2Proof.Machine

/-- The delay entry of a beam and input: `TAU0` and `RATE` (07 R160). -/
def delayEntry (b : Array Byte) (beam n : Nat) : Int × Int :=
  let o := 8 * (256 * beam + n)
  let w (k : Nat) : Int := ofTwos 32 ((List.range 4).foldl (fun a i => a + (b.getD (o + k + i) 0).toNat * 256 ^ i) 0)
  (w 4, w 0)

/-- The exact delay in 2⁻³² TU (07 R161), limited to the bounds; the flag tells a limited one. -/
def beamDelay (e : Int × Int) (dt : Int) : Int × Bool :=
  let tau := e.1 * 2 ^ 32 + e.2 * dt
  let lo : Int := -(2 ^ 63)
  let hi : Int := (2 ^ 31 - 1) * 2 ^ 32
  if tau < lo then (lo, true) else if tau > hi then (hi, true) else (tau, false)

/-- τ₈: the delay in 2⁻⁸ TU, ties away from zero (07 R161). -/
def beamTau8 (e : Int × Int) (dt : Int) : Int := divAway (beamDelay e dt).1 (2 ^ 24)

/-- The weight's cosine and sine words of a phase word (07 R162). -/
def beamTrig (theta : Nat) : Int × Int :=
  let sc := sinCosTurn (theta / 2 ^ 19 : Nat) 65536
  (divAway (16384 * sc.2) (2 ^ trigBits), divAway (16384 * sc.1) (2 ^ trigBits))

/-- The phase word of a channel and delay (07 R162). -/
def beamPhase (offset : Int) (lower : Bool) (f : Nat) (tau8 : Int) : Nat :=
  let nu : Int := offset + (if lower then -1 else 1) * 256 * f
  (nu * tau8 % 2 ^ 35).toNat

/-- One term of the beam sum: `x · A (C − i S)` (07 R159, R162). -/
def beamTerm (x : Int × Int) (a : Nat) (cs : Int × Int) : Int × Int :=
  (a * (x.1 * cs.1 + x.2 * cs.2), a * (x.2 * cs.1 - x.1 * cs.2))

/-- A component scaled and limited (07 R165); the flag tells a limited one. -/
def beamScale (m sh : Nat) (wide : Bool) (acc : Int) : Int × Bool :=
  let v := divAway (acc * m) (2 ^ sh)
  let lim : Int := if wide then 32767 else 127
  let w := clampInt (-lim) lim v
  (w, w != v)

/-- The beams produced: `BEAM_ENABLE` of the live mix for a sampling tick (07 R167). -/
def State.beamOn (s : State) (b ord : Nat) : Bool := bitOf (s.tabNat Obj.BEAM_ENABLE ord) b

/-- What the weights of one bank need for a sampling tick. -/
structure BankTabs where
  delays : Array Byte
  apod   : Array Byte
  epoch  : Nat
  offset : Int
  lower  : Bool
deriving DecidableEq, Repr

/-- The tables in force for a sampling tick, by its `ord` (02 R38). -/
def State.bankTabs (s : State) (ord : Nat) : Array BankTabs :=
  let offset := s.tabVal Obj.BEAM_NU_OFFSET ord
  let lower := s.tabVal Obj.BEAM_SIDEBAND ord == 1
  ((List.range 16).map fun bk =>
    { delays := (s.tabBlob Obj.BEAM_DELAY_SHADOW ord bk).toArray, apod := (s.tabBlob Obj.BEAM_APOD_SHADOW ord bk).toArray
      epoch := s.tabNat Obj.BEAM_EPOCH ord bk, offset, lower : BankTabs }).toArray

/-- The beam sample of one beam and channel, with the contributing inputs fixed by `use` (07 R159-R165). -/
def beamSample (t : BankTabs) (b f : Nat) (dt : Int) (wide : Bool) (scale : Nat) (use : List Nat)
    (rows : Array (Array (Int × Int))) : (Int × Bool) × (Int × Bool) :=
  let acc := use.foldl (fun (acc : Int × Int) n =>
    let x := (rows.getD n #[]).getD f (0, 0)
    if x.1 = 0 ∧ x.2 = 0 then acc else
      let a := (t.apod.getD (256 * b + n) 0).toNat
      let v := beamTerm x a (beamTrig (beamPhase t.offset t.lower f (beamTau8 (delayEntry t.delays b n) dt)))
      (acc.1 + v.1, acc.2 + v.2)) (0, 0)
  let m := scale / 2 ^ 16
  (beamScale m (scale % 64) wide acc.1, beamScale m (scale % 64) wide acc.2)

/-- Forms every enabled beam of the tick at the head of the delay line (07 R159-R168). `late` lists the slices whose beam
update is late: they use the weights of the sampling tick before again, with the tables in force for it (02 R35). -/
def State.formBeams (s : State) (rows : Array (Array (Int × Int))) (conds : Array Cond) (served : Nat → Bool) (d : DelayTick)
    (late : Nat → Bool) : State :=
  let ord := d.ord
  let mask : Cond := BitVec.ofNat 16 (s.tabNat Obj.BEAM_EXCLUDE_MASK ord)
  let hit (n : Nat) : Bool := Flag.any (conds.getD n 0) mask
  -- inputs excluded under the mask are counted once
  let s := (List.range 256).foldl (fun s n => if served n && hit n then s.inc Obj.BEAM_EXCLUDE_COUNT n else s) s
  let tabs := s.bankTabs ord
  let olds := if (List.range 256).any late then s.bankTabs (ord - 1) else tabs
  let none_ : BankTabs := { delays := #[], apod := #[], epoch := 0, offset := 0, lower := false }
  let tab (bk : Nat) : BankTabs := tabs.getD bk none_
  let tabOf (k : Nat) : BankTabs := (if late k then olds else tabs).getD (k / 16) none_
  let dtOf (k : Nat) : Int := (d.tick : Int) - (tabOf k).epoch - (if late k then 1 else 0)
  let gen := s.nat Obj.MASK_GEN
  let one (acc : State × List BeamOut) (b : Nat) : State × List BeamOut :=
    let s := acc.1
    if !s.beamOn b ord then acc else
      let banks := s.tabNat Obj.BEAM_BANKS ord 0 (b + 1)
      let wide := bitOf (s.tabNat Obj.BEAM_WIDE ord) b
      let scale := s.tabNat Obj.BEAM_SCALE ord 0 (b + 1)
      let bks := (List.range 16).filter (bitOf banks)
      -- limited delays, once per entry and tick
      let s := bks.foldl (fun s bk =>
        let n := ((List.range 256).filter fun n => (beamDelay (delayEntry (tab bk).delays b n) ((d.tick : Int) - (tab bk).epoch)).2).length
        s.inc Obj.BEAM_DELAY_CLAMP_COUNT bk (n := n)) s
      let ks := bks.flatMap fun bk => (List.range 16).map (16 * bk + ·)
      let aOf (k n : Nat) : Nat := ((tabOf k).apod.getD (256 * b + n) 0).toNat
      let useOf (k : Nat) : List Nat := (List.range 256).filter fun n =>
        aOf k n != 0 && served n && !hit n && !(s.sl k).exclude.testBit n
      let uses := ks.map fun k => (k, useOf k)
      let condOf (q : Nat × List Nat) : Cond :=
        let c := q.2.foldl (fun c n => c ||| conds.getD n 0) (0 : Cond)
        let stale := s.staleAt 4 (q.1 / 16) ord || s.staleAt 5 (q.1 / 16) ord || s.staleAt 6 0 ord
        let lost := (List.range 256).any fun n => aOf q.1 n != 0 && !served n
        c ||| Flag.when stale Flag.staleTbl ||| Flag.when (late q.1) Flag.late ||| Flag.when lost Flag.degraded
      let out := uses.flatMap fun q => (List.range 8).map fun i =>
        let f := 8 * q.1 + i
        (f, beamSample (tabOf q.1) b f (dtOf q.1) wide scale q.2 rows)
      let sat := out.foldl (fun n o => n + (if o.2.1.2 then 1 else 0) + (if o.2.2.2 then 1 else 0)) 0
      let kill (f : Nat) : Bool := (s.sl (f / 8)).chanMask.testBit (8 * b + f % 8)
      let samples := out.foldl (fun (m : List (Nat × (Int × Int))) o =>
        let v := (o.2.1.1, o.2.2.1)
        if kill o.1 || (v.1 == 0 && v.2 == 0) then m else (o.1, v) :: m) []
      (s.inc Obj.BEAM_SAT_COUNT 0 (b + 1) sat,
       acc.2 ++ [{ beam := b, tick := d.tick, wide, banks, gen, samples := samples.reverse
                   cond := smKeep (fun _ => true) (uses.filterMap fun q => let c := condOf q; if c = 0 then none else some (q.1, c))
                   inputs := uses.map fun q => (q.1, ofBits ((List.range 256).map fun n => q.2.contains n)) }])
  let (s, outs) := (List.range 32).foldl one (s, [])
  { s with beams := outs }

/-- The engine masks written in the tick before take effect (07 R171), with `MASK_GEN` and the slices whose masks change
(16 R374). `t` is the sampling tick processed at this boundary. -/
def State.masksApply (s : State) (t : Nat) : State :=
  let changed := s.slices.filterMap fun e =>
    let x := e.2
    if (x.newExclude.getD x.exclude) != x.exclude || (x.newChanMask.getD x.chanMask) != x.chanMask then some e.1 else none
  let step (k : Nat) (x : SlSt) : SlSt :=
    { x with exclude := x.newExclude.getD x.exclude, chanMask := x.newChanMask.getD x.chanMask, newExclude := none
             newChanMask := none, maskRef := if changed.contains k then t else x.maskRef }
  let s : State := { s with slices := smEach {} step s.slices, fr := { s.fr with masksChanged := changed } }
  if changed.isEmpty then s else s.inc Obj.MASK_GEN

/-- The live delay of the probed entry for the sampling tick processed in the current tick (07 R173 `BEAM_PROBE_DELAY`). -/
def State.beamProbe (s : State) (bk : Nat) : Int :=
  let w := s.nat Obj.BEAM_PROBE_SELECT bk
  let i := s.clk.info[3]?
  let t : Int := match i with | some i => i.tick | none => 0
  let ord := s.clk.ord - 3
  let b := (s.tabBlob Obj.BEAM_DELAY_SHADOW ord bk).toArray
  (beamDelay (delayEntry b (w / 256 % 32) (w % 256)) (t - s.tabNat Obj.BEAM_EPOCH ord bk)).1

/-- The cost of a beam in Mb/s: 8,192 at 8+8 bits over 16 banks (07 R167). -/
def beamCost (wide : Bool) (banks : Nat) : Nat :=
  512 * (if wide then 2 else 1) * ((List.range 16).filter (bitOf banks)).length

/-- The cost in Mb/s of a set of beams under enables, widths and banks (07 R167, 16 R383). -/
def mixBeamCost (enable wide : Nat) (banks : Nat → Nat) (shed : Nat → Bool) : Nat :=
  (List.range 32).foldl (fun a b => if bitOf enable b && !shed b then a + beamCost (bitOf wide b) (banks b) else a) 0

end Sys2Proof.Machine
end

