-- ==== Sys2Proof/Machine/Lanes.lean ====
section
/-! DEFINITION. Cizil lanes: groups, bring-up, equalisation, exchange, control-symbol queues (15). -/

namespace Sys2Proof.Machine

/-- A lane's state. -/
def State.ln (s : State) (l : Nat) : LnSt := smGet {} s.lanes l

/-- The state with a lane changed. -/
def State.setLn (s : State) (l : Nat) (f : LnSt → LnSt) : State := { s with lanes := smUpd {} s.lanes l f }

namespace Lane

/-- `LANE_STATE` values (15 R359). -/
def OFF : Nat := 0
/-- `DETECT`. -/
def DETECT : Nat := 1
/-- `TRAIN`. -/
def TRAIN : Nat := 2
/-- `BIT_LOCK`. -/
def BIT_LOCK : Nat := 3
/-- `SYMBOL_LOCK`. -/
def SYMBOL_LOCK : Nat := 4
/-- `EXCHANGE`. -/
def EXCHANGE : Nat := 5
/-- `ACTIVE`. -/
def ACTIVE : Nat := 6
/-- `BACKOFF`. -/
def BACKOFF : Nat := 7

/-- Whether a lane is of the downlink group (15 R332). -/
def down (l : Nat) : Bool := decide (l < 32)

/-- The lanes of a group. -/
def group (dn : Bool) : List Nat := if dn then List.range 32 else (List.range 16).map (· + 32)

/-- Payload of a lane in Mb/s by rate code (15 R333). -/
def payload (code : Nat) : Nat :=
  match code with | 0 => 2500 | 1 => 5000 | 2 => 8000 | _ => 10000

/-- Symbols of a lane in a tick by rate code (15 R333). -/
def symbols (code : Nat) : Nat :=
  match code with | 0 => 1250 | 1 => 2500 | 2 => 4000 | _ => 5000

end Lane

/-- `LANE_STATE` of a lane. -/
def State.laneState (s : State) (l : Nat) : Nat := s.nat Obj.LANE_STATE l

/-- The rate code of a lane's group (15 R333). -/
def State.laneRate (s : State) (l : Nat) : Nat :=
  if Lane.down l then s.nat Obj.LINK_RATE_DOWN else s.nat Obj.LINK_RATE_CASCADE

/-- Whether a lane's bit is set in its group mask (15 R332). -/
def State.laneMasked (s : State) (l : Nat) : Bool :=
  if Lane.down l then bitOf (s.nat Obj.LINK_DOWN_MASK) l else bitOf (s.nat Obj.LINK_CASCADE_MASK) (l - 32)

/-- Whether a lane is enabled: in its mask, and not disabled by command (15 R332, R340). -/
def State.laneEnabled (s : State) (l : Nat) : Bool := s.laneMasked l && !(s.ln l).disabled

/-- Whether a lane's crossing is flushed (02 R57). -/
def State.laneFlushing (s : State) (l : Nat) : Bool := s.clk.flushing.contains (.lane (Fin.ofNat 48 l))

/-- Whether what a lane receives reaches the module: not while the lane is `OFF` (15 R332), and not while its crossing is flushed (02 R57). -/
def State.laneHears (s : State) (l : Nat) : Bool := s.laneState l != Lane.OFF && !s.laneFlushing l

/-- `DOMINO_ROLE` values (10 R230). -/
def roleLEAF : Int := 0
/-- `ROOT`. -/
def roleROOT : Int := 1
/-- `STANDALONE`. -/
def roleSTANDALONE : Int := 2

/-- What a lane reads without a measurement. -/
def noDelay : Nat := 0xFFFFFFFF

/-- Whether a lane probes (10 R236), beside being in `ACTIVE`. -/
def State.domProbes (s : State) (l : Nat) : Bool :=
  (s.nat Obj.DOMINO_UP_LANE == l || s.nat Obj.DOMINO_DOWN_LANE == l) &&
  (s.val Obj.DOMINO_ROLE == roleLEAF || s.val Obj.DOMINO_ROLE == roleROOT) &&
  bitOf (leNat (slice (s.blob Obj.LINK_PARTNER_EXCH l) 10 2)) 1

/-- Lanes that do not probe read no delay (10 R236): as soon as a role, a lane or an exchange says so. -/
def State.domLinks (s : State) : State :=
  (List.range 48).foldl (fun s l =>
    if s.nat Obj.DOMINO_LINK_DELAY l != noDelay && !s.domProbes l then s.setVal Obj.DOMINO_LINK_DELAY noDelay l else s) s

/-- Whether any lane enabled in a group mask is declared down (15 R342). -/
def State.anyLaneDown (s : State) : Bool := (List.range 48).any fun l => s.laneMasked l && s.on Obj.LANE_DOWN l

/-- `SPEC_PARTNER_CAPABLE` from the downlink lanes in `ACTIVE` (15 R346). -/
def State.specCapable (s : State) : State :=
  let act := (List.range 32).filter fun l => s.laneState l == Lane.ACTIVE
  let ok := !act.isEmpty && act.all fun l => bitOf (leNat (slice (s.blob Obj.LINK_PARTNER_EXCH l) 10 2)) 0
  s.setVal Obj.SPEC_PARTNER_CAPABLE (if ok then 1 else 0)

/-- `LANE_STATE` set; the signal is timed from the entry into `DETECT`, clean symbols from that into `SYMBOL_LOCK` (15 R340); the
figure of merit reads 0 outside `TRAIN` to `ACTIVE` (15 R353). -/
def State.setLaneState (s : State) (l st : Nat) : State :=
  let s := (s.setVal Obj.LANE_STATE st l).setLn l fun x =>
    if st = Lane.DETECT then { x with detOrd := s.clk.ord } else if st = Lane.SYMBOL_LOCK then { x with cleanOrd := s.clk.ord } else x
  if 2 ≤ st ∧ st ≤ 6 then s else
    let fom := s.nat Obj.LANE_FOM l
    s.setVal Obj.LANE_FOM ((fom - fom % 256 : Nat) : Int) l

/-- A failure of a lane: run, count and cause; the eighth declares it down (15 R341, R342). -/
def State.laneFail (s : State) (l cause : Nat) : State :=
  let run := s.nat Obj.LANE_FAIL_RUN l
  let s := ((s.setVal Obj.LANE_FAIL_RUN (Nat.min 8 (run + 1) : Nat) l).inc Obj.LANE_FAIL_COUNT l).setVal Obj.LANE_LAST_FAIL cause l
  if run = 7 then (s.setVal Obj.LANE_DOWN 1 l).raise 0xC001 8 l (leBytes 1 cause) else s

/-- The frame link of a lane ends: its frames not acknowledged are to be resent on the other lanes (15 R355, 16 R360). -/
def State.laneUnlink (s : State) (l : Nat) : State :=
  let u := (s.ln l).unacked
  let s : State := { s with fr := if Lane.down l then { s.fr with resendDown := s.fr.resendDown ++ u }
                                  else { s.fr with resendCasc := s.fr.resendCasc ++ u } }
  s.setLn l fun x => { x with unacked := [], ctrl := [], syms := 0, replaySyms := 0, stuckReplays := 0, used := 0, limit := 0,
                              nakDue := false, nakDone := false, linkDue := false, actOrd := 0 }

/-- A lane leaves `ACTIVE`, if it is in it (15 R341): counted, and a failure within 250,000 ticks of the entry. -/
def State.laneLeave (s : State) (l : Nat) : State :=
  if s.laneState l != Lane.ACTIVE then s else
    let entered := (s.ln l).actOrd
    let s := (s.inc Obj.LANE_DROP_COUNT l).laneUnlink l
    if s.clk.ord < entered + 250000 then s.laneFail l 8 else s

/-- A lane to a state, with what leaving `ACTIVE` entails. -/
def State.laneTo (s : State) (l st : Nat) : State := ((s.laneLeave l).setLaneState l st).specCapable

/-- A preset word of the board table (15 R347). -/
def State.presetWord (s : State) (p : Nat) : Nat := leNat (slice (s.blob Obj.EQ_PRESET_TABLE) (4 * p) 4)

/-- Entry into `TRAIN`: settings taken, offsets from zero, the train timer starts (15 R340, R348, R349). -/
def State.laneTrain (s : State) (l : Nat) : State :=
  let s := s.laneTo l Lane.TRAIN
  let compat := s.val Obj.LANE_EQ_MODE l == 1
  let w := s.presetWord (s.nat Obj.LANE_PRESET l)
  let peak : Nat := if compat then s.nat Obj.LANE_COMPAT_PEAKING l else w / 2 ^ 12 % 16
  let s := s.setLn l fun x => { x with trainOrd := s.clk.ord, sweepOrd := s.clk.ord, good := 0, eqCompat := compat, preset := w, sweeps := 0,
                                       peakUp := true, peakFom := none }
  ((s.setVal Obj.LANE_PEAKING_NOW peak l).setVal Obj.LANE_PHASE_OFFSET 0 l).setVal Obj.LANE_RX_OFFSET 0 l

/-- A failure that ends in `BACKOFF` (15 R340, R341). -/
def State.laneBackoff (s : State) (l cause : Nat) : State :=
  let s := (s.laneTo l Lane.BACKOFF).laneFail l cause
  s.setLn l fun x => { x with backOrd := s.clk.ord }

/-- The backoff in ticks after failure `f` of a run (15 R341). -/
def backoffTicks (f : Nat) : Nat := 250 * 2 ^ (Nat.min f 8 - 1)

/-- An enabled lane that is `OFF` in a mode with lanes goes to `DETECT` (15 R340). -/
def State.laneWake (s : State) (l : Nat) : State :=
  if Mode.lanes s.mode && s.laneEnabled l && s.laneState l == Lane.OFF then s.laneTo l Lane.DETECT else s

/-- A lane that is no longer enabled goes `OFF` (15 R340). -/
def State.laneCheck (s : State) (l : Nat) : State :=
  if s.laneEnabled l then s.laneWake l
  else if s.laneState l = Lane.OFF then s else s.laneTo l Lane.OFF

/-- The lanes after a write of a group mask, and at entry into SAFE (15 R332, R358). -/
def State.lanesCheck (s : State) : State := (List.range 48).foldl State.laneCheck s

/-- `LANE_DOWN` cleared, with event `LANE_UP` when it was set (15 R342). -/
def State.laneUp (s : State) (l : Nat) : State :=
  if s.on Obj.LANE_DOWN l then (s.setVal Obj.LANE_DOWN 0 l).raise 0xC002 8 l [] else s

/-- `LANE_CMD` `RESET` (15 R340, R342, R358; the reset crosses under 02 R57). Assumption log 55, DEDUCED. -/
def State.laneReset (s : State) (l : Nat) : State :=
  let s := s.laneTo l (if s.laneEnabled l && Mode.lanes s.mode then Lane.DETECT else Lane.OFF)
  let s := (s.setVal Obj.LANE_FAIL_RUN 0 l).laneUp l
  { s with clk := { s.clk with flushing :=
      if s.clk.flushing.contains (.lane (Fin.ofNat 48 l)) then s.clk.flushing else s.clk.flushing ++ [.lane (Fin.ofNat 48 l)] } }

/-- The effect of an accepted `LANE_CMD` (15 R340, R359). -/
def State.writeLaneCmd (s : State) (l : Nat) (v : Int) : State :=
  if v = 1 then s.laneReset l
  else (s.setLn l fun x => { x with disabled := v == 2 }).laneCheck l

/-- The effect of an accepted write of a group's line rate: kept for the next boundary (15 R333). -/
def State.writeLinkRate (s : State) (cascade : Bool) (v : Nat) : State :=
  { s with fr := if cascade then { s.fr with rateCasc := some v } else { s.fr with rateDown := some v } }

/-- A group's lanes return to `DETECT` with the failure run cleared (15 R333). -/
def State.rateApply (s : State) (dn : Bool) (v : Nat) : State :=
  let s := s.setVal (if dn then Obj.LINK_RATE_DOWN else Obj.LINK_RATE_CASCADE) v
  let step (s : State) (l : Nat) : State :=
    let s := if s.laneState l = Lane.OFF then s else s.laneTo l Lane.DETECT
    s.setVal Obj.LANE_FAIL_RUN 0 l
  (Lane.group dn).foldl step s

/-- What a boundary does with the lanes: line rates written, the symbols sent in the tick, the capacities (15 R333, R356). -/
def State.lanesBoundary (s : State) : State :=
  let s := match s.fr.rateDown with | some v => s.rateApply true v | none => s
  let s := match s.fr.rateCasc with | some v => s.rateApply false v | none => s
  let drain (l : Nat) (x : LnSt) : LnSt :=
    let k := Lane.symbols (s.laneRate l)
    { x with syms := x.syms - k, replaySyms := x.replaySyms - k, creditStall := false, replayStall := false,
             ctrl := x.ctrl.filter fun c => decide (s.timeNow ≤ c.1), linkDue := x.linkDue || s.laneState l == Lane.ACTIVE }
  let s : State := { s with fr := { s.fr with rateDown := none, rateCasc := none }, lanes := smEach {} drain s.lanes }
  let cap (dn : Bool) (code : Nat) : Nat :=
    Lane.payload code * ((Lane.group dn).filter fun l => s.laneState l == Lane.ACTIVE).length
  (s.setVal Obj.LINK_DOWN_CAPACITY (cap true (s.nat Obj.LINK_RATE_DOWN))).setVal Obj.LINK_CASCADE_CAPACITY
    (cap false (s.nat Obj.LINK_RATE_CASCADE))

/-! ### What a transmitter sends (15 R335, R339) -/

/-- A code group of 8b/10b: a special one `Kx.y` or a data one `Dx.y` (15 R334). -/
inductive CodeGroup where
  | k (x y : Nat) | d (x y : Nat)
deriving DecidableEq, Repr

/-- A training sequence (15 R335). -/
def trainingSequence : List CodeGroup := .k 28 5 :: List.replicate 15 (.d 21 5)

/-- What a lane's transmitter sends. -/
inductive LaneTx where
  | electricalIdle | commas | training | exchange | traffic
deriving DecidableEq, Repr

/-- What a lane's transmitter sends in its state (15 R339): exchange messages stand 256 symbols apart with K28.5 between. -/
def State.laneSends (s : State) (l : Nat) : LaneTx :=
  let st := s.laneState l
  if st = Lane.OFF ∨ st = Lane.BACKOFF then .electricalIdle
  else if st = Lane.DETECT then .commas
  else if st = Lane.EXCHANGE then .exchange
  else if st = Lane.ACTIVE then .traffic
  else .training

/-! ### Bring-up (15 R340) -/

/-- `LANE_SIGNAL_PRESENT`: a signal present for 256 ticks in `DETECT` (15 R340). -/
def execLaneSignalPresent (l : Ln) (s : State) : Out :=
  .next (if s.laneState l = Lane.DETECT ∧ (s.ln l).detOrd + 256 ≤ s.clk.ord then s.laneTrain l else s)

/-- One step towards a centre, within ±16 steps (15 R351). -/
def adaptStep (now centre : Int) : Int :=
  clampInt (-16) 16 (if centre > 0 then now + 1 else if centre < 0 then now - 1 else now)

/-- The peaking after a sweep in compatibility mode (15 R351). -/
def State.adaptPeaking (s : State) (l fom : Nat) : State :=
  let x := s.ln l
  let p := s.nat Obj.LANE_PEAKING_NOW l
  -- judge the step made at the sweep before
  let (p, up) := match x.peakFom with
    | none => (p, x.peakUp)
    | some f => if f ≤ fom then (p, x.peakUp) else (if x.peakUp then p - 1 else p + 1, !x.peakUp)
  let n := x.sweeps + 1
  if n % 2 = 1 then
    (s.setLn l fun x => { x with sweeps := n, peakUp := up, peakFom := none }).setVal Obj.LANE_PEAKING_NOW p l
  else
    let up := if up && p == 15 then false else if !up && p == 0 then true else up
    (s.setLn l fun x => { x with sweeps := n, peakUp := up, peakFom := some fom }).setVal Obj.LANE_PEAKING_NOW
      (if up then p + 1 else p - 1 : Nat) l

/-- A sweep's result, once in 256 ticks: the figure of merit, the adaptation, and the lock of `TRAIN` (15 R340, R350-R353). -/
def State.laneSweep (s : State) (l : Nat) (e : Eye) : State :=
  let st := s.laneState l
  if st < Lane.TRAIN ∨ Lane.ACTIVE < st ∨ s.laneFlushing l ∨ s.clk.ord < (s.ln l).sweepOrd + 256 then s else
    let s := s.setLn l fun x => { x with sweepOrd := s.clk.ord }
    let fom := Nat.min 255 (e.w * e.h / 16)
    let frozen := st == Lane.ACTIVE && decide (58982 < e.idle)
    let adapt := s.on Obj.LANE_ADAPT l
    let s := s.setVal Obj.LANE_FOM ((fom + (if frozen then 2 ^ 15 else 0) + (if adapt then 0 else 2 ^ 14) : Nat) : Int) l
    let s := if adapt && !frozen then
        let s := s.setVal Obj.LANE_PHASE_OFFSET (adaptStep (s.val Obj.LANE_PHASE_OFFSET l) e.phaseCentre) l
        let s := s.setVal Obj.LANE_RX_OFFSET (adaptStep (s.val Obj.LANE_RX_OFFSET l) e.voltCentre) l
        if (s.ln l).eqCompat then s.adaptPeaking l fom else s
      else s
    if st != Lane.TRAIN then s else
      let good := e.locked && decide (s.nat Obj.LANE_FOM_MIN l ≤ fom) && !frozen
      let n := if good then (s.ln l).good + 1 else 0
      let s := s.setLn l fun x => { x with good := n }
      if n ≥ 2 then s.laneTo l Lane.BIT_LOCK else s

/-- `LANE_EYE_SWEEP` (15 R350). -/
def execLaneEyeSweep (l : Ln) (e : Eye) (s : State) : Out := .next (s.laneSweep l e)

/-- `LANE_BIT_LOCK`. -/
def execLaneBitLock (l : Ln) (s : State) : Out :=
  .next (if s.laneState l = Lane.BIT_LOCK ∧ s.laneFlushing l = false then s.laneTo l Lane.SYMBOL_LOCK else s)

/-- Whether 65,536 clean symbols may have passed since the last error in `SYMBOL_LOCK` (15 R333, R340). -/
def State.symbolsClean (s : State) (l : Nat) : Bool :=
  decide (65536 ≤ Lane.symbols (s.laneRate l) * (s.clk.ord + 1 - (s.ln l).cleanOrd))

/-- Entry into `EXCHANGE`: the exchange timer starts and a new exchange begins (15 R340, R343, R344). -/
def State.laneExchange (s : State) (l : Nat) : State :=
  (s.laneTo l Lane.EXCHANGE).setLn l fun x => { x with
    exchOrd := s.clk.ord, exchId := (x.exchId + 1) % 2 ^ 32, gotValid := false, gotAck := false, sentAck := 0 }

/-- The credits a lane's receiver grants at first (16 R367). -/
def initialGrant (l : Nat) : Nat := if Lane.down l then 256 else 1024

/-- The exchange message a lane sends (15 R343). -/
def State.exchMsg (s : State) (l : Nat) : BitVec 128 :=
  let x := s.ln l
  let cap := s.nat Obj.LINK_ADVERTISE % 4 + (if s.val Obj.LANE_EQ_MODE l = 1 then 4 else 0)
  let hi : Nat := 0xE * 2 ^ 60 + 2 ^ 56 + s.nat Obj.MODULE_NUMBER % 4096 * 2 ^ 44 + l * 2 ^ 38 +
    (if Lane.down l then 0 else 1) * 2 ^ 36 + s.laneRate l * 2 ^ 34 + (if x.gotValid then 2 ^ 33 else 0) +
    cap * 2 ^ 16 + initialGrant l
  let body := leBytes 2 0 ++ leBytes 4 x.exchId ++ leBytes 8 hi
  BitVec.ofNat 128 (leNat (leBytes 2 (crc16 body) ++ body))

/-- `EXCHANGE_MESSAGE_SEND` (15 R339, R344). -/
def execExchangeMessageSend (l : Ln) (s : State) : Out :=
  .next (if s.laneState l = Lane.EXCHANGE then
    s.setLn l fun x => { x with exchTx := some (s.exchMsg l), sentAck := if x.gotAck then x.sentAck + 1 else x.sentAck }
  else s)

/-- Whether an exchange message is valid: CRC, `KIND` and reserved bits (15 R343, R344). -/
def exchValid (m : BitVec 128) : Bool :=
  let b := leBytes 16 m.toNat
  crc16 (b.drop 2) == leNat (b.take 2) && m.toNat / 2 ^ 124 == 0xE && !m.toNat.testBit 96 && m.toNat / 2 ^ 16 % 2 ^ 16 == 0

/-- Why a valid partner message is refused, if it is (15 R345). -/
def State.exchRefusal (s : State) (l : Nat) (m : Nat) : Option Nat :=
  let role := m / 2 ^ 100 % 4
  let module := m / 2 ^ 108 % 4096
  let other := (Lane.group (Lane.down l)).any fun k =>
    k != l && s.laneState k == Lane.ACTIVE && leNat (slice (s.blob Obj.LINK_PARTNER_EXCH k) 0 16) / 2 ^ 108 % 4096 != module
  let domino := (s.nat Obj.DOMINO_UP_LANE == l || s.nat Obj.DOMINO_DOWN_LANE == l) && s.val Obj.DOMINO_TRANSPORT == 0
  if m / 2 ^ 120 % 16 != 1 then some 3
  else if m / 2 ^ 98 % 4 != s.laneRate l then some 4
  else if (if Lane.down l then !(role == 1 || role == 2) else role != 0) then some 5
  else if other then some 6
  else if domino && !m.testBit 81 then some 7
  else none

/-- A message received in `EXCHANGE`: kept, or refused with a failure (15 R344, R345). -/
def State.exchReceive (s : State) (l : Nat) (m : BitVec 128) : State :=
  if s.laneState l != Lane.EXCHANGE || s.laneFlushing l || !exchValid m then s else
    let s := (s.setBlob Obj.LINK_PARTNER_EXCH (leBytes 16 m.toNat) l).domLinks
    match s.exchRefusal l m.toNat with
    | some cause => s.laneBackoff l cause
    | none => s.setLn l fun x => { x with gotValid := true, gotAck := x.gotAck || m.toNat.testBit 97 }

/-- `EXCHANGE_MESSAGE` (15 R344, R345). -/
def execExchangeMessage (l : Ln) (m : BitVec 128) (s : State) : Out := .next (s.exchReceive l m)

/-- Entry into `ACTIVE` (15 R341, R342, R344; 16 R364, R367): the run ends, numbering and credits start. -/
def State.laneActive (s : State) (l : Nat) : State :=
  let s := ((s.laneTo l Lane.ACTIVE).setVal Obj.LANE_FAIL_RUN 0 l).laneUp l
  let grant := leNat (slice (s.blob Obj.LINK_PARTNER_EXCH l) 8 2)
  let s := s.setLn l fun x => { x with
    actOrd := s.clk.ord, txAlive := 0, unacked := [], lastAck := 255, stuckReplays := 0, replaySyms := 0, syms := 0
    ackOrd := s.clk.ord, used := 0, limit := grant, rxNext := 0, rxLimit := initialGrant l, nakDue := false, nakDone := false, linkDue := true
    ctrl := [], ctrlFree := 0 }
  s.specCapable

/-- `LANE_ENTER_ACTIVE` (15 R344). -/
def execLaneEnterActive (l : Ln) (s : State) : Out :=
  .next (if s.laneState l = Lane.EXCHANGE ∧ (s.ln l).gotAck = true ∧ 4 ≤ (s.ln l).sentAck then s.laneActive l else s)

/-- `LANE_TRAIN_TIMEOUT`: 2,500 ticks after the entry into `TRAIN` (15 R340). -/
def execLaneTrainTimeout (l : Ln) (s : State) : Out :=
  .next (
    let st := s.laneState l
    if Lane.TRAIN ≤ st ∧ st ≤ Lane.SYMBOL_LOCK ∧ (s.ln l).trainOrd + 2500 ≤ s.clk.ord then s.laneBackoff l 1 else s)

/-- `LANE_EXCHANGE_TIMEOUT`: 1,250 ticks after the entry into `EXCHANGE` (15 R340). -/
def execLaneExchangeTimeout (l : Ln) (s : State) : Out :=
  .next (if s.laneState l = Lane.EXCHANGE ∧ (s.ln l).exchOrd + 1250 ≤ s.clk.ord then s.laneBackoff l 2 else s)

/-- `LANE_LOSS_OF_SIGNAL` (15 R340); in `DETECT` the signal is timed afresh. -/
def execLaneLossOfSignal (l : Ln) (s : State) : Out :=
  .next (
    let st := s.laneState l
    if Lane.DETECT ≤ st ∧ st ≤ Lane.ACTIVE then s.laneTo l Lane.DETECT else s)

/-- `LANE_ERROR_RETRAIN`: the errors of 65,536 received symbols (15 R334, R340); a lane that is `OFF` ignores its receiver (R332). -/
def execLaneErrorRetrain (l : Ln) (errors : Nat) (s : State) : Out :=
  .next (if !s.laneHears l then s else
    let s := s.inc Obj.LANE_CODE_ERR_COUNT l (n := errors)
    let s := if s.laneState l = Lane.SYMBOL_LOCK ∧ 0 < errors then s.setLn l fun x => { x with cleanOrd := s.clk.ord } else s
    if s.laneState l = Lane.ACTIVE ∧ 64 < errors then s.laneTrain l else s)

/-- `LANE_PARTNER_RETRAIN` (15 R340). -/
def execLanePartnerRetrain (l : Ln) (s : State) : Out :=
  .next (if s.laneState l = Lane.ACTIVE ∧ s.laneFlushing l = false then s.laneTrain l else s)

/-- `LANE_BACKOFF_END` (15 R341). -/
def execLaneBackoffEnd (l : Ln) (s : State) : Out :=
  .next (if s.laneState l = Lane.BACKOFF ∧ (s.ln l).backOrd + backoffTicks (s.nat Obj.LANE_FAIL_RUN l) ≤ s.clk.ord then
    s.laneTo l Lane.DETECT else s)

/-! ### Control-symbol sequences (15 R337, R338) -/

/-- The time of a 17-symbol sequence in TU, rounded up (15 R333, R337). -/
def seqTime (code : Nat) : Nat :=
  match code with | 0 => 7131 | 1 => 3566 | 2 => 2229 | _ => 1783

/-- A time set moves the times of the queued sequences with the Kloif time (02 R50). -/
def State.ctrlStep (s : State) (old new : Nat) : State :=
  let move (v : Nat) : Nat := v + new - old
  { s with lanes := smEach {} (fun _ (x : LnSt) => { x with ctrl := x.ctrl.map fun c => (move c.1, c.2), ctrlFree := move x.ctrlFree }) s.lanes }

/-- Queues a Domino sequence on a lane at a time: dropped and counted when the lane is not in `ACTIVE` or 16 wait
(15 R338). -/
def State.sendCtrl (s : State) (l : Nat) (time : Nat) (m : BitVec 128) : State :=
  let x := s.ln l
  let wait := x.ctrl.filter fun c => decide (time < c.1)
  if s.laneState l != Lane.ACTIVE || decide (16 ≤ wait.length) then s.inc Obj.LANE_CTRL_TX_DROP_COUNT l
  else
    let start := Nat.max time x.ctrlFree
    s.setLn l fun x => { x with ctrl := wait ++ [(start, m)], ctrlFree := start + seqTime (s.laneRate l) }

end Sys2Proof.Machine
end

