-- ==== Sys2Proof/Machine/Framer.lean ====
section
/-! DEFINITION. The framer: product frames, queues, shares and buckets, hand-out, acknowledgement and replay (16). -/

namespace Sys2Proof.Machine

/-- The state with the framer changed. -/
def State.setFr (s : State) (f : Framer → Framer) : State := { s with fr := f s.fr }

/-! ### Queues -/

/-- Takes `len` bytes of the output queues region: where they lie; the granules written lose their marks. Assumption log 68, DESIGN CHOICE. -/
def State.queuePlace (s : State) (len : Nat) : Nat × State :=
  let n := (len + 23) / 8 * 8
  let p := if s.fr.qptr + n ≤ 2 ^ 31 then s.fr.qptr else 0
  (p, (s.clearPoison (queueBase + p) n).setFr fun x => { x with qptr := p + n })

/-- Queues a frame. Assumption log 68, DESIGN CHOICE. -/
def State.queueFrame (s : State) (cls vc type : Nat) (payload : List Byte) (charge : Nat := 0) (drops : Nat := 0)
    (cand : Nat := 8192) (isLast : Bool := false) : State :=
  let (place, s) := s.queuePlace payload.length
  s.setFr fun x => { x with queue := x.queue ++
    [{ cls, vc, type, payload, born := s.clk.ord, charge, drops, cand, isLast, place }] }

/-- Whether a queued frame's bytes are marked poison (18 R432). -/
def State.framePoisoned (s : State) (place len : Nat) : Bool := s.poisoned (queueBase + place) (len + 16)

/-- The bytes that queued frames take of the output queues region (16 R384). -/
def State.queueUsed (s : State) : Nat := s.fr.queue.foldl (fun a f => a + (f.payload.length + 23) / 8 * 8) 0

/-- A payload with `POISON` set in its product header (18 R432). -/
def poisonHeader (p : List Byte) : List Byte := modNth p 9 fun b => b ||| 0x02

/-- A payload filled with zero bytes to a multiple of four (16 R360). -/
def pad4 (l : List Byte) : List Byte := l ++ List.replicate ((4 - l.length % 4) % 4) 0

/-- The product header of VC2 to VC7 (16 R371). -/
def productHeader (ref : Nat) (cond : Cond) (sel first count aux : Nat) : List Byte :=
  leBytes 2 aux ++ leBytes 2 count ++ leBytes 2 first ++ leBytes 2 sel ++ leBytes 2 cond.toNat ++ leBytes 6 ref

/-- A requantised sample as its 16-bit word (05 R130). -/
def sampleWord (re im : Int) : Nat := toTwos 8 re * 256 + toTwos 8 im

/-- A beam sample's bytes (07 R166). -/
def beamBytes (wide : Bool) (v : Int × Int) : List Byte :=
  if wide then leBytes 4 (toTwos 16 v.1 * 65536 + toTwos 16 v.2) else leBytes 2 (sampleWord v.1 v.2)

/-! ### The mix (16 R380-R383) -/

/-- An allocation of the live mix in Mb/s (0 suppressed, 1 spectra, 2 records, 3 hits, 4 cascade). -/
def State.alloc (s : State) (c : Nat) : Nat :=
  (s.liveVal (match c with
    | 0 => Obj.LINK_ALLOC_SUPP | 1 => Obj.LINK_ALLOC_SPECTRA | 2 => Obj.LINK_ALLOC_REC | 3 => Obj.LINK_ALLOC_HIT
    | _ => Obj.LINK_ALLOC_CASCADE)).toNat

/-- The beam cost of the live mix. -/
def State.liveBeamCost (s : State) (shed : Nat → Bool) : Nat :=
  mixBeamCost (s.liveVal Obj.BEAM_ENABLE).toNat (s.liveVal Obj.BEAM_WIDE).toNat
    (fun b => (s.liveVal Obj.BEAM_BANKS 0 (b + 1)).toNat) shed

/-- Sheds the highest-numbered beams until the cost fits (16 R383): the mask of shed beams. -/
def shedBeams (cost : (Nat → Bool) → Nat) (enable p : Nat) : Nat → Nat → Nat
  | 0, shed => shed
  | n + 1, shed =>
    if cost (bitOf shed) ≤ p then shed
    else shedBeams cost enable p n (if bitOf enable n then setBit shed n else shed)

/-- One byte in bucket units (assumption log 23, DESIGN CHOICE). -/
def bucketUnit : Nat := 2 ^ 150

/-- The bucket of a class. -/
def State.bucket (s : State) (c : Nat) : Nat := smGet 0 s.fr.buckets c

/-- Charges a class. -/
def State.chargeBucket (s : State) (c bytes : Nat) : State :=
  s.setFr fun x => { x with buckets := smPut 0 x.buckets c (smGet 0 x.buckets c - bytes * bucketUnit) }

/-- Whether a class's bucket covers a charge (16 R381). -/
def State.covers (s : State) (c bytes : Nat) : Bool := decide (bytes * bucketUnit ≤ s.bucket c)

/-- The framer at a boundary: planning capacity, shed beams, share factor, buckets (16 R381, R383). -/
def State.shareUpdate (s : State) : State :=
  let p := s.nat Obj.LINK_DOWN_CAPACITY * 96 / 100
  let all := s.liveBeamCost fun _ => false
  let n := (List.range 5).foldl (fun a c => a + s.alloc c) 0
  let fits := decide (all + n ≤ p)
  let shed := if fits then 0 else
    shedBeams s.liveBeamCost (s.liveVal Obj.BEAM_ENABLE).toNat p 32 0
  let sCost := s.liveBeamCost (bitOf shed)
  let f := if fits || n == 0 || decide (n ≤ p - sCost) then 0x3F800000 else f32OfRat (p - sCost : Nat) n
  let depth := s.nat Obj.LINK_ALLOC_DEPTH
  let gain (c : Nat) : Nat := (f32Num f).toNat * s.alloc c
  let cap (c : Nat) : Nat := depth * s.alloc c * (bucketUnit / 2)
  let b := (List.range 5).foldl (fun m c => smPut 0 m c (Nat.min (cap c) (smGet 0 m c + gain c))) s.fr.buckets
  let s := s.setFr fun x => { x with buckets := b }
  let s := (s.setVal Obj.LINK_PLAN_CAPACITY p).setVal Obj.LINK_PLAN_USED (all + n : Nat)
  (s.setVal Obj.LINK_SHARE_FACTOR f).setVal Obj.LINK_BEAMS_SHED shed

/-- Whether the shares are reduced: `DEGRADED` in `TICK` (16 R383). -/
def State.sharesShort (s : State) : Bool :=
  s.val Obj.LINK_SHARE_FACTOR != 0x3F800000 || s.on Obj.LINK_BEAMS_SHED

/-- A class reported exceeded in the tick (16 R382): 0 suppressed, 1 records, 2 hits. -/
def State.reportExceeded (s : State) (c : Nat) : State :=
  if bitOf s.fr.exceeding c then s else
    (s.setFr fun x => { x with exceeding := setBit x.exceeding c }).inc Obj.ALLOC_EXCEEDED_COUNT 0 (c + 1)

/-- Counts drops (16 R382): 1 beam-ticks, 2 items, 3 spectra frames, 4 words. -/
def State.countDrops (s : State) (sub n : Nat) : State :=
  (s.inc Obj.FRAME_DROP_COUNT 0 sub n).setFr fun x => { x with secDrops := x.secDrops + n }

/-! ### Products of a boundary -/

/-- The banks of a beam's group (07 R167, 16 R373). -/
def groupBanks (wide : Bool) (g : Nat) : List Nat :=
  if wide then (List.range 4).map (4 * g + ·) else (List.range 8).map (8 * g + ·)

/-- Frames one beam of one sampling tick (16 R372, R373). -/
def State.frameBeam (s : State) (o : BeamOut) : State :=
  let gs := if o.wide then List.range 4 else List.range 2
  gs.foldl (fun s g =>
    let bks := (groupBanks o.wide g).filter (bitOf o.banks)
    if bks.isEmpty then s else
      let first := if o.wide then 512 * g else 1024 * g
      let sel := ofBits ((groupBanks o.wide g).map (bitOf o.banks)) * 256 + (if o.wide then 128 else 0) + g * 32 + o.beam
      let cond := bks.foldl (fun c bk => (List.range 16).foldl (fun c i => c ||| smGet 0 o.cond (16 * bk + i)) c) (0 : Cond)
      let table := (smList (0, 0) 2048 0 o.samples).toArray
      let body := bks.flatMap fun bk => (List.range 128).flatMap fun i => beamBytes o.wide (table.getD (128 * bk + i) (0, 0))
      s.queueFrame 3 2 1 (productHeader o.tick cond sel first (128 * bks.length) o.gen ++ body)) s

/-- Frames the beams formed in the tick that ends; shed beams are counted (16 R383). -/
def State.frameBeams (s : State) : State :=
  let shed := s.nat Obj.LINK_BEAMS_SHED
  let s := s.beams.foldl (fun s o => if bitOf shed o.beam then s.countDrops 1 1 else s.frameBeam o) s
  { s with beams := [] }

/-- The `MASK` frame of a slice (16 R372, R374). -/
def State.queueMask (s : State) (k : Nat) : State :=
  let x := s.sl k
  s.queueFrame 2 2 2 (productHeader x.maskRef 0 k 0 0 (s.nat Obj.MASK_GEN) ++ leBytes 32 x.exclude ++ leBytes 32 x.chanMask)

/-- The `MASK` frames of a boundary: the slices whose masks changed, and one in rotation (16 R374). Assumption log 43, DEDUCED. -/
def State.frameMasks (s : State) : State :=
  let s := s.fr.masksChanged.foldl State.queueMask s
  let k := s.fr.maskRot
  (s.queueMask k).setFr fun x => { x with maskRot := (k + 1) % 256, masksChanged := [] }

/-- An item's 64-bit word (06 R145). -/
def Item.word (x : Item) (k : Nat) : Nat :=
  x.cond.toNat * 2 ^ 48 + sampleWord x.re x.im * 2 ^ 32 + x.kind * 2 ^ 30 + x.age * 2 ^ 26 + 2048 * k + x.ctx

/-- Frames the slice groups of one sampling tick (16 R372, R376, R382). Assumption log 43, DEDUCED. -/
def State.frameSupp (s : State) (t : Nat) : State :=
  let order := (List.range 256).map fun i => (s.fr.suppStart + i) % 256
  let groups := order.filterMap fun k => let l := (s.sl k).items; if l.isEmpty then none else some (k, l)
  let rec take : List (Nat × List Item) → Nat → List (Nat × List Item)
    | [], _ => []
    | g :: r, used =>
      let n := used + 8 * g.2.length
      if s.covers 0 n then g :: take r n else []
  let kept := take groups 0
  let lost := (groups.drop kept.length).foldl (fun a g => a + g.2.length) 0
  let s := s.chargeBucket 0 (8 * kept.foldl (fun a g => a + g.2.length) 0)
  let s := if lost = 0 then s else
    let s := (s.countDrops 2 lost).reportExceeded 0
    match kept.getLast? with
    | some g => s.setFr fun x => { x with suppStart := (g.1 + 1) % 256 }
    | none => s
  let items := kept.flatMap fun g => ((List.range g.2.length).zip g.2).map fun q => (g.1, q.1, q.2)
  let cs := chunks 510 (items.length + 1) items
  let flagLost := if lost = 0 then 0 else 2
  let s := if cs.isEmpty then s.queueFrame 4 3 1 (productHeader t 0 0 0 0 (1 + flagLost)) else
    ((List.range cs.length).zip cs).foldl (fun s q =>
      let cond := q.2.foldl (fun c i => c ||| i.2.2.cond) (0 : Cond)
      let head := match q.2 with | i :: _ => (i.1, i.2.1) | [] => (0, 0)
      let aux := (if q.1 + 1 = cs.length then 1 else 0) + flagLost
      s.queueFrame 4 3 1 (productHeader t cond head.1 head.2 q.2.length aux ++
        q.2.flatMap fun i => leBytes 8 (i.2.2.word i.1)) 0 q.2.length) s
  { s with slices := smEach {} (fun _ (x : SlSt) => { x with items := [] }) s.slices }

/-- Queues a spectrum as eight frames; when frames of the input's previous period still wait, they are dropped
(16 R372, R382). -/
def State.frameSpectrum (s : State) (x : Spectrum) : State :=
  let waits := s.fr.queue.any fun f => f.cls == 5 && f.cand == x.input
  if waits then s.countDrops 3 8 else
    (List.range 8).foldl (fun s j =>
      let body := leBytes 4 x.len ++ leBytes 4 x.mEff ++ (List.range 256).flatMap fun i =>
        leBytes 4 (nth 0 x.s1 (256 * j + i)) ++ leBytes 4 (nth 0 x.s2 (256 * j + i))
      s.queueFrame 5 4 1 (productHeader x.first x.cond x.input (256 * j) 256 0 ++ body) body.length 0 x.input) s

/-- The `TICK` payload (16 R370). -/
def TickHdr.payload (h : TickHdr) (prev : Nat) : List Byte :=
  leBytes 9 (h.tick * 2 ^ 19) ++ leInt 1 h.mode ++ leBytes 2 h.cond.toNat ++ leBytes 2 h.swapped ++ leBytes 2 prev ++
    leBytes 2 h.inputs ++ leBytes 1 h.prescale ++ leBytes 1 h.boost ++ leBytes 12 0

/-- Queues the `STATUS` frame of the second just ended (16 R377). -/
def State.queueStatus (s : State) : State :=
  let x := s.fr
  let act (dn : Bool) : Nat := ((Lane.group dn).filter fun l => s.laneState l == Lane.ACTIVE).length
  let quar := ((List.range 256).filter fun k => s.val Obj.ENG_STATE k == 4).length
  let p := leBytes 9 x.secStart ++ leBytes 1 0 ++ leBytes 2 x.secCond.toNat ++ leBytes 6 (s.nat Obj.TRIG_DEAD_TU) ++
    leBytes 2 x.secLate ++ leBytes 4 x.secAlloc ++ leBytes 4 x.secDrops ++ leBytes 4 x.secReplays ++ leBytes 1 (act true) ++
    leBytes 1 (act false) ++ leBytes 2 quar ++ leBytes 4 (s.nat Obj.FAULT_HEAD) ++ leBytes 8 0
  (s.queueFrame 0 0 2 p).setFr fun x => { x with
    secCond := 0, secLate := 0, secAlloc := 0, secDrops := 0, secReplays := 0, secStart := s.timeNow }

/-- Queues the `CODER_TAB` frame of a region (16 R378). -/
def State.queueCoderTab (s : State) (g first : Nat) : State :=
  let tab := slice (s.liveBlob Obj.CODER_TAB_SHADOW g) 0 137
  s.queueFrame 0 0 3 (leBytes 8 first ++ leBytes 1 g ++ leBytes 1 0 ++ leBytes 2 (s.nat Obj.TABLE_GEN g 10) ++ tab ++ leBytes 3 0)

/-! ### Hand-out (15 R355, 16 R366-R369, R384, R387) -/

/-- The credits a frame costs (16 R367). -/
def creditCost (len : Nat) : Nat := (len + 16 + 63) / 64

/-- Whether a lane of a group takes new frames: in `ACTIVE` since an earlier boundary (15 R355). -/
def State.laneOpen (s : State) (l : Nat) : Bool :=
  s.laneState l == Lane.ACTIVE && decide ((s.ln l).actOrd < s.clk.ord) && !s.laneFlushing l

/-- Whether the partner's credits allow a frame on a lane (16 R367): the comparison modulo 2³². -/
def LnSt.hasCredit (x : LnSt) (len : Nat) : Bool :=
  decide ((x.limit + 2 ^ 32 - (x.used + creditCost len) % 2 ^ 32) % 2 ^ 32 < 2 ^ 31)

/-- Whether the replay buffer has room for a frame (16 R366). -/
def LnSt.hasRoom (x : LnSt) (len : Nat) : Bool :=
  decide (x.unacked.length < 127) && decide (x.unacked.foldl (fun a f => a + f.payload.length + 16) (len + 16) ≤ 65536)

/-- The lane that takes a frame: the fewest symbols queued, then the lowest number (15 R355). Assumption log 55, DEDUCED. -/
def State.pickLane (s : State) (dn : Bool) (len : Nat) : Option Nat :=
  let can := (Lane.group dn).filter fun l => s.laneOpen l && (s.ln l).hasCredit len && (s.ln l).hasRoom len
  can.foldl (fun best l =>
    match best with
    | none => some l
    | some b => if (s.ln l).syms < (s.ln b).syms then some l else some b) none

/-- Marks the lanes that held a ready frame back, once a tick each (16 R366, R367). -/
def State.markStalls (s : State) (dn : Bool) (len : Nat) : State :=
  (Lane.group dn).foldl (fun s l =>
    if !s.laneOpen l then s else
      let x := s.ln l
      if !x.hasCredit len then
        if x.creditStall then s else (s.inc Obj.LANE_CREDIT_STALL_COUNT l).setLn l fun x => { x with creditStall := true }
      else if !x.hasRoom len then
        if x.replayStall then s else (s.inc Obj.LANE_REPLAY_STALL_COUNT l).setLn l fun x => { x with replayStall := true }
      else s) s

/-- Hands a frame to a lane (16 R364, R366, R367). -/
def State.giveLane (s : State) (l : Nat) (f : TxFrame) : State :=
  s.setLn l fun x => { x with
    txAlive := (x.txAlive + 1) % 256, ackOrd := if x.unacked.isEmpty then s.clk.ord else x.ackOrd, unacked := x.unacked ++ [{ f with alive := x.txAlive }]
    used := x.used + creditCost f.payload.length, syms := x.syms + f.payload.length + 18 }

/-- The header of a frame as sent (16 R361). -/
def TxFrame.header (f : TxFrame) : Nat :=
  f.vc * 2 ^ 93 + f.type * 2 ^ 88 + f.payload.length * 2 ^ 75 + f.alive * 2 ^ 64 + f.gseq * 2 ^ 32 + f.module * 2 ^ 20 + f.ftick

/-- The bytes of a frame between K27.7 and K29.7, in the order sent (16 R360-R362). -/
def TxFrame.bytes (f : TxFrame) : List Byte :=
  let b := leBytes 12 f.header ++ f.payload
  b ++ leBytes 4 (crc32c b)

/-- Takes the first element that `p` accepts out of a list. -/
def takeFirst {α : Type} (p : α → Bool) : List α → Option (α × List α)
  | [] => none
  | a :: r => if p a then some (a, r) else (takeFirst p r).map fun q => (q.1, a :: q.2)

/-- The bucket of a frame class, if it has one (16 R363, R381). -/
def classBucket (cls : Nat) : Option Nat :=
  match cls with
  | 5 => some 1
  | 7 => some 2
  | 8 => some 2
  | _ => none

/-- Whether a cascade lane is in `ACTIVE` (16 R387). -/
def State.cascadeUp (s : State) : Bool := (Lane.group false).any fun l => s.laneState l == Lane.ACTIVE

/-- Whether the merge hold of the first waiting `TICK` is over (16 R387): the cascade block is out, or the hold has run. -/
def State.holdEnded (s : State) (h : TickHdr) : Bool :=
  !s.cascadeUp || !s.fr.blockOpen || s.fr.holdOver || decide (h.ord + s.nat Obj.CASCADE_HOLD < s.clk.ord) ||
    (s.fr.cascOut.isEmpty && s.fr.cascDone == some (s.fr.block % 2 ^ 20))

/-- The next own frame that may be handed out: in class order, within a class in order of queuing, where its bucket
covers it; in HALT VC0 alone (16 R381, R384; 15 R358). What waits for a bucket goes before the later classes it is shared with
(13 R299). `before` bounds the boundary of queuing. -/
def State.nextFrame (s : State) (before : Option Nat) : Option (Frame × List Frame) :=
  let halt := s.mode == Mode.HALT
  let rec scan (short : List Nat) : List Nat → Option (Frame × List Frame)
    | [] => none
    | c :: r =>
      match takeFirst (fun f => f.cls == c) s.fr.queue with
      | none => scan short r
      | some (f, rest) =>
        let inBlock := match before with | some o => decide (f.born < o) | none => true
        let b := (classBucket c).toList
        let paid := b.all fun b => !short.contains b && s.covers b f.charge
        if inBlock && paid then some (f, rest) else scan (if inBlock then b ++ short else short) r
  scan [] (if halt then [0] else List.range 9)

/-- Hands out the `TICK` frame: a new block begins (16 R369, R370). -/
def State.handTick (s : State) (l : Nat) (h : TickHdr) : State :=
  if s.framePoisoned h.place 32 then
    (s.inc Obj.FRAME_POISON_DROP_COUNT).setFr fun x => { x with
      ticks := x.ticks.drop 1, block := h.tick, blockOpen := true, blockFrames := 0, holdOver := false }
  else
  let f : TxFrame := { vc := 0, type := 1, module := s.nat Obj.MODULE_NUMBER, ftick := h.tick % 2 ^ 20, gseq := s.fr.gseqDown
                       payload := h.payload s.fr.blockFrames }
  let s := (s.giveLane l f).inc Obj.FRAME_TX_COUNT 0 1
  s.setFr fun x => { x with ticks := x.ticks.drop 1, gseqDown := (x.gseqDown + 1) % 2 ^ 32, block := h.tick
                            blockOpen := true, blockFrames := 0, holdOver := false }

/-- How many blocks a cascade block lies behind the block in hand, modulo 2²⁰. -/
def State.cascAge (s : State) (b : CascBlock) : Nat := (s.fr.block % 2 ^ 20 + 2 ^ 20 - b.ftick) % 2 ^ 20

/-- A complete cascade block is opened for relaying: that of the block in hand once the own block has ended, or one whose
hold has expired, which is counted (16 R387). -/
def State.openCasc (s : State) : State :=
  if !s.fr.cascOut.isEmpty then s else
    let due (b : CascBlock) : Bool := b.complete &&
      (if s.cascAge b = 0 then !s.fr.ticks.isEmpty else decide (s.cascAge b < 2 ^ 19))
    match takeFirst due s.fr.casc with
    | none => s
    | some (b, rest) =>
      let s := s.setFr fun x => { x with casc := rest, cascOut := b.frames, cascDone := some b.ftick }
      if s.cascAge b = 0 then s else s.inc Obj.CASCADE_LATE_COUNT

/-- Raises the credits granted on a lane for a frame consumed that arrived at a boundary, unless the lane has left `ACTIVE` since
(16 R364, R367). -/
def State.returnCredit (s : State) (l at_ len : Nat) : State :=
  if s.laneState l != Lane.ACTIVE || decide (at_ < (s.ln l).actOrd) then s else s.setLn l fun x => { x with rxLimit := (x.rxLimit + creditCost len) % 2 ^ 32, linkDue := true }

/-- Relays the next frame of the open cascade block (16 R385). -/
def State.handCasc (s : State) (w : RxWait) (rest : List RxWait) : State :=
  let len := w.frame.payload.length
  if !s.covers 4 len then s else
    match s.pickLane true len with
    | none => s.markStalls true len
    | some l =>
      let f : TxFrame := { vc := w.frame.vc, type := w.frame.type_, module := w.frame.module.toNat, ftick := w.frame.ftick.toNat
                           gseq := s.fr.gseqDown, payload := w.frame.payload }
      let s := ((s.giveLane l f).chargeBucket 4 len).setFr fun x => { x with cascOut := rest, gseqDown := (x.gseqDown + 1) % 2 ^ 32 }
      s.returnCredit w.lane w.at_ len

/-- Hands out an own frame (16 R367-R369, R381; 18 R432). -/
def State.handOwn (s : State) (f : Frame) (rest : List Frame) : State :=
  let bad := s.framePoisoned f.place f.payload.length
  if bad && decide (f.vc < 2) then (s.inc Obj.FRAME_POISON_DROP_COUNT).setFr fun x => { x with queue := rest }
  else
  let f := if bad then { f with payload := poisonHeader f.payload } else f
  match s.pickLane true f.payload.length with
  | none => s.markStalls true f.payload.length
  | some l =>
    let t : TxFrame := { vc := f.vc, type := f.type, module := s.nat Obj.MODULE_NUMBER, ftick := s.fr.block % 2 ^ 20
                         gseq := s.fr.gseqDown, payload := f.payload, cand := f.cand }
    let s := (s.giveLane l t).inc Obj.FRAME_TX_COUNT 0 (f.vc + 1)
    let s := match classBucket f.cls with | some b => s.chargeBucket b f.charge | none => s
    s.setFr fun x => { x with queue := rest, gseqDown := (x.gseqDown + 1) % 2 ^ 32, blockFrames := x.blockFrames + 1 }

/-- A frame to be resent, or forwarded on the cascade group: whether a lane took it. -/
def State.handResend (s : State) (dn : Bool) (f : TxFrame) (drop : Framer → Framer) : Bool × State :=
  match s.pickLane dn f.payload.length with
  | none => (false, s.markStalls dn f.payload.length)
  | some l => (true, (s.giveLane l f).setFr drop)

/-- What waits for the cascade group: frames to be resent, then frames forwarded (15 R355; 16 R388). Whether one was handed out; one
that waits there holds up no frame of the downlink group. -/
def State.handUp (s : State) : Bool × State :=
  match s.fr.resendCasc with
  | f :: r => s.handResend false f fun x => { x with resendCasc := r }
  | [] =>
    match s.fr.fwdCasc with
    | f :: r => s.handResend false { f with gseq := s.fr.gseqCasc } fun x =>
        { x with fwdCasc := r, gseqCasc := (x.gseqCasc + 1) % 2 ^ 32 }
    | [] => (false, s)

/-- Whether the lanes carry frames of a virtual channel: in HALT VC0 alone (15 R358). -/
def State.carries (s : State) (vc : Nat) : Bool := s.mode != Mode.HALT || vc == 0

/-- What the framer hands out next, one frame, and the frame it was (16 R369, R384, R387). -/
def State.handout (s : State) : Option Frame × State :=
  let up := s.openCasc.handUp
  let s := up.2
  if up.1 then (none, s) else
  match takeFirst (fun f => s.carries f.vc) s.fr.resendDown with
  | some (f, r) => (none, (s.handResend true f fun x => { x with resendDown := r }).2)
  | none =>
    let own (before : Option Nat) (s : State) : Option (Option Frame × State) :=
      (s.nextFrame before).map fun q =>
        let t := s.handOwn q.1 q.2
        (if t.fr.queue.length < s.fr.queue.length then some q.1 else none, t)
    let casc (s : State) : State :=
      match takeFirst (fun w => s.carries w.frame.vc) s.fr.cascOut with
      | none => s
      | some (w, r) => s.handCasc w r
    match s.fr.ticks with
    | [] => match own none s with | some q => q | none => (none, casc s)
    | h :: _ =>
      if s.holdEnded h then
        match s.pickLane true 32 with
        | none => (none, s.markStalls true 32)
        | some l => (none, s.handTick l h)
      else match own (some h.ord) s with | some q => q | none => (none, casc s)

/-- A frame dropped by age is counted under its class (16 R382, R384). Assumption log 56, DEDUCED. -/
def State.ageDrop (s : State) : State :=
  let lim := s.nat Obj.LINK_QUEUE_LIMIT
  let old (f : Frame) : Bool := (f.cls == 3 || f.cls == 4 || f.cls == 6) && decide (f.born + lim < s.clk.ord)
  let gone := s.fr.queue.filter old
  let beamTicks := ((gone.filter fun f => f.cls == 3).map fun f => (f.born, (nth 0 f.payload 6).toNat % 32)).eraseDups.length
  let sum (c : Nat) : Nat := (gone.filter fun f => f.cls == c).foldl (fun a f => a + f.drops) 0
  let s := s.setFr fun x => { x with queue := x.queue.filter fun f => !old f }
  let s := if beamTicks = 0 then s else s.countDrops 1 beamTicks
  let s := if sum 4 = 0 then s else s.countDrops 2 (sum 4)
  if sum 6 = 0 then s else s.countDrops 4 (sum 6)

/-- `QUEUE_AGE_DROP` (16 R384). -/
def execQueueAgeDrop (s : State) : Out := .next s.ageDrop

/-- `CASCADE_HOLD_EXPIRE` (16 R387): the hold of the waiting `TICK` has run. -/
def execCascadeHoldExpire (s : State) : Out :=
  .next (match s.fr.ticks with
    | h :: _ => if h.ord + s.nat Obj.CASCADE_HOLD ≤ s.clk.ord then s.setFr fun x => { x with holdOver := true } else s
    | [] => s)

/-! ### Acknowledgement and replay (16 R364-R366) -/

/-- A replay of a lane that is due; where eight have run without progress the lane is reset instead (16 R366). Assumption log 56,
DEDUCED. -/
def State.replay (s : State) (l : Nat) : State :=
  let x := s.ln l
  if s.laneState l != Lane.ACTIVE || x.unacked.isEmpty || decide (0 < x.replaySyms) then s
  else if 8 ≤ x.stuckReplays then s.laneReset l
  else
    let s := (s.inc Obj.LANE_REPLAY_COUNT l).setFr fun y => { y with secReplays := y.secReplays + 1 }
    let k := x.unacked.foldl (fun a f => a + f.payload.length + 18) 0
    s.setLn l fun x => { x with stuckReplays := x.stuckReplays + 1, replaySyms := k, syms := x.syms + k, ackOrd := s.clk.ord }

/-- A received `LINK` frame (16 R364, R366, R367). -/
def State.linkReceive (s : State) (l : Nat) (w : Nat) : State :=
  if s.laneState l != Lane.ACTIVE || s.laneFlushing l then s else
    let ack := w / 2 ^ 56
    let x := s.ln l
    let n := (ack + 256 - x.lastAck) % 256
    let ok := decide (0 < n ∧ n ≤ x.unacked.length)
    let s := s.setLn l fun x => { x with
      limit := w % 2 ^ 32
      unacked := if ok then x.unacked.drop n else x.unacked
      lastAck := if ok then ack else x.lastAck
      ackOrd := if ok then s.clk.ord else x.ackOrd
      stuckReplays := if ok then 0 else x.stuckReplays }
    if w.testBit 55 then s.replay l else s

/-- `LINK_FRAME` (16 R364). -/
def execLinkFrame (l : Ln) (w : BitVec 64) (s : State) : Out := .next (s.linkReceive l w.toNat)

/-- `REPLAY_TIMEOUT` (16 R366): the acknowledgement has not advanced for 4,096 samples, nor a replay started. -/
def execReplayTimeout (l : Ln) (s : State) : Out := .next (if (s.ln l).ackOrd < s.clk.ord then s.replay l else s)

/-- The word of a `LINK` frame a lane sends (16 R364). -/
def LnSt.linkWord (x : LnSt) : Nat :=
  (x.rxNext + 255) % 256 * 2 ^ 56 + (if x.nakDue then 2 ^ 55 else 0) + x.rxLimit

/-- `LINK_FRAME_SEND` (16 R364, R365). -/
def execLinkFrameSend (l : Ln) (s : State) : Out :=
  .next (if s.laneState l = Lane.ACTIVE then
    s.setLn l fun x => { x with linkTx := some (BitVec.ofNat 64 x.linkWord), nakDue := false, linkDue := false, syms := x.syms + 26 }
  else s)

end Sys2Proof.Machine
end

