-- ==== Sys2Proof/Machine/Domino.lean ====
section
/-! DEFINITION. Domino messages and their sending, and the array window of a root (10 R230-R235). -/

namespace Sys2Proof.Machine

/-- The state with the trigger part changed. -/
def State.setTrig (s : State) (f : Trig → Trig) : State := { s with trig := f s.trig }

/-- The fields of a Domino message beside `SEQ` and `CRC` (10 R231). -/
structure DomMsg where
  type   : Nat
  module : Nat
  cand   : Nat := 0
  level  : Nat := 0
  stamp  : Nat := 0
  qual   : Nat := 0
  arg    : Nat := 0

/-- A message as its 128 bits (10 R231). -/
def DomMsg.pack (m : DomMsg) (seq : Nat) : BitVec 128 :=
  let body := m.arg % 2 ^ 16 + m.qual % 2 ^ 16 * 2 ^ 16 + m.stamp % 2 ^ 40 * 2 ^ 32 + seq % 256 * 2 ^ 72 + m.level % 8 * 2 ^ 80 +
    m.cand % 8192 * 2 ^ 83 + m.module % 4096 * 2 ^ 96 + m.type % 16 * 2 ^ 108
  let bytes := leBytes 14 body
  BitVec.ofNat 128 (leNat (leBytes 2 (crc16 bytes) ++ bytes))

/-- The fields of 128 bits (10 R231). -/
def domUnpack (w : Nat) : DomMsg :=
  { type := w / 2 ^ 124 % 16, module := w / 2 ^ 112 % 4096, cand := w / 2 ^ 99 % 8192, level := w / 2 ^ 96 % 8
    stamp := w / 2 ^ 48 % 2 ^ 40, qual := w / 2 ^ 32 % 2 ^ 16, arg := w / 2 ^ 16 % 2 ^ 16 }

/-- `SEQ` of a message. -/
def domSeq (w : Nat) : Nat := w / 2 ^ 88 % 256

/-- Whether a message passes its CRC (10 R231). -/
def domCrcOk (w : Nat) : Bool := let b := leBytes 16 w; crc16 (b.drop 2) == leNat (b.take 2)

/-- A message with another `SEQ`, its CRC changed by the difference alone, so that an error in it stays one (10 R233;
assumption log 26, DEDUCED). -/
def domRenumber (w seq : Nat) : BitVec 128 :=
  let w' := w - domSeq w * 2 ^ 88 + seq % 256 * 2 ^ 88
  let diff := crc16 ((leBytes 16 w').drop 2) ^^^ crc16 ((leBytes 16 w).drop 2)
  BitVec.ofNat 128 (w' - w' % 2 ^ 16 + (w % 2 ^ 16 ^^^ diff))

/-- The full time of 40 bits near a time (02 R54). -/
def recover40 (near low : Nat) : Int :=
  (near : Int) + ofTwos 40 (low + 2 ^ 40 - near % 2 ^ 40)

/-- The next `SEQ` of a lane, and the state that has used it. -/
def State.domNextSeq (s : State) (l : Nat) : Nat × State :=
  let q := smGet 0 s.trig.txSeq l
  (q, s.setTrig fun t => { t with txSeq := smPut 0 t.txSeq l ((q + 1) % 256) })

/-- Puts 128 bits on a lane's Domino path: a control-symbol sequence, or a `DOMINO` frame (10 R233; 16 R379). -/
def State.domPut (s : State) (l time : Nat) (symbols : Bool) (w : BitVec 128) : State :=
  if symbols then s.sendCtrl l time w
  else if Lane.down l then s.queueFrame 1 1 1 (leBytes 16 w.toNat)
  else
    let f : TxFrame := { vc := 1, type := 1, module := s.nat Obj.MODULE_NUMBER, ftick := s.fr.block % 2 ^ 20, gseq := 0
                         payload := leBytes 16 w.toNat }
    s.setFr fun x => { x with fwdCasc := x.fwdCasc ++ [f] }

/-- Whether messages travel as control symbols (10 R233). -/
def State.domSymbols (s : State) : Bool := s.val Obj.DOMINO_TRANSPORT == 0

/-- Sends a message of its own on a lane. -/
def State.domSend (s : State) (l time : Nat) (m : DomMsg) : State :=
  let (q, s) := s.domNextSeq l
  s.domPut l time (s.domSymbols || m.type == 5 || m.type == 6) (m.pack q)

/-- The lane towards the neighbour, if there is one (10 R240). -/
def State.domDownLane (s : State) : Option Nat :=
  let l := s.nat Obj.DOMINO_DOWN_LANE
  if 32 ≤ l ∧ l < 48 then some l else none

/-- Sends a message upstream (10 R230). -/
def State.domUp (s : State) (time : Nat) (m : DomMsg) : State := s.domSend (s.nat Obj.DOMINO_UP_LANE) time m

/-- Sends a message downstream (10 R230). -/
def State.domDown (s : State) (time : Nat) (m : DomMsg) : State :=
  match s.domDownLane with
  | some l => s.domSend l time m
  | none => s

/-- Relays a message without checking it, 64 samples after it arrived (10 R233). -/
def State.domRelay (s : State) (up : Bool) (arrival w : Nat) : State :=
  match if up then some (s.nat Obj.DOMINO_UP_LANE) else s.domDownLane with
  | none => s
  | some l =>
    let (q, s) := s.domNextSeq l
    s.domPut l (arrival + 8192) s.domSymbols (domRenumber w q)

/-- The `RATE` message of a leaf at a change of the prescale level (10 R229, R232). -/
def State.domRate (s : State) : State :=
  if s.val Obj.DOMINO_ROLE = roleLEAF then
    s.domUp s.timeNow { type := 7, module := s.nat Obj.MODULE_NUMBER, stamp := s.timeNow, arg := s.nat Obj.TRIG_PRESCALE_LEVEL }
  else s

/-! ### The root (10 R234) -/

/-- A decision of the root: its own candidate's waits for the boundary, another module's goes downstream. -/
def State.arrDecide (s : State) (now : Nat) (confirm : Bool) (r : Report) : State :=
  if r.module = s.nat Obj.MODULE_NUMBER then
    s.setTrig fun t => { t with decisions := t.decisions ++ [{ confirm, cands := [r.cand], stamp := some (r.stamp % 2 ^ 40), ord := s.clk.ord }] }
  else s.domDown now { type := if confirm then 2 else 3, module := r.module, cand := r.cand, level := r.level, stamp := r.stamp }

/-- The array window closes: confirmations and one array trigger, or vetoes (10 R234). -/
def State.arrFinish (s : State) (now : Nat) : State :=
  match s.trig.arrT0 with
  | none => s
  | some t0 =>
    let joined := s.trig.joined
    let met := decide (s.nat Obj.ARR_K ≤ joined.length)
    let s := s.setTrig fun t => { t with
      arrT0 := none, joined := [], closedTo := some (Nat.max (t.closedTo.getD 0) (t0 + s.nat Obj.ARR_WINDOW)) }
    let s := joined.foldl (fun s r => s.arrDecide now met r) s
    if !met then s else
      let s := s.inc Obj.TRIG_ISSUED_COUNT 0 8
      if s.on Obj.ARR_BROADCAST then
        s.domDown now { type := 4, module := s.nat Obj.MODULE_NUMBER, level := 7, stamp := t0
                        qual := s.nat Obj.TRIG_ISSUED_COUNT 0 8, arg := joined.length }
      else s

/-- The time at which a window closes. -/
def State.arrCloseAt (s : State) (t0 : Nat) : Nat := t0 + s.nat Obj.ARR_WINDOW + s.nat Obj.ARR_SETTLE

/-- A report reaches the collector at a time: vetoed, joined, held, or opening a window (10 R234). Assumption log 50, DEDUCED. -/
def State.arrEnter (s : State) (now : Nat) (r : Report) : State :=
  let late (s : State) : State := (s.arrDecide now false r).inc Obj.DOMINO_LATE_COUNT
  if s.on Obj.ARR_REQUIRE_LOCK && r.unlocked then s.arrDecide now false r
  else if (match s.trig.closedTo with | some c => decide (r.stamp ≤ c) | none => false) then late s
  else match s.trig.arrT0 with
    | none => s.setTrig fun t => { t with arrT0 := some r.stamp, joined := [r] }
    | some t0 =>
      if r.stamp ≤ t0 + s.nat Obj.ARR_WINDOW then
        if s.trig.joined.any fun x => x.module == r.module then s
        else s.setTrig fun t => { t with joined := t.joined ++ [r] }
      else if 8192 ≤ s.trig.held.length then late s
      else s.setTrig fun t => { t with held := t.held ++ [r] }

/-- Windows whose close time has passed close, and the reports held are taken in stamp order, until none is due (10 R234). -/
def State.arrRun (now : Nat) : Nat → State → State
  | 0, s => s
  | n + 1, s =>
    match s.trig.arrT0 with
    | none => s
    | some t0 =>
      if now < s.arrCloseAt t0 then s else
        let s := s.arrFinish now
        let held := s.trig.held.mergeSort fun a b => decide (a.stamp ≤ b.stamp)
        let s := held.foldl (fun s r => s.arrEnter now r) (s.setTrig fun t => { t with held := [] })
        State.arrRun now n s

/-- A report at the root, with the windows it makes due (10 R234). -/
def State.arrReport (s : State) (now : Nat) (r : Report) : State :=
  State.arrRun now (s.trig.held.length + 2) (s.arrEnter now r)

/-- `ARR_WINDOW_CLOSE` (10 R234): the root's time passes the close time of the open window within the current tick. -/
def execArrWindowClose (s : State) : Out :=
  .next (match s.trig.arrT0 with
    | none => s
    | some t0 =>
      let c := s.arrCloseAt t0
      if c < s.timeNow + 2 ^ 19 then State.arrRun (Nat.max c s.timeNow) (s.trig.held.length + 2) s else s)

end Sys2Proof.Machine
end

