-- ==== Sys2Proof/Machine/EngIsa.lean ====
section
/-! DEFINITION. The engines' instruction words (09 R197-R212): fields, and which instruction a word is. -/

namespace Sys2Proof.Machine

/-- The instructions by their rows of the opcode table. -/
inductive EK where
  | add | sub | adds | subs | addi | mul | min | max | rcp | sqrt | fcvt | and | or | xor | clz | bext | bins
  | shl | shr | sar | li | lih | cmp | cmpi | pand | por | pxor | pandn | pset | pclr | rdp | wrp
  | ld | st | vld | vst | vadd | vsub | vmin | vmax | vmul | vand | vor | vxor | vshl | vshr | vsar | vcmp
  | vsplat | vext | vins | vredAdd | vredMax | vredMin | vpowB | vpowH
  | cld | cwr | ccmdHold | ccmdRelease | ccmdMask | ccmdUnmask | ccmdReseed | cvb
  | bwx | bwc | brx | brc | trig | meas | send | recv | br | jal | jr | loop | loopi | yield | wait | rdcyc
deriving DecidableEq, Repr

namespace EngW

/-- Bits `hi` to `lo` of a word. -/
def bits (w hi lo : Nat) : Nat := w / 2 ^ lo % 2 ^ (hi + 1 - lo)
/-- `OP`. -/
def op (w : Nat) : Nat := bits w 31 26
/-- `PRED`. -/
def pred (w : Nat) : Nat := bits w 25 23
/-- `A`. -/
def a (w : Nat) : Nat := bits w 22 19
/-- `B`. -/
def b (w : Nat) : Nat := bits w 18 15
/-- `C`. -/
def c (w : Nat) : Nat := bits w 14 11
/-- `FN`. -/
def fn (w : Nat) : Nat := bits w 10 0
/-- `IMM` of format I. -/
def imm (w : Nat) : Nat := bits w 14 0
/-- `SIZE` of format M. -/
def size (w : Nat) : Nat := bits w 14 12
/-- `OFF` of format M, sign-extended. -/
def off (w : Nat) : Int := ofTwos 12 (bits w 11 0)
/-- `IMM16` of format C. -/
def imm16 (w : Nat) : Nat := bits w 15 0
/-- `TARGET` of format J. -/
def target (w : Nat) : Nat := bits w 13 0
/-- `LC` of format L. -/
def lc (w : Nat) : Nat := bits w 22 22
/-- `COUNT` of format L. -/
def count (w : Nat) : Nat := bits w 21 14
/-- `B` of format L. -/
def lb (w : Nat) : Nat := bits w 21 18

end EngW

open EngW in
/-- The words of format R whose registers are general: which of A, B, C are used. Assumption log 19, DEDUCED. -/
def regsOk (w : Nat) (useA useB useC : Bool) : Bool :=
  (useA || a w == 0) && (useB || b w == 0) && (useC || c w == 0)

/-- The instruction when the conditions on its word hold. -/
def ekIf (ok : Bool) (k : EK) : Option EK := if ok then some k else none

open EngW in
/-- The shift group by `FN[9:8]`. -/
def shiftKind (w : Nat) (l r ar : EK) : Option EK :=
  match bits w 9 8 with | 0 => some l | 1 => some r | 2 => some ar | _ => none

open EngW in
/-- Which instruction a word at word address `pc` is; `none` is an illegal instruction (09 R197, R198, R210, R211). Assumption log 19, DEDUCED. -/
def engDecode (pc w : Nat) : Option EK :=
  if pred w > 4 then none else
  let v (n : Nat) : Bool := decide (n ≤ 7)
  let p (n : Nat) : Bool := decide (n ≤ 3)
  let r3 (k : EK) : Option EK := ekIf (fn w == 0) k
  let r2 (k : EK) : Option EK := ekIf (fn w == 0 && c w == 0) k
  let quad (n : Nat) : Bool := n % 4 == 0
  match op w with
  | 0x01 => r3 .add
  | 0x02 => r3 .sub
  | 0x03 => r3 .adds
  | 0x04 => r3 .subs
  | 0x05 => some .addi
  | 0x06 => r3 .mul
  | 0x07 => r3 .min
  | 0x08 => r3 .max
  | 0x09 => r2 .rcp
  | 0x0A => r2 .sqrt
  | 0x0B => ekIf (bits w 14 5 == 0) .fcvt
  | 0x0C => r3 .and
  | 0x0D => r3 .or
  | 0x0E => r3 .xor
  | 0x0F => r2 .clz
  | 0x10 => ekIf (bits w 14 10 == 0) .bext
  | 0x11 => ekIf (bits w 14 10 == 0) .bins
  | 0x12 => if bits w 7 5 != 0 || (w.testBit 10 && c w != 0) then none else shiftKind w .shl .shr .sar
  | 0x13 => ekIf (bits w 18 16 == 0) .li
  | 0x14 => ekIf (bits w 18 16 == 0) .lih
  | 0x15 => ekIf (p (a w) && bits w 10 3 == 0 && decide (bits w 2 0 ≤ 5)) .cmp
  | 0x16 => ekIf (p (a w) && decide (bits w 14 12 ≤ 5)) .cmpi
  | 0x17 =>
    if bits w 10 3 != 0 then none else
      let three := p (a w) && p (b w) && p (c w)
      match bits w 2 0 with
      | 0 => ekIf three .pand
      | 1 => ekIf three .por
      | 2 => ekIf three .pxor
      | 3 => ekIf three .pandn
      | 4 => ekIf (p (a w) && regsOk w true false false) .pset
      | 5 => ekIf (p (a w) && regsOk w true false false) .pclr
      | 6 => ekIf (regsOk w true false false) .rdp
      | _ => ekIf (regsOk w false true false) .wrp
  | 0x18 => ekIf (decide (size w ≤ 3)) .ld
  | 0x19 => ekIf (decide (size w ≤ 2)) .st
  | 0x1A => ekIf (decide (size w ≤ 2) && v (a w)) .vld
  | 0x1B => ekIf (decide (size w ≤ 1) && v (a w)) .vst
  | 0x1C =>
    if bits w 10 3 != 0 || !(v (a w) && v (b w) && v (c w)) then none else
      match bits w 2 0 with
      | 0 => some .vadd | 1 => some .vsub | 2 => some .vmin | 3 => some .vmax
      | 4 => some .vmul | 5 => some .vand | 6 => some .vor | _ => some .vxor
  | 0x1D => if w.testBit 10 || c w != 0 || bits w 7 5 != 0 || !(v (a w) && v (b w)) then none else shiftKind w .vshl .vshr .vsar
  | 0x1E => ekIf (v (b w) && v (c w) && bits w 10 3 == 0 && decide (bits w 2 0 ≤ 5)) .vcmp
  | 0x1F => ekIf (v (a w) && c w == 0 && fn w == 0) .vsplat
  | 0x20 => ekIf (v (b w) && c w == 0 && bits w 10 3 == 0) .vext
  | 0x21 => ekIf (v (a w) && c w == 0 && bits w 10 3 == 0) .vins
  | 0x22 =>
    if !v (b w) || c w != 0 then none else
      match fn w with | 0 => some .vredAdd | 1 => some .vredMax | 2 => some .vredMin | _ => none
  | 0x23 =>
    if !(v (a w) && v (b w)) || c w != 0 then none else
      match fn w with | 0 => some .vpowB | 1 => some .vpowH | _ => none
  | 0x24 => ekIf (quad (a w) && c w == 0 && fn w == 0) .cld
  | 0x25 => ekIf (quad (a w) && c w == 0 && bits w 10 4 == 0 && fn w != 0) .cwr
  | 0x26 =>
    if a w != 0 || c w != 0 then none else
      match fn w with
      | 1 => some .ccmdHold | 2 => some .ccmdRelease | 3 => some .ccmdMask | 4 => some .ccmdUnmask | 5 => some .ccmdReseed
      | _ => none
  | 0x27 => ekIf (v (a w) && c w == 0 && fn w == 0) .cvb
  | 0x28 =>
    match fn w with
    | 0 => ekIf (a w == 0) .bwx
    | 1 => ekIf (a w == 0) .bwc
    | 2 => ekIf (b w == 0) .brx
    | 3 => ekIf (b w == 0) .brc
    | _ => none
  | 0x29 => ekIf (p (a w) && c w == 0 && fn w == 0) .trig
  | 0x2A => ekIf (p (a w) && b w % 2 == 0 && c w == 0 && fn w == 0) .meas
  | 0x2B => ekIf (p (a w) && v (b w) && c w == 0 && fn w == 0) .send
  | 0x2C => ekIf (p (a w) && v (b w) && c w == 0 && fn w == 0) .recv
  | 0x2D => ekIf (a w == 0 && bits w 18 14 == 0) .br
  | 0x2E => ekIf (bits w 18 14 == 0) .jal
  | 0x2F => ekIf (a w == 0 && c w == 0 && fn w == 0) .jr
  | 0x30 => ekIf (bits w 17 14 == 0 && decide (pc < target w)) .loop
  | 0x31 => ekIf (decide (pc < target w)) .loopi
  | 0x32 =>
    if bits w 12 11 != 0 || b w != 0 then none else
      match bits w 14 13 with
      | 0 => ekIf (a w == 0) .yield
      | 1 => ekIf (a w == 0) .wait
      | 2 => some .rdcyc
      | _ => none
  | _ => none

/-! ### The encoder (09 R197, R200-R210) -/

/-- The formats of 09 R197; `I` covers `M`, and the loops have a format each. -/
inductive EngFmt where
  | R | I | C | J | loop | loopi
deriving DecidableEq, Repr

/-- An instruction by its row and the fields of its format: `a`, `b`, `c` as R197 names them (of a loop, `a` is `LC` and `b`
the count or its register) and `low` what lies below them (`FN`, `IMM`, `SIZE` with `OFF`, `IMM16`, `TARGET`, `END`). -/
structure EngIns where
  kind : EK
  pred : Nat := 0
  a    : Nat := 0
  b    : Nat := 0
  c    : Nat := 0
  low  : Nat := 0
deriving DecidableEq, Repr

/-- `OP` of a row. -/
def EK.op : EK → Nat
  | .add => 0x01 | .sub => 0x02 | .adds => 0x03 | .subs => 0x04 | .addi => 0x05 | .mul => 0x06 | .min => 0x07 | .max => 0x08
  | .rcp => 0x09 | .sqrt => 0x0A | .fcvt => 0x0B | .and => 0x0C | .or => 0x0D | .xor => 0x0E | .clz => 0x0F
  | .bext => 0x10 | .bins => 0x11 | .shl | .shr | .sar => 0x12 | .li => 0x13 | .lih => 0x14 | .cmp => 0x15 | .cmpi => 0x16
  | .pand | .por | .pxor | .pandn | .pset | .pclr | .rdp | .wrp => 0x17
  | .ld => 0x18 | .st => 0x19 | .vld => 0x1A | .vst => 0x1B
  | .vadd | .vsub | .vmin | .vmax | .vmul | .vand | .vor | .vxor => 0x1C | .vshl | .vshr | .vsar => 0x1D | .vcmp => 0x1E
  | .vsplat => 0x1F | .vext => 0x20 | .vins => 0x21 | .vredAdd | .vredMax | .vredMin => 0x22 | .vpowB | .vpowH => 0x23
  | .cld => 0x24 | .cwr => 0x25 | .ccmdHold | .ccmdRelease | .ccmdMask | .ccmdUnmask | .ccmdReseed => 0x26 | .cvb => 0x27
  | .bwx | .bwc | .brx | .brc => 0x28 | .trig => 0x29 | .meas => 0x2A | .send => 0x2B | .recv => 0x2C
  | .br => 0x2D | .jal => 0x2E | .jr => 0x2F | .loop => 0x30 | .loopi => 0x31 | .yield | .wait | .rdcyc => 0x32

/-- The format of a row. -/
def EK.fmt : EK → EngFmt
  | .addi | .fcvt | .bext | .bins | .cmpi | .ld | .st | .vld | .vst | .yield | .wait | .rdcyc => .I
  | .li | .lih => .C
  | .br | .jal => .J
  | .loop => .loop
  | .loopi => .loopi
  | _ => .R

/-- The word of an instruction. -/
def EngIns.encode (i : EngIns) : Nat :=
  let top := i.kind.op * 2 ^ 26 + i.pred * 2 ^ 23
  match i.kind.fmt with
  | .R => top + i.a * 2 ^ 19 + i.b * 2 ^ 15 + i.c * 2 ^ 11 + i.low
  | .I => top + i.a * 2 ^ 19 + i.b * 2 ^ 15 + i.low
  | .C => top + i.a * 2 ^ 19 + i.low
  | .J => top + i.a * 2 ^ 19 + i.low
  | .loop => top + i.a * 2 ^ 22 + i.b * 2 ^ 18 + i.low
  | .loopi => top + i.a * 2 ^ 22 + i.b * 2 ^ 14 + i.low

/-- The fields a word holds for a row. -/
def EngIns.ofWord (k : EK) (w : Nat) : EngIns :=
  match k.fmt with
  | .R => { kind := k, pred := EngW.pred w, a := EngW.a w, b := EngW.b w, c := EngW.c w, low := EngW.fn w }
  | .I => { kind := k, pred := EngW.pred w, a := EngW.a w, b := EngW.b w, low := EngW.imm w }
  | .C => { kind := k, pred := EngW.pred w, a := EngW.a w, low := EngW.imm16 w }
  | .J => { kind := k, pred := EngW.pred w, a := EngW.a w, low := EngW.target w }
  | .loop => { kind := k, pred := EngW.pred w, a := EngW.lc w, b := EngW.lb w, low := EngW.target w }
  | .loopi => { kind := k, pred := EngW.pred w, a := EngW.lc w, b := EngW.count w, low := EngW.target w }

/-- The shift forms: an amount in a register (`FN`[10] = 0), or in `FN`[4:0] with `C` = 0 (09 R200). -/
def shiftLow (code c low : Nat) : Bool :=
  decide (low < 2048) && low / 32 % 8 == 0 && low / 256 % 4 == code && (low / 1024 == 0 || c == 0)

/-- Whether the fields are those of an instruction at word address `pc` (09 R197, R200-R211): every field fits, unused ones
are 0, registers of the vector and predicate files are in range, and the low field is one the row lists. -/
def EngIns.wf (pc : Nat) (i : EngIns) : Bool :=
  let g (n : Nat) : Bool := decide (n < 16)
  let v (n : Nat) : Bool := decide (n < 8)
  let p (n : Nat) : Bool := decide (n < 4)
  let z (n : Nat) : Bool := n == 0
  let lt (n : Nat) : Bool := decide (i.low < n)
  let cc : Bool := decide (i.low < 6)
  decide (i.pred ≤ 4) &&
  match i.kind with
  | .add | .sub | .adds | .subs | .mul | .min | .max | .and | .or | .xor => g i.a && g i.b && g i.c && z i.low
  | .addi => g i.a && g i.b && z i.c && lt (2 ^ 15)
  | .rcp | .sqrt | .clz => g i.a && g i.b && z i.c && z i.low
  | .fcvt => g i.a && g i.b && z i.c && lt 32
  | .bext | .bins => g i.a && g i.b && z i.c && lt 1024
  | .shl => g i.a && g i.b && g i.c && shiftLow 0 i.c i.low
  | .shr => g i.a && g i.b && g i.c && shiftLow 1 i.c i.low
  | .sar => g i.a && g i.b && g i.c && shiftLow 2 i.c i.low
  | .li | .lih => g i.a && z i.b && z i.c && lt (2 ^ 16)
  | .cmp => p i.a && g i.b && g i.c && cc
  | .cmpi => p i.a && g i.b && z i.c && lt (6 * 4096)
  | .pand => p i.a && p i.b && p i.c && i.low == 0
  | .por => p i.a && p i.b && p i.c && i.low == 1
  | .pxor => p i.a && p i.b && p i.c && i.low == 2
  | .pandn => p i.a && p i.b && p i.c && i.low == 3
  | .pset => p i.a && z i.b && z i.c && i.low == 4
  | .pclr => p i.a && z i.b && z i.c && i.low == 5
  | .rdp => g i.a && z i.b && z i.c && i.low == 6
  | .wrp => z i.a && g i.b && z i.c && i.low == 7
  | .ld => g i.a && g i.b && z i.c && lt (4 * 4096)
  | .st => g i.a && g i.b && z i.c && lt (3 * 4096)
  | .vld => v i.a && g i.b && z i.c && lt (3 * 4096)
  | .vst => v i.a && g i.b && z i.c && lt (2 * 4096)
  | .vadd => v i.a && v i.b && v i.c && i.low == 0
  | .vsub => v i.a && v i.b && v i.c && i.low == 1
  | .vmin => v i.a && v i.b && v i.c && i.low == 2
  | .vmax => v i.a && v i.b && v i.c && i.low == 3
  | .vmul => v i.a && v i.b && v i.c && i.low == 4
  | .vand => v i.a && v i.b && v i.c && i.low == 5
  | .vor => v i.a && v i.b && v i.c && i.low == 6
  | .vxor => v i.a && v i.b && v i.c && i.low == 7
  | .vshl => v i.a && v i.b && z i.c && lt 32
  | .vshr => v i.a && v i.b && z i.c && decide (256 ≤ i.low) && lt (256 + 32)
  | .vsar => v i.a && v i.b && z i.c && decide (512 ≤ i.low) && lt (512 + 32)
  | .vcmp => g i.a && v i.b && v i.c && cc
  | .vsplat => v i.a && g i.b && z i.c && z i.low
  | .vext => g i.a && v i.b && z i.c && lt 8
  | .vins => v i.a && g i.b && z i.c && lt 8
  | .vredAdd => g i.a && v i.b && z i.c && i.low == 0
  | .vredMax => g i.a && v i.b && z i.c && i.low == 1
  | .vredMin => g i.a && v i.b && z i.c && i.low == 2
  | .vpowB => v i.a && v i.b && z i.c && i.low == 0
  | .vpowH => v i.a && v i.b && z i.c && i.low == 1
  | .cld => g i.a && i.a % 4 == 0 && g i.b && z i.c && z i.low
  | .cwr => g i.a && i.a % 4 == 0 && g i.b && z i.c && decide (1 ≤ i.low) && lt 16
  | .ccmdHold => z i.a && g i.b && z i.c && i.low == 1
  | .ccmdRelease => z i.a && g i.b && z i.c && i.low == 2
  | .ccmdMask => z i.a && g i.b && z i.c && i.low == 3
  | .ccmdUnmask => z i.a && g i.b && z i.c && i.low == 4
  | .ccmdReseed => z i.a && g i.b && z i.c && i.low == 5
  | .cvb => v i.a && g i.b && z i.c && z i.low
  | .bwx => z i.a && g i.b && g i.c && i.low == 0
  | .bwc => z i.a && g i.b && g i.c && i.low == 1
  | .brx => g i.a && z i.b && g i.c && i.low == 2
  | .brc => g i.a && z i.b && g i.c && i.low == 3
  | .trig => p i.a && g i.b && z i.c && z i.low
  | .meas => p i.a && g i.b && i.b % 2 == 0 && z i.c && z i.low
  | .send | .recv => p i.a && v i.b && z i.c && z i.low
  | .br => z i.a && z i.b && z i.c && lt (2 ^ 14)
  | .jal => g i.a && z i.b && z i.c && lt (2 ^ 14)
  | .jr => z i.a && g i.b && z i.c && z i.low
  | .loop => decide (i.a < 2) && g i.b && z i.c && decide (pc < i.low) && lt (2 ^ 14)
  | .loopi => decide (i.a < 2) && decide (i.b < 256) && z i.c && decide (pc < i.low) && lt (2 ^ 14)
  | .yield => z i.a && z i.b && z i.c && lt 2048
  | .wait => z i.a && z i.b && z i.c && decide (8192 ≤ i.low) && lt (8192 + 2048)
  | .rdcyc => g i.a && z i.b && z i.c && decide (16384 ≤ i.low) && lt (16384 + 2048)

end Sys2Proof.Machine
end

