-- ==== Sys2Proof/Machine/EngCore.lean ====
section
/-! DEFINITION. The engines: state access, address space, exceptions and quarantine, and the running of one instruction
(08 R174-R186, 09 R196-R199, R210-R213). -/

namespace Sys2Proof.Machine

/-- An engine's state. -/
def State.eng (s : State) (k : Nat) : Eng := smGet {} s.engs k

/-- The state with an engine changed. -/
def State.setEng (s : State) (k : Nat) (f : Eng → Eng) : State := { s with engs := smUpd {} s.engs k f }

/-- `ENG_STATE` values (08 R194). -/
def engEMPTY : Int := 0
/-- `LOADING`. -/
def engLOADING : Int := 1
/-- `READY`. -/
def engREADY : Int := 2
/-- `RUNNING`. -/
def engRUNNING : Int := 3
/-- `QUARANTINED`. -/
def engQUARANTINED : Int := 4

/-- `ENG_STATE` of an engine. -/
def State.engState (s : State) (k : Nat) : Int := s.val Obj.ENG_STATE k

/-- `ENG_STATE` set, with `ENGINES_RUNNING`. -/
def State.setEngState (s : State) (k : Nat) (v : Int) : State :=
  let n := s.val Obj.ENGINES_RUNNING - (if s.engState k = engRUNNING then 1 else 0) + (if v = engRUNNING then 1 else 0)
  (s.setVal Obj.ENG_STATE v k).setVal Obj.ENGINES_RUNNING n

/-! ### Registers -/

/-- General register `i`. -/
def State.gr (s : State) (k i : Nat) : Word := nth 0 (s.eng k).g i

/-- The state with a general register written. -/
def State.setGr (s : State) (k i : Nat) (v : Word) : State := s.setEng k fun x => { x with g := modNth x.g i fun _ => v }

/-- Lane `i` of vector register `r`. -/
def State.vr (s : State) (k r i : Nat) : Word := nth 0 (s.eng k).v (8 * r + i)

/-- The lanes of a vector register. -/
def State.vrAll (s : State) (k r : Nat) : List Word := (List.range 8).map (s.vr k r)

/-- The state with every lane of a vector register written. -/
def State.setVr (s : State) (k r : Nat) (f : Nat → Word) : State :=
  s.setEng k fun x => { x with v := (List.range 64).map fun j => if j / 8 = r then f (j % 8) else nth 0 x.v j }

/-- Predicate `i`. -/
def State.pr (s : State) (k i : Nat) : Bool := nth false (s.eng k).p i

/-- The state with a predicate written. -/
def State.setPr (s : State) (k i : Nat) (v : Bool) : State := s.setEng k fun x => { x with p := modNth x.p i fun _ => v }

/-- The registers cleared (09 R196): general, vector, predicates and loop counters. -/
def Eng.clearRegs (x : Eng) : Eng :=
  { x with g := List.replicate 16 0, v := List.replicate 64 0, p := List.replicate 4 false, lc0 := {}, lc1 := {}, newer := 0 }

/-- The staged outputs discarded. -/
def Eng.clearStaged (x : Eng) : Eng := { x with ops := [], bx := [], bc := [], trigs := [], meas := [], msgs := [] }

/-! ### Memories (18 R423; the places in CD SRAM are assumption log 21, DESIGN CHOICE) -/

/-- The address of an instruction word. -/
def imemAddr (k pc : Nat) : Nat := spaceBase 2 + k * 0x38000 + 4 * pc

/-- The address of a data memory byte. -/
def dmemAddr (k a : Nat) : Nat := spaceBase 2 + k * 0x38000 + 0x10000 + a

/-- The bytes of concentrator SRAM before the supervisor's: engines, delay lines, condition words, corner turn (01 R10). -/
def cdBytes : Nat := 56 * 2 ^ 20 + 16 * 2 ^ 20 + 8192 + 2 * 2 ^ 20

/-- The address of a place of an engine's inbound queue, by the messages it has given out before: 32 places in turn (08 R174). The queues
lie after the memories that 01 R10 sizes (assumption log 22, DESIGN CHOICE). -/
def msgAddr (k i : Nat) : Nat := spaceBase 2 + cdBytes + 1024 * k + i % 32 * 32

/-- The word at a byte address. -/
def State.word32 (s : State) (a : Nat) : Nat := leNat (s.bytes a 4)

/-- The ranges of the address space, with whether they may be written (08 R175). -/
def engRanges : List (Nat × Nat × Bool) :=
  [(0, 0x20000, true), (0x20000, 0x24000, false), (0x24000, 0x24400, false), (0x24400, 0x24800, false),
   (0x24800, 0x25800, false), (0x25800, 0x25A00, false), (0x25A00, 0x25A40, false)]

/-- Whether an access of `n` bytes lies in one range, writable if it stores (08 R175, 09 R213). -/
def engInRange (a n : Nat) (store : Bool) : Bool :=
  engRanges.any fun r => decide (r.1 ≤ a ∧ a + n ≤ r.2.1) && (r.2.2 || !store)

/-- The tick information block (08 R177). -/
def State.tickInfo (s : State) (k : Nat) : List Byte :=
  let x := s.eng k
  let i := s.infoAt 3
  leBytes 8 i.tick ++ leBytes 8 s.tick ++ leInt 1 s.mode ++ leBytes 1 x.hBoost ++ leBytes 1 x.hRun ++ leBytes 1 x.hInbound ++
    leBytes 2 (s.win.gen) ++ leBytes 2 x.hGen ++ leBytes 8 s.win.specFirst ++ leBytes 4 s.win.specLen ++
    leBytes 2 i.cond.toNat ++ leBytes 2 (8 * k) ++ leBytes 24 0

/-- The beam window's word of a beam and lane (08 R175): 16+16 layout. -/
def State.beamWord (s : State) (k b i : Nat) : Nat :=
  match s.win.beams.find? fun o => o.beam == b with
  | some o => let v := smGet (0, 0) o.samples (8 * k + i); toTwos 16 v.1 * 65536 + toTwos 16 v.2
  | none => 0

/-- The frame handed in: its sample of an input and lane (08 R175). -/
def State.frameSample (s : State) (k n i : Nat) : Int × Int :=
  match s.delay with
  | d :: _ => nth (0, 0) (smGet [] d.chans n) (8 * k + i)
  | [] => (0, 0)

/-- One byte of an engine's address space (08 R175), for an address inside it. -/
def State.engByte (s : State) (k a : Nat) : Byte :=
  let part (w i : Nat) : Byte := BitVec.ofNat 8 (w / 256 ^ i)
  if a < 0x20000 then s.byte (dmemAddr k a)
  else if a < 0x24000 then
    let o := a - 0x20000
    match smGet none (s.win.spectra.map fun e => (e.1, some e.2)) (o / 64) with
    | some sp => part (nth 0 (if o / 4 % 2 = 0 then sp.s1 else sp.s2) (8 * k + o / 8 % 8)) (o % 4)
    | none => 0
  else if a < 0x24400 then
    let o := a - 0x24000
    match smGet none (s.win.spectra.map fun e => (e.1, some e.2)) (o / 4) with
    | some sp => part sp.mEff (o % 4)
    | none => 0
  else if a < 0x24800 then
    let o := a - 0x24400
    part (s.beamWord k (o / 32) (o / 4 % 8)) (o % 4)
  else if a < 0x25800 then
    let o := a - 0x24800
    let v := s.frameSample k (o / 16) (o / 2 % 8)
    part (toTwos 8 v.1 * 256 + toTwos 8 v.2) (o % 2)
  else if a < 0x25A00 then
    let o := a - 0x25800
    part (match s.delay with | d :: _ => (nth 0 d.cond (o / 2)).toNat | [] => 0) (o % 2)
  else nth 0 (s.tickInfo k) (a - 0x25A00)

/-- `n` bytes of an engine's address space as a number. -/
def State.engRead (s : State) (k a n : Nat) : Nat := leNat ((List.range n).map fun i => s.engByte k (a + i))

/-- Whether an access meets a poison mark (08 R183; 09 R213): in data memory, in the delay-line frame that the frame window shows, or in
its condition words. The other windows lie in no memory of 18 R423 (assumption log 81, DEDUCED). -/
def State.engPoisoned (s : State) (k a n : Nat) : Bool :=
  let ord := match s.delay with | d :: _ => d.ord | [] => 0
  let at_ (b : Nat) : Bool := s.poisoned (b / 4 * 4) (b % 4 + n)
  if s.poison.isEmpty then false
  else if a < 0x20000 then at_ (dmemAddr k a)
  else if 0x24800 ≤ a ∧ a < 0x25800 then at_ (delayAddr k 0 ord + (a - 0x24800))
  else if 0x25800 ≤ a ∧ a < 0x25A00 then at_ (condAddr 0 ord + (a - 0x25800))
  else false

/-- A store to data memory (09 R202, R214): a whole word clears its mark. -/
def State.engStore (s : State) (k a : Nat) (b : List Byte) : State :=
  let s := s.putBytes (dmemAddr k a) b
  if b.length < 4 || s.poison.isEmpty then s else
    { s with poison := s.poison.filter fun e => decide (e.1 < dmemAddr k a ∨ dmemAddr k a + b.length ≤ e.1) }

/-! ### Exceptions and quarantine (08 R183, R184) -/

/-- A quarantine: the engine stops, its staged outputs are discarded (08 R184). `cause` 0 is the command. -/
def State.engQuarantine (s : State) (k cause : Nat) : State :=
  let s := s.setEng k fun x => { x.clearStaged with active := false, yielded := false, waitTo := none, initNext := false
                                                    quarOrd := s.clk.ord }
  let s := s.setEngState k engQUARANTINED
  let s := if cause = 0 then s else s.logFault (0x2600 + cause) 6 k
  s.raise 0x6001 6 k (leBytes 1 cause)

/-- An exception at the instruction at `pc` (08 R183, R195). -/
def State.engException (s : State) (k cause addr : Nat) : State :=
  let pc := (s.eng k).pc % 2 ^ 14
  let w := leBytes 4 (cause + pc * 2 ^ 18) ++ leBytes 4 addr ++ leBytes 2 0 ++ leBytes 6 s.tick
  (s.setBlob Obj.ENG_EXC_INFO w k).engQuarantine k cause

/-! ### One instruction -/

/-- What an instruction does: it falls through, jumps (a taken branch), skips a loop body, ends the handler, or raises an
exception. -/
inductive EngNext where
  | seq (s : State)
  | jump (s : State) (target : Nat)
  | skip (s : State) (target : Nat)
  | stop (s : State)
  | exc (cause addr : Nat)

/-- One loop counter at its end address (09 R211): the counter, and whether the loop goes round. -/
def LoopCtr.atEnd (l : LoopCtr) (pc : Nat) : LoopCtr × Bool :=
  if l.count = 0 ∨ l.stop ≠ pc then (l, false) else ({ l with count := l.count - 1 }, decide (1 < l.count))

/-- The loop evaluation after the instruction at `pc` retires with `nx` to follow (09 R211). -/
def Eng.loopEnd (x : Eng) (pc nx : Nat) : Eng × Nat :=
  let first := if x.newer = 0 then x.lc0 else x.lc1
  let (f, fr) := first.atEnd pc
  let put (i : Nat) (l : LoopCtr) (x : Eng) : Eng := if i = 0 then { x with lc0 := l } else { x with lc1 := l }
  let x := put x.newer f x
  if fr then (x, f.start) else
    let other := if x.newer = 0 then x.lc1 else x.lc0
    let (o, orr) := other.atEnd pc
    (put (1 - x.newer) o x, if orr then o.start else nx)

/-- A taken branch ends every active loop that does not hold its target (09 R211). -/
def Eng.branchEnds (x : Eng) (target : Nat) : Eng :=
  let f (l : LoopCtr) : LoopCtr := if l.count != 0 && !decide (l.start ≤ target ∧ target ≤ l.stop) then { l with count := 0 } else l
  { x with lc0 := f x.lc0, lc1 := f x.lc1 }

/-- The engine after an instruction of `cost` cycles. -/
def State.engRetire (s : State) (k cost : Nat) (n : EngNext) : State :=
  let pc := (s.eng k).pc
  let fall (t : State) (nx : Nat) : State :=
    t.setEng k fun x => let (y, p) := x.loopEnd pc nx; { y with pc := p, cyc := y.cyc + cost }
  match n with
  | .seq t => fall t (pc + 1)
  | .skip t nx => fall t nx
  | .jump t target => t.setEng k fun x => { x.branchEnds target with pc := target, cyc := x.cyc + cost }
  | .stop t =>
    let c := (s.eng k).cyc
    let t := fall t (pc + 1)
    let t := t.setEng k fun x => { x with active := false, yielded := true }
    let t := t.setVal Obj.ENG_CYCLES_LAST c k
    if (c : Int) > t.val Obj.ENG_CYCLES_MAX k then t.setVal Obj.ENG_CYCLES_MAX c k else t
  | .exc cause addr => s.engException k cause addr

/-- Whether an engine's handler is ready to take its next instruction. -/
def State.engReady (s : State) (k : Nat) : Bool :=
  s.engState k == engRUNNING && (s.eng k).active && (s.eng k).waitTo.isNone

/-- The word at an engine's program counter. -/
def State.engWord (s : State) (k : Nat) : Nat := s.word32 (imemAddr k (s.eng k).pc)

/-- Whether the predicate of a word lets it execute (09 R198). -/
def State.engExecutes (s : State) (k w : Nat) : Bool := EngW.pred w == 0 || s.pr k (EngW.pred w - 1)

/-- What an instruction that executes does: its own exceptions but poison come first, then the poison of its word, then that of its data
(09 R213). -/
def State.engBody (s : State) (k : Nat) (n : EngNext) : EngNext :=
  if s.poisoned (imemAddr k (s.eng k).pc) 4 then
    match n with
    | .exc 1 a => .exc 1 a
    | .exc 2 a => .exc 2 a
    | .exc 3 a => .exc 3 a
    | _ => .exc 4 (4 * (s.eng k).pc)
  else n

/-- Engine `k` takes its next instruction, if it is of row `kind` (09 R197-R199, R213). One that would not retire before the cut-off does
nothing more, whatever it is (08 R181); an illegal word and a fetch beyond the memory raise their exception whatever the predicate,
every other exception comes of an instruction that executes. `cost` gives the cycles of the word. Assumption log 18, DESIGN CHOICE. -/
def State.engRunC (s : State) (k : Nat) (kind : EK) (cost : State → Nat → Nat) (body : State → Nat → EngNext) : State :=
  if !s.engReady k then s
  else if 1792 ≤ (s.eng k).cyc then s
  else
    let pc := (s.eng k).pc
    if pc > 16383 then s.engException k 1 0 else
      let w := s.engWord k
      match engDecode pc w with
      | none => s.engException k 1 0
      | some kd =>
        if kd ≠ kind then s
        else
          let runs := s.engExecutes k w
          let c := if runs then cost s w else 1
          if (s.eng k).cyc + c > 1792 then s
          else if runs then s.engRetire k c (s.engBody k (body s w))
          else s.engRetire k 1 (.seq s)

/-- The same with a fixed cost. Assumption log 18, DESIGN CHOICE. -/
def State.engRun (s : State) (k : Nat) (kind : EK) (cost : Nat) (body : State → Nat → EngNext) : State :=
  s.engRunC k kind (fun _ _ => cost) body

/-! ### The handler (08 R178, R185, R192) -/

/-- Whether the handler may start: once in a tick, before the cut-off, not before the boundary after a load or restart (08 R178, R185, R192),
and not while the crossing of a restart flushes (02 R57). -/
def State.engMayStart (s : State) (k : Nat) : Bool :=
  s.engState k == engRUNNING && (s.eng k).startOrd != s.clk.ord + 1 && !s.clk.pastCutoff && !(s.eng k).shaking

/-- The handler starts at the tick entry, or at the init entry after a load or restart (08 R178, R185). -/
def State.engStart (s : State) (k : Nat) : State :=
  if !s.engMayStart k then s else
    s.setEng k fun x => { x with active := true, yielded := false, cyc := 0, waitTo := none, startOrd := s.clk.ord + 1
                                 pc := if x.initNext then x.initAt else x.tickAt, initNext := false }

/-- `ENG_HANDLER_START` (08 R178). -/
def execEngHandlerStart (k : Se) (s : State) : Out := .next (s.engStart k)

/-- An engine soft reset (08 R185): registers, queues, staged outputs, masks and overrun run; data memory reloaded. The replies of the
kernel that wait are no queue of the engine: the kernel never drops one (08 R189), and the requests it is serving go on to their
replies (assumption log 82, DEDUCED). The handler does not start before the next boundary, nor before the crossing is flushed (02 R57). -/
def State.engSoftReset (s : State) (k : Nat) : State :=
  let s := s.setEng k fun x => { x.clearRegs.clearStaged with
    run := 0, inq := [], arriving := [], outq := [], active := false, yielded := false, waitTo := none, cyc := 0
    startOrd := s.clk.ord + 1, shaking := s.clk.counting }
  let d := (s.eng k).initData
  let s := (s.fillZero (dmemAddr k 0) 0x20000).putBytes (dmemAddr k 0) d
  s.setSl k fun x => { x with newExclude := some 0, newChanMask := some 0 }

/-- A restart (08 R185, R192). -/
def State.engRestart (s : State) (k : Nat) : State :=
  let s := (s.engSoftReset k).inc Obj.ENG_RESTART_COUNT k
  let st := s.engState k
  if st = engEMPTY ∨ st = engLOADING then s
  else if Mode.engines s.mode then (s.setEngState k engRUNNING).setEng k fun x => { x with initNext := true }
  else s.setEngState k engREADY

/-- Whether an engine's bank is withheld from automatic restart (21 R503). -/
def State.bankWithheld (s : State) (k : Nat) : Bool := s.flt.bankHeld.contains (16 + k / 16) || s.flt.bankHeld.contains (32 + k / 16)

/-- The kernel's automatic restart, in the 250th tick after that of the quarantine and in no other, within the hour's limit: an engine
refused then returns by `ENG_CMD` alone (08 R185). -/
def State.engAutoRestart (s : State) (k : Nat) : State :=
  let x := s.eng k
  let hour := s.tick / 900000000
  let done := if x.autoHour = hour then x.autoDone else 0
  if s.engState k = engQUARANTINED ∧ s.clk.ord = x.quarOrd + 250 ∧ done < s.nat Obj.ENG_AUTO_RESTART k ∧ s.bankWithheld k = false then
    (s.engRestart k).setEng k fun x => { x with autoHour := hour, autoDone := done + 1 }
  else s

/-- `ENG_AUTO_RESTART` (08 R185). -/
def execEngAutoRestart (k : Se) (s : State) : Out := .next (s.engAutoRestart k)

/-- `UNLOAD`: the engine is `EMPTY` (08 R192). -/
def State.engUnload (s : State) (k : Nat) : State :=
  let s := { s with engLoads := s.engLoads.filter fun j => j != k }
  (s.setEngState k engEMPTY).setEng k fun x => { x.clearStaged with active := false, yielded := false, waitTo := none
                                                                    initNext := false, load := none }

/-- Engines at a mode change (08 R192, 20 R485). -/
def State.engMode (s : State) (m : Int) : State :=
  (List.range 256).foldl (fun s k =>
    if Mode.engines m then (if s.engState k = engREADY then s.setEngState k engRUNNING else s)
    else if s.engState k = engRUNNING then
      (s.setEngState k engREADY).setEng k fun x => { x.clearStaged with active := false, yielded := false, initNext := false }
    else s) s

/-- What the hand-in gives an engine (08 R176-R178): messages join, the block's fields are taken. -/
def State.engTake1 (s : State) (k : Nat) (x : Eng) : Eng :=
  let q := x.inq ++ x.arriving
  { x with inq := q, arriving := [], hInbound := q.length, hRun := x.run, hBoost := s.nat Obj.SUPP_BOOST k
           hGen := s.nat Obj.TABLE_GEN (k / 16) 4, active := false, yielded := false, waitTo := none }

/-- The hand-in of every engine that runs, and of every other that holds anything (08 R176-R178). -/
def State.engHandIn (s : State) : State :=
  let due (k : Nat) : Bool := s.engState k == engRUNNING || s.engs.any fun e => e.1 == k
  ((List.range 256).filter due).foldl (fun s k => s.setEng k (s.engTake1 k)) s

/-- The spectra of periods whose last tick is handed in now replace the spectrum window as a whole (08 R176, 02 R34); they are framed
one tick later. -/
def State.specHandover (s : State) : State :=
  let due (x : Spectrum) : Bool := decide (x.ended + 2 ≤ s.clk.ord)
  let l := s.win.waiting.filter due
  match l with
  | [] => s
  | x :: _ =>
    let m := l.foldl (fun (m : SMap Spectrum) sp => (smKeep (fun i => i != sp.input) m ++ [(sp.input, sp)]).mergeSort
      fun a b => decide (a.1 ≤ b.1)) []
    { s with win := { s.win with spectra := m, waiting := s.win.waiting.filter fun x => !due x, framing := s.win.framing ++ l
                                 specFirst := x.first, specLen := x.len, gen := (s.win.gen + 1) % 65536 } }

end Sys2Proof.Machine
end

