-- ==== Sys2Proof/Machine/EngAlu.lean ====
section
/-! DEFINITION. The engines' arithmetic, logic, shift, constant, compare and predicate instructions (09 R200, R201). -/

namespace Sys2Proof.Machine

/-- The first source register of a word. -/
def State.srcB (s : State) (k w : Nat) : Word := s.gr k (EngW.b w)

/-- The second source register. -/
def State.srcC (s : State) (k w : Nat) : Word := s.gr k (EngW.c w)

/-- An instruction of format R that writes `f ga gb` to gd. -/
def State.engRrr (s : State) (k : Nat) (kind : EK) (cost : Nat) (f : Word → Word → Word) : State :=
  s.engRun k kind cost fun s w => .seq (s.setGr k (EngW.a w) (f (s.srcB k w) (s.srcC k w)))

/-- An instruction that writes `f w ga` to gd. -/
def State.engRr (s : State) (k : Nat) (kind : EK) (cost : Nat) (f : Nat → Word → Word) : State :=
  s.engRun k kind cost fun s w => .seq (s.setGr k (EngW.a w) (f w (s.srcB k w)))

/-- A signed value limited to 32 bits. -/
def limit32 (v : Int) : Word := BitVec.ofInt 32 (clampInt (-(2 ^ 31)) (2 ^ 31 - 1) v)

/-- `rcp` (09 R200). -/
def rcpWord (a : Word) : Word := if a.toNat ≤ 1 then 0xFFFFFFFF else BitVec.ofNat 32 (2 ^ 32 / a.toNat)

/-- `sqrt` (09 R200). -/
def sqrtWord (a : Word) : Word := BitVec.ofNat 32 (isqrt (a.toNat * 2 ^ 16))

/-- `fcvt` (09 R200): truncated towards zero, limited; NaN gives 0, an infinity the bound of its sign. -/
def fcvtWord (a : Word) (sh : Nat) : Word :=
  let n := a.toNat
  if f32Bad n then
    (if n % 2 ^ 23 ≠ 0 then 0 else if n.testBit 31 then 0x80000000 else 0x7FFFFFFF)
  else limit32 (Int.tdiv (f32Num n * 2 ^ sh) (2 ^ 149))

/-- `clz` (09 R200). -/
def clzWord (a : Word) : Word := if a = 0 then 32 else BitVec.ofNat 32 (31 - Nat.log2 a.toNat)

/-- `bext` (09 R200). -/
def bextWord (a : Word) (pos len : Nat) : Word := BitVec.ofNat 32 (a.toNat / 2 ^ pos % 2 ^ len)

/-- `bins` (09 R200). -/
def binsWord (d a : Word) (pos len : Nat) : Word :=
  let m : Nat := (2 ^ len - 1) * 2 ^ pos % 2 ^ 32
  let mask : Word := BitVec.ofNat 32 m
  (d &&& ~~~mask) ||| (BitVec.ofNat 32 (a.toNat % 2 ^ len * 2 ^ pos) &&& mask)

/-- The shift amount of group 0x12 (09 R200). -/
def State.shiftAmount (s : State) (k w : Nat) : Nat :=
  if w.testBit 10 then EngW.bits w 4 0 else (s.srcC k w).toNat % 32

/-- The comparison codes (09 R201). -/
def engCompare (cc : Nat) (a b : Word) : Bool :=
  match cc with
  | 0 => a == b
  | 1 => a != b
  | 2 => decide (a.toInt < b.toInt)
  | 3 => decide (b.toInt ≤ a.toInt)
  | 4 => decide (a.toNat < b.toNat)
  | _ => decide (b.toNat ≤ a.toNat)

/-- A predicate operation of two sources. -/
def State.engPred (s : State) (k : Nat) (kind : EK) (f : Bool → Bool → Bool) : State :=
  s.engRun k kind 1 fun s w => .seq (s.setPr k (EngW.a w) (f (s.pr k (EngW.b w)) (s.pr k (EngW.c w))))

/-- A shift of a general register. -/
def State.engShift (s : State) (k : Nat) (kind : EK) (f : Word → Nat → Word) : State :=
  s.engRun k kind 1 fun s w => .seq (s.setGr k (EngW.a w) (f (s.srcB k w) (s.shiftAmount k w)))

/-- `ADD` (09 R200). -/
def execAdd (k : Se) (s : State) : Out := .next (s.engRrr k .add 1 fun a b => a + b)

/-- `SUB` (09 R200). -/
def execSub (k : Se) (s : State) : Out := .next (s.engRrr k .sub 1 fun a b => a - b)

/-- `ADDS` (09 R200). -/
def execAdds (k : Se) (s : State) : Out := .next (s.engRrr k .adds 1 fun a b => limit32 (a.toInt + b.toInt))

/-- `SUBS` (09 R200). -/
def execSubs (k : Se) (s : State) : Out := .next (s.engRrr k .subs 1 fun a b => limit32 (a.toInt - b.toInt))

/-- `ADDI` (09 R200). -/
def execAddi (k : Se) (s : State) : Out :=
  .next (s.engRr k .addi 1 fun w a => a + BitVec.ofInt 32 (ofTwos 15 (EngW.imm w)))

/-- `MUL` (09 R200). -/
def execMul (k : Se) (s : State) : Out := .next (s.engRrr k .mul 2 fun a b => a * b)

/-- `MIN` (09 R200). -/
def execMin (k : Se) (s : State) : Out := .next (s.engRrr k .min 1 fun a b => if a.toInt ≤ b.toInt then a else b)

/-- `MAX` (09 R200). -/
def execMax (k : Se) (s : State) : Out := .next (s.engRrr k .max 1 fun a b => if a.toInt ≤ b.toInt then b else a)

/-- `RCP` (09 R200). -/
def execRcp (k : Se) (s : State) : Out := .next (s.engRr k .rcp 6 fun _ a => rcpWord a)

/-- `SQRT` (09 R200). -/
def execSqrt (k : Se) (s : State) : Out := .next (s.engRr k .sqrt 6 fun _ a => sqrtWord a)

/-- `FCVT` (09 R200). -/
def execFcvt (k : Se) (s : State) : Out := .next (s.engRr k .fcvt 1 fun w a => fcvtWord a (EngW.bits w 4 0))

/-- `AND` (09 R200). -/
def execAnd (k : Se) (s : State) : Out := .next (s.engRrr k .and 1 fun a b => a &&& b)

/-- `OR` (09 R200). -/
def execOr (k : Se) (s : State) : Out := .next (s.engRrr k .or 1 fun a b => a ||| b)

/-- `XOR` (09 R200). -/
def execXor (k : Se) (s : State) : Out := .next (s.engRrr k .xor 1 fun a b => a ^^^ b)

/-- `CLZ` (09 R200). -/
def execClz (k : Se) (s : State) : Out := .next (s.engRr k .clz 1 fun _ a => clzWord a)

/-- `BEXT` (09 R200). -/
def execBext (k : Se) (s : State) : Out :=
  .next (s.engRr k .bext 1 fun w a => bextWord a (EngW.bits w 9 5) (EngW.bits w 4 0 + 1))

/-- `BINS` (09 R200). -/
def execBins (k : Se) (s : State) : Out :=
  .next (s.engRun k .bins 1 fun s w =>
    .seq (s.setGr k (EngW.a w) (binsWord (s.gr k (EngW.a w)) (s.srcB k w) (EngW.bits w 9 5) (EngW.bits w 4 0 + 1))))

/-- `SHL` (09 R200). -/
def execShl (k : Se) (s : State) : Out := .next (s.engShift k .shl fun a n => a <<< n)

/-- `SHR` (09 R200). -/
def execShr (k : Se) (s : State) : Out := .next (s.engShift k .shr fun a n => a >>> n)

/-- `SAR` (09 R200). -/
def execSar (k : Se) (s : State) : Out := .next (s.engShift k .sar fun a n => a.sshiftRight n)

/-- `LI` (09 R200). -/
def execLi (k : Se) (s : State) : Out :=
  .next (s.engRun k .li 1 fun s w => .seq (s.setGr k (EngW.a w) (BitVec.ofInt 32 (ofTwos 16 (EngW.imm16 w)))))

/-- `LIH` (09 R200). -/
def execLih (k : Se) (s : State) : Out :=
  .next (s.engRun k .lih 1 fun s w =>
    .seq (s.setGr k (EngW.a w) (BitVec.ofNat 32 (EngW.imm16 w * 65536 + (s.gr k (EngW.a w)).toNat % 65536))))

/-- `CMP` (09 R201). -/
def execCmp (k : Se) (s : State) : Out :=
  .next (s.engRun k .cmp 1 fun s w =>
    .seq (s.setPr k (EngW.a w) (engCompare (EngW.bits w 2 0) (s.srcB k w) (s.srcC k w))))

/-- `CMPI` (09 R201). -/
def execCmpi (k : Se) (s : State) : Out :=
  .next (s.engRun k .cmpi 1 fun s w =>
    .seq (s.setPr k (EngW.a w)
      (engCompare (EngW.bits w 14 12) (s.srcB k w) (BitVec.ofInt 32 (ofTwos 12 (EngW.bits w 11 0))))))

/-- `PAND` (09 R201). -/
def execPand (k : Se) (s : State) : Out := .next (s.engPred k .pand fun a b => a && b)

/-- `POR` (09 R201). -/
def execPor (k : Se) (s : State) : Out := .next (s.engPred k .por fun a b => a || b)

/-- `PXOR` (09 R201). -/
def execPxor (k : Se) (s : State) : Out := .next (s.engPred k .pxor fun a b => a != b)

/-- `PANDN` (09 R201). -/
def execPandn (k : Se) (s : State) : Out := .next (s.engPred k .pandn fun a b => a && !b)

/-- `PSET` (09 R201). -/
def execPset (k : Se) (s : State) : Out := .next (s.engRun k .pset 1 fun s w => .seq (s.setPr k (EngW.a w) true))

/-- `PCLR` (09 R201). -/
def execPclr (k : Se) (s : State) : Out := .next (s.engRun k .pclr 1 fun s w => .seq (s.setPr k (EngW.a w) false))

/-- `RDP` (09 R201). -/
def execRdp (k : Se) (s : State) : Out :=
  .next (s.engRun k .rdp 1 fun s w => .seq (s.setGr k (EngW.a w) (BitVec.ofNat 32 (ofBits ((List.range 4).map (s.pr k))))))

/-- `WRP` (09 R201). -/
def execWrp (k : Se) (s : State) : Out :=
  .next (s.engRun k .wrp 1 fun s w =>
    .seq ((List.range 4).foldl (fun t i => t.setPr k i ((s.srcB k w).toNat.testBit i)) s))

end Sys2Proof.Machine
end

