-- ==== Sys2Proof/Machine/EngVec.lean ====
section
/-! DEFINITION. The engines' loads, stores and vector instructions (09 R202-R204). -/

namespace Sys2Proof.Machine

/-- The address of a load or store (09 R202). -/
def State.engAddr (s : State) (k w : Nat) : Nat := (s.srcB k w + BitVec.ofInt 32 (EngW.off w)).toNat

/-- The exception of an access of `n` bytes, if it raises one: bounds, then misalignment, then poison (09 R213). -/
def State.engFault (s : State) (k a n : Nat) (store : Bool) : Option Nat :=
  if !engInRange a n store then some 3
  else if a % n != 0 then some 2
  else if !store && s.engPoisoned k a n then some 4
  else none

/-- The bytes of an access by `SIZE` of `ld` (09 R202). -/
def ldBytes (size : Nat) : Nat := match size with | 0 => 4 | 1 => 2 | 2 => 2 | _ => 1

/-- The bytes of an access by `SIZE` of `st`. -/
def stBytes (size : Nat) : Nat := match size with | 0 => 4 | 1 => 2 | _ => 1

/-- `LD` (09 R202). -/
def execLd (k : Se) (s : State) : Out :=
  .next (s.engRun k .ld 1 fun s w =>
    let a := s.engAddr k w
    let sz := EngW.size w
    match s.engFault k a (ldBytes sz) false with
    | some c => .exc c a
    | none =>
      let v := s.engRead k a (ldBytes sz)
      .seq (s.setGr k (EngW.a w) (if sz = 1 then BitVec.ofInt 32 (ofTwos 16 v) else BitVec.ofNat 32 v)))

/-- `ST` (09 R202, R214). -/
def execSt (k : Se) (s : State) : Out :=
  .next (s.engRun k .st 1 fun s w =>
    let a := s.engAddr k w
    let n := stBytes (EngW.size w)
    match s.engFault k a n true with
    | some c => .exc c a
    | none => .seq (s.engStore k a (leBytes n (s.gr k (EngW.a w)).toNat)))

/-- `VLD` (09 R202). -/
def execVld (k : Se) (s : State) : Out :=
  .next (s.engRun k .vld 1 fun s w =>
    let a := s.engAddr k w
    let sz := EngW.size w
    let n := if sz = 0 then 4 else 2
    match s.engFault k a (8 * n) false with
    | some c => .exc c a
    | none => .seq (s.setVr k (EngW.a w) fun j =>
        let v := s.engRead k (a + n * j) n
        if sz = 1 then BitVec.ofInt 32 (ofTwos 16 v) else BitVec.ofNat 32 v))

/-- `VST` (09 R202, R214). -/
def execVst (k : Se) (s : State) : Out :=
  .next (s.engRun k .vst 1 fun s w =>
    let a := s.engAddr k w
    let n := if EngW.size w = 0 then 4 else 2
    match s.engFault k a (8 * n) true with
    | some c => .exc c a
    | none =>
      .seq ((List.range 8).foldl (fun t j => t.engStore k (a + n * j) (leBytes n (s.vr k (EngW.a w) j).toNat)) s))

/-- A lane-by-lane instruction of two sources. -/
def State.engVvv (s : State) (k : Nat) (kind : EK) (cost : Nat) (f : Word → Word → Word) : State :=
  s.engRun k kind cost fun s w => .seq (s.setVr k (EngW.a w) fun i => f (s.vr k (EngW.b w) i) (s.vr k (EngW.c w) i))

/-- A lane-by-lane shift. -/
def State.engVshift (s : State) (k : Nat) (kind : EK) (f : Word → Nat → Word) : State :=
  s.engRun k kind 1 fun s w => .seq (s.setVr k (EngW.a w) fun i => f (s.vr k (EngW.b w) i) (EngW.bits w 4 0))

/-- A reduction over the lanes. -/
def State.engVred (s : State) (k : Nat) (kind : EK) (f : Word → Word → Word) : State :=
  s.engRun k kind 1 fun s w =>
    .seq (s.setGr k (EngW.a w) ((List.range 7).foldl (fun a i => f a (s.vr k (EngW.b w) (i + 1))) (s.vr k (EngW.b w) 0)))

/-- Signed minimum. -/
def minWord (a b : Word) : Word := if a.toInt ≤ b.toInt then a else b

/-- Signed maximum. -/
def maxWord (a b : Word) : Word := if a.toInt ≤ b.toInt then b else a

/-- The power of a complex word whose parts have `n` bits each (09 R204). -/
def powWord (n : Nat) (v : Word) : Word :=
  let re := ofTwos n (v.toNat / 2 ^ n)
  let im := ofTwos n v.toNat
  BitVec.ofInt 32 (re * re + im * im)

/-- `VADD` (09 R204). -/
def execVadd (k : Se) (s : State) : Out := .next (s.engVvv k .vadd 1 fun a b => a + b)

/-- `VSUB` (09 R204). -/
def execVsub (k : Se) (s : State) : Out := .next (s.engVvv k .vsub 1 fun a b => a - b)

/-- `VMIN` (09 R204). -/
def execVmin (k : Se) (s : State) : Out := .next (s.engVvv k .vmin 1 minWord)

/-- `VMAX` (09 R204). -/
def execVmax (k : Se) (s : State) : Out := .next (s.engVvv k .vmax 1 maxWord)

/-- `VMUL` (09 R204). -/
def execVmul (k : Se) (s : State) : Out := .next (s.engVvv k .vmul 2 fun a b => a * b)

/-- `VAND` (09 R204). -/
def execVand (k : Se) (s : State) : Out := .next (s.engVvv k .vand 1 fun a b => a &&& b)

/-- `VOR` (09 R204). -/
def execVor (k : Se) (s : State) : Out := .next (s.engVvv k .vor 1 fun a b => a ||| b)

/-- `VXOR` (09 R204). -/
def execVxor (k : Se) (s : State) : Out := .next (s.engVvv k .vxor 1 fun a b => a ^^^ b)

/-- `VSHL` (09 R204). -/
def execVshl (k : Se) (s : State) : Out := .next (s.engVshift k .vshl fun a n => a <<< n)

/-- `VSHR` (09 R204). -/
def execVshr (k : Se) (s : State) : Out := .next (s.engVshift k .vshr fun a n => a >>> n)

/-- `VSAR` (09 R204). -/
def execVsar (k : Se) (s : State) : Out := .next (s.engVshift k .vsar fun a n => a.sshiftRight n)

/-- `VCMP` (09 R204). -/
def execVcmp (k : Se) (s : State) : Out :=
  .next (s.engRun k .vcmp 1 fun s w =>
    .seq (s.setGr k (EngW.a w) (BitVec.ofNat 32 (ofBits ((List.range 8).map fun i =>
      engCompare (EngW.bits w 2 0) (s.vr k (EngW.b w) i) (s.vr k (EngW.c w) i))))))

/-- `VSPLAT` (09 R204). -/
def execVsplat (k : Se) (s : State) : Out :=
  .next (s.engRun k .vsplat 1 fun s w => .seq (s.setVr k (EngW.a w) fun _ => s.srcB k w))

/-- `VEXT` (09 R204). -/
def execVext (k : Se) (s : State) : Out :=
  .next (s.engRun k .vext 1 fun s w => .seq (s.setGr k (EngW.a w) (s.vr k (EngW.b w) (EngW.bits w 2 0))))

/-- `VINS` (09 R204). -/
def execVins (k : Se) (s : State) : Out :=
  .next (s.engRun k .vins 1 fun s w =>
    .seq (s.setVr k (EngW.a w) fun i => if i = EngW.bits w 2 0 then s.srcB k w else s.vr k (EngW.a w) i))

/-- `VRED_ADD` (09 R204). -/
def execVredAdd (k : Se) (s : State) : Out := .next (s.engVred k .vredAdd fun a b => a + b)

/-- `VRED_MAX` (09 R204). -/
def execVredMax (k : Se) (s : State) : Out := .next (s.engVred k .vredMax maxWord)

/-- `VRED_MIN` (09 R204). -/
def execVredMin (k : Se) (s : State) : Out := .next (s.engVred k .vredMin minWord)

/-- `VPOW_B` (09 R204). -/
def execVpowB (k : Se) (s : State) : Out :=
  .next (s.engRun k .vpowB 1 fun s w => .seq (s.setVr k (EngW.a w) fun i =>
    powWord 8 (BitVec.ofNat 32 ((s.vr k (EngW.b w) i).toNat % 65536))))

/-- `VPOW_H` (09 R204). -/
def execVpowH (k : Se) (s : State) : Out :=
  .next (s.engRun k .vpowH 1 fun s w => .seq (s.setVr k (EngW.a w) fun i => powWord 16 (s.vr k (EngW.b w) i)))

end Sys2Proof.Machine
end

