-- ==== Sys2Proof/Machine/EngPort.lean ====
section
/-! DEFINITION. The engines' context port, beam port, emissions, branches, loops and tick control (09 R205-R212). -/

namespace Sys2Proof.Machine

/-! ### Context port (09 R205-R207) -/

/-- A staged operation applied to its context (09 R206, R207), and whether an `unmask` is passed over. -/
def CtxOp.apply (op : CtxOp) (warmTicks : Nat) (served : Bool) (x : Ctx) : Ctx × Bool :=
  match op with
  | .cmd _ code => ctxCommand code 0 warmTicks served x
  | .cwr _ m _ w2 w3 =>
    let x := if m.testBit 0 then { x with baseline := Nat.min w3.toNat maxBaseline } else x
    let kv := w2.toNat / 2 ^ 24
    let x := if m.testBit 1 && !(kv == 0 && x.state != Ctx.UNSET) then { x with k := kv } else x
    let x := if m.testBit 2 then { x with warm := w2.toNat / 2 ^ 9 % 4096 } else x
    (if m.testBit 3 then { x with hang := w2.toNat / 2 % 256 } else x, false)

/-- The context an operation names. -/
def CtxOp.ctx : CtxOp → Nat
  | .cwr c _ _ _ _ => c
  | .cmd c _ => c

/-- `SUPP_WARM_TICKS` of an engine's bank. -/
def State.warmTicksOf (s : State) (k : Nat) : Nat := (s.liveVal Obj.SUPP_WARM_TICKS (k / 16)).toNat

/-- A context as the staged operations would leave it (08 R186, 09 R207). -/
def State.ctxSeen (s : State) (k c : Nat) : Ctx :=
  ((s.eng k).ops.filter fun o => o.ctx == c).foldl
    (fun x o => (o.apply (s.warmTicksOf k) (s.inService (c / 8)) x).1) (smGet {} (s.sl k).ctx c)

/-- Whether a context is poisoned. -/
def State.ctxPoisoned (s : State) (k c : Nat) : Bool := s.poisoned (ctxAddr k c) 16

/-- `CLD` (09 R205). -/
def execCld (k : Se) (s : State) : Out :=
  .next (s.engRun k .cld 2 fun s w =>
    let c := (s.srcB k w).toNat
    if c > 2047 then .exc 3 c
    else if s.ctxPoisoned k c then .exc 4 c
    else
      let v := (s.ctxSeen k c).word
      .seq ((List.range 4).foldl (fun t i => t.setGr k (EngW.a w + i) (BitVec.ofNat 32 (v / 2 ^ (32 * i)))) s))

/-- Stages a context operation, after its bounds check (09 R205, R213). -/
def State.engCtxOp (s : State) (k c : Nat) (op : CtxOp) : EngNext :=
  if c > 2047 then .exc 3 c else .seq (s.setEng k fun x => { x with ops := x.ops ++ [op] })

/-- `CWR` (09 R205, R206). -/
def execCwr (k : Se) (s : State) : Out :=
  .next (s.engRun k .cwr 1 fun s w =>
    let c := (s.srcB k w).toNat
    let r (i : Nat) : Word := s.gr k (EngW.a w + i)
    s.engCtxOp k c (.cwr c (EngW.bits w 3 0) (r 1) (r 2) (r 3)))

/-- A staged context command (09 R205). -/
def State.engCcmd (s : State) (k : Nat) (kind : EK) (code : Nat) : State :=
  s.engRun k kind 1 fun s w => let c := (s.srcB k w).toNat; s.engCtxOp k c (.cmd c code)

/-- `CCMD_HOLD` (09 R205). -/
def execCcmdHold (k : Se) (s : State) : Out := .next (s.engCcmd k .ccmdHold 1)

/-- `CCMD_RELEASE` (09 R205). -/
def execCcmdRelease (k : Se) (s : State) : Out := .next (s.engCcmd k .ccmdRelease 2)

/-- `CCMD_MASK` (09 R205). -/
def execCcmdMask (k : Se) (s : State) : Out := .next (s.engCcmd k .ccmdMask 3)

/-- `CCMD_UNMASK` (09 R205). -/
def execCcmdUnmask (k : Se) (s : State) : Out := .next (s.engCcmd k .ccmdUnmask 4)

/-- `CCMD_RESEED` (09 R205). -/
def execCcmdReseed (k : Se) (s : State) : Out := .next (s.engCcmd k .ccmdReseed 5)

/-- `CVB` (09 R205). -/
def execCvb (k : Se) (s : State) : Out :=
  .next (s.engRun k .cvb 2 fun s w =>
    let n := (s.srcB k w).toNat
    if n > 255 then .exc 3 n
    else match (List.range 8).find? fun i => s.ctxPoisoned k (8 * n + i) with
      | some i => .exc 4 (8 * n + i)
      | none => .seq (s.setVr k (EngW.a w) fun i => BitVec.ofNat 32 (s.ctxSeen k (8 * n + i)).baseline))

/-- The staged context operations of a handler are applied in program order (08 R180, 09 R207). -/
def State.engOpsApply (s : State) (k : Nat) : State :=
  let ops := (s.eng k).ops
  let step (s : State) (o : CtxOp) : State :=
    let old := smGet {} (s.sl k).ctx o.ctx
    let (x, skip) := o.apply (s.warmTicksOf k) (s.inService (o.ctx / 8)) old
    let s := if skip then s.inc Obj.SUPP_CMD_SKIP_COUNT else s
    if x = old then s else s.updCtx k o.ctx fun _ => x
  let s := ops.foldl step s
  s.setSl k fun x => { x with engWrote := (ops.map CtxOp.ctx).eraseDups }

/-! ### Beam port (09 R208) -/

/-- Word `w` of a mask. -/
def maskWord (m w : Nat) : Nat := m / 2 ^ (32 * w) % 2 ^ 32

/-- A mask with staged words put in. -/
def maskWith (m : Nat) (staged : SMap Nat) : Nat :=
  (List.range 8).foldl (fun a w =>
    let v := match staged.find? fun e => e.1 == w with | some e => e.2 | none => maskWord m w
    a + v * 2 ^ (32 * w)) 0

/-- A staged word, put into a staging map (every value is listed). -/
def stageWord (m : SMap Nat) (w v : Nat) : SMap Nat :=
  (w, v) :: m.filter fun e => e.1 != w

/-- `BWX` (09 R208). -/
def execBwx (k : Se) (s : State) : Out :=
  .next (s.engRun k .bwx 1 fun s w =>
    .seq (s.setEng k fun x => { x with bx := stageWord x.bx ((s.srcC k w).toNat % 8) (s.srcB k w).toNat }))

/-- `BWC` (09 R208). -/
def execBwc (k : Se) (s : State) : Out :=
  .next (s.engRun k .bwc 1 fun s w =>
    .seq (s.setEng k fun x => { x with bc := stageWord x.bc ((s.srcC k w).toNat % 8) (s.srcB k w).toNat }))

/-- `BRX` (09 R208). -/
def execBrx (k : Se) (s : State) : Out :=
  .next (s.engRun k .brx 1 fun s w =>
    .seq (s.setGr k (EngW.a w) (BitVec.ofNat 32
      (maskWord (maskWith (s.sl k).exclude (s.eng k).bx) ((s.srcC k w).toNat % 8)))))

/-- `BRC` (09 R208). -/
def execBrc (k : Se) (s : State) : Out :=
  .next (s.engRun k .brc 1 fun s w =>
    .seq (s.setGr k (EngW.a w) (BitVec.ofNat 32
      (maskWord (maskWith (s.sl k).chanMask (s.eng k).bc) ((s.srcC k w).toNat % 8)))))

/-- The staged beam masks wait for the boundary (07 R171, 08 R180). -/
def State.engMasksApply (s : State) (k : Nat) : State :=
  let x := s.eng k
  s.setSl k fun y => { y with
    newExclude := if x.bx.isEmpty then y.newExclude else some (maskWith (y.newExclude.getD y.exclude) x.bx)
    newChanMask := if x.bc.isEmpty then y.newChanMask else some (maskWith (y.newChanMask.getD y.chanMask) x.bc) }

/-! ### Emissions and messages (09 R209) -/

/-- `TRIG` (09 R209, 08 R187). -/
def execTrig (k : Se) (s : State) : Out :=
  .next (s.engRun k .trig 1 fun s w =>
    let v := s.srcB k w
    if (s.eng k).trigs.length ≥ 4 ∨ v.toNat % 2 ^ 13 ≠ 0 then
      .seq ((s.setPr k (EngW.a w) false).inc Obj.ENG_TRIG_DROP_COUNT k)
    else .seq ((s.setPr k (EngW.a w) true).setEng k fun x => { x with trigs := x.trigs ++ [v] }))

/-- `MEAS` (09 R209, 08 R188). -/
def execMeas (k : Se) (s : State) : Out :=
  .next (s.engRun k .meas 1 fun s w =>
    let hi := (s.gr k (EngW.b w + 1)).toNat
    let lo := (s.srcB k w).toNat
    if (s.eng k).meas.length ≥ 8 ∨ hi / 2 ^ 16 % 8 ≠ 0 ∨ hi / 2 ^ 8 % 256 < 0x80 then
      .seq ((s.setPr k (EngW.a w) false).inc Obj.ENG_MEAS_DROP_COUNT k)
    else .seq ((s.setPr k (EngW.a w) true).setEng k fun x =>
      { x with meas := x.meas ++ [BitVec.ofNat 64 (hi * 2 ^ 32 + lo)] }))

/-- `KIND` of a message (08 R189). -/
def msgKind (m : List Word) : Nat := (nth 0 m 0).toNat / 2 ^ 24

/-- `LENGTH` of a message. -/
def msgLen (m : List Word) : Nat := (nth 0 m 0).toNat / 2 ^ 16 % 256

/-- `SEQ` of a message. -/
def msgSeq (m : List Word) : Nat := (nth 0 m 0).toNat % 2 ^ 16

/-- The payload bytes of a message. -/
def msgBytes (m : List Word) : List Byte := (m.drop 1).flatMap fun w => leBytes 4 w.toNat

/-- A message of a header and payload bytes. -/
def mkMsg (kind len seq : Nat) (payload : List Byte) : List Word :=
  BitVec.ofNat 32 (kind * 2 ^ 24 + len * 2 ^ 16 + seq) ::
    (List.range 7).map fun i => BitVec.ofNat 32 (leNat (slice payload (4 * i) 4))

/-- `SEND` (09 R209). -/
def execSend (k : Se) (s : State) : Out :=
  .next (s.engRun k .send 1 fun s w =>
    let m := s.vrAll k (EngW.b w)
    if (s.eng k).msgs.length ≥ 8 ∨ msgLen m > 28 ∨ msgKind m > 0x8F then .seq (s.setPr k (EngW.a w) false)
    else .seq ((s.setPr k (EngW.a w) true).setEng k fun x => { x with msgs := x.msgs ++ [m] }))

/-- Whether the oldest message of the inbound queue carries a poison mark (09 R213; 18 R432). -/
def State.msgPoisoned (s : State) (k : Nat) : Bool := s.poisoned (msgAddr k (s.eng k).inHead) 32

/-- `RECV` (09 R209, R213). Assumption log 22, DESIGN CHOICE. -/
def execRecv (k : Se) (s : State) : Out :=
  .next (s.engRun k .recv 1 fun s w =>
    match (s.eng k).inq with
    | [] => .seq (s.setPr k (EngW.a w) false)
    | m :: r =>
      if s.msgPoisoned k then .exc 4 0
      else .seq (((s.setPr k (EngW.a w) true).setVr k (EngW.b w) fun i => nth 0 m i).setEng k fun x =>
        { x with inq := r, inHead := (x.inHead + 1) % 32 }))

/-- The staged messages join the outbound queue as far as they fit (08 R189). -/
def State.engMsgsApply (s : State) (k : Nat) : State :=
  let x := s.eng k
  let all := x.outq ++ x.msgs
  (s.inc Obj.ENG_MSG_DROP_COUNT k (n := all.length - 64)).setEng k fun x => { x with outq := all.take 64 }

/-- Whether the inbound queue has room (08 R174, R189). -/
def Eng.inRoom (x : Eng) : Bool := decide (x.inq.length + x.arriving.length < 32)

/-- A message that arrives for an engine that has room: it is written to the queue's next place, whole words with fresh check bits
(18 R428). -/
def State.engArrive (s : State) (k : Nat) (m : List Word) : State :=
  let x := s.eng k
  (s.clearPoison (msgAddr k (x.inHead + x.inq.length + x.arriving.length)) 32).setEng k fun x => { x with arriving := x.arriving ++ [m] }

/-- A hardware notice: dropped and counted when the queue is full (08 R189). -/
def State.engNotice (s : State) (k : Nat) (m : List Word) : State :=
  if (s.eng k).inRoom then s.engArrive k m else s.inc Obj.ENG_NOTICE_DROP_COUNT k

/-- A reply of the kernel: it waits for room (08 R189, R190). -/
def State.engReply (s : State) (k seq status : Nat) : State :=
  s.setEng k fun x => { x with replies := x.replies ++ [mkMsg 0xC0 1 seq (leBytes 1 status)] }

/-- The oldest waiting reply enters the queue when it has room (08 R189). Assumption log 22, DESIGN CHOICE. -/
def State.engReplyDeliver (s : State) (k : Nat) : State :=
  match (s.eng k).replies with
  | [] => s
  | m :: r => if (s.eng k).inRoom then (s.engArrive k m).setEng k fun x => { x with replies := r } else s

/-- `ENG_REPLY_DELIVER` (08 R189). -/
def execEngReplyDeliver (k : Se) (s : State) : Out := .next (s.engReplyDeliver k)

/-! ### Branches, loops and tick control (09 R210-R212) -/

/-- `BR` (09 R210). -/
def execBr (k : Se) (s : State) : Out := .next (s.engRun k .br 2 fun s w => .jump s (EngW.target w))

/-- `JAL` (09 R210). -/
def execJal (k : Se) (s : State) : Out :=
  .next (s.engRun k .jal 2 fun s w =>
    .jump (s.setGr k (EngW.a w) (BitVec.ofNat 32 ((s.eng k).pc + 1))) (EngW.target w))

/-- `JR` (09 R210, R213). -/
def execJr (k : Se) (s : State) : Out :=
  .next (s.engRun k .jr 2 fun s w =>
    let t := (s.srcB k w).toNat
    if t > 16383 then .exc 1 0 else .jump s t)

/-- Starts a loop (09 R211). -/
def State.engLoop (s : State) (k w n : Nat) : EngNext :=
  let i := EngW.lc w
  let stop := EngW.target w
  let l : LoopCtr := { count := n, start := (s.eng k).pc + 1, stop }
  let s := s.setEng k fun x =>
    let x := if i = 0 then { x with lc0 := l } else { x with lc1 := l }
    if n = 0 then x else { x with newer := i }
  if n = 0 then .skip s (stop + 1) else .seq s

/-- `LOOP` (09 R210, R211). -/
def execLoop (k : Se) (s : State) : Out :=
  .next (s.engRunC k .loop (fun s w => if s.gr k (EngW.lb w) = 0 then 2 else 1) fun s w =>
    s.engLoop k w (s.gr k (EngW.lb w)).toNat)

/-- `LOOPI` (09 R210, R211). -/
def execLoopi (k : Se) (s : State) : Out :=
  .next (s.engRunC k .loopi (fun _ w => if EngW.count w = 0 then 2 else 1) fun s w => s.engLoop k w (EngW.count w))

/-- `YIELD` (09 R210, R212). -/
def execYield (k : Se) (s : State) : Out := .next (s.engRun k .yield 1 fun s _ => .stop s)

/-- `WAIT` (09 R210): a stall, when the count is not reached. -/
def execWait (k : Se) (s : State) : Out :=
  .next (s.engRun k .wait 1 fun s w =>
    let n := EngW.bits w 10 0
    .seq (if (s.eng k).cyc < n then s.setEng k fun x => { x with waitTo := some n } else s))

/-- `ENG_WAIT_END` (09 R210): the stall ends when the handler count is reached; one that reaches the cut-off never does
(R212). -/
def execEngWaitEnd (k : Se) (s : State) : Out :=
  .next (match (s.eng k).waitTo with
    | some n =>
      if s.engState k == engRUNNING && (s.eng k).active && decide (n < 1792) then
        s.setEng k fun x => { x with waitTo := none, cyc := n + 1 }
      else s
    | none => s)

/-- `RDCYC` (09 R210). -/
def execRdcyc (k : Se) (s : State) : Out :=
  .next (s.engRun k .rdcyc 1 fun s w => .seq (s.setGr k (EngW.a w) (BitVec.ofNat 32 (s.eng k).cyc)))

end Sys2Proof.Machine
end

