-- ==== Sys2Proof/Machine/Coder.lean ====
section
/-! DEFINITION. The fixed-ratio block coder (12). -/

namespace Sys2Proof.Machine

/-! ### Bits and tables (12 R267, R274, R276) -/

/-- `n` bits of a number, the most-significant first. -/
def msbBits (n v : Nat) : List Bool := (List.range n).map fun i => v.testBit (n - 1 - i)

/-- Bits packed into bytes, the first bit the most-significant (12 R267). -/
def packBits : Nat → List Bool → List Byte
  | 0, _ => []
  | n + 1, l => BitVec.ofNat 8 ((List.range 8).foldl (fun a i => 2 * a + (if nth false l i then 1 else 0)) 0) :: packBits n (l.drop 8)

/-- The code lengths of the static table (12 R274). -/
def staticLengths : List Nat := (List.range 17).map fun q => if q < 16 then q + 1 else 16

/-- The code lengths of table `j` of a table set: 0 static, 1-8 dynamic tables 0-7 (12 R276). -/
def tabLengths (set : List Byte) (j : Nat) : List Nat :=
  if j = 0 then staticLengths else (List.range 17).map fun x => (nth 0 set (1 + 17 * (j - 1) + x)).toNat

/-- Whether lengths lie in 1-16 and fill the code (12 R274, R276). -/
def lengthsOk (l : List Nat) : Bool :=
  l.all (fun n => decide (1 ≤ n ∧ n ≤ 16)) && l.foldl (fun a n => a + 2 ^ (16 - n)) 0 == 2 ^ 16

/-- Whether every dynamic table of a set satisfies R274. -/
def coderSetOk (set : List Byte) : Bool := (List.range 8).all fun j => lengthsOk (tabLengths set (j + 1))

/-- The canonical code words, as (symbol, length, word) in order of length, then of symbol (12 R274). -/
def canonical (l : List Nat) : List (Nat × Nat × Nat) :=
  let order := (List.range 17).flatMap fun len => (List.range 17).filterMap fun x => if nth 0 l x = len then some (x, len) else none
  (order.foldl (fun (a : List (Nat × Nat × Nat) × Nat × Nat) e =>
    let code := a.2.1 * 2 ^ (e.2 - a.2.2)
    (a.1 ++ [(e.1, e.2, code)], code + 1, e.2)) ([], 0, 0)).1

/-- The code word of a symbol: its length and value. -/
def codeWord (c : List (Nat × Nat × Nat)) (x : Nat) : Nat × Nat :=
  match c.find? (fun e => e.1 == x) with
  | some e => e.2
  | none => (0, 0)

/-! ### Preparing the samples (12 R271-R273) -/

/-- The samples of a block as ranges and mantissas; `none` is `SAT`. -/
def blockSamples (words : List (BitVec 12)) : List (Nat × Option Int) :=
  words.map fun w => (w.toNat / 1024, if w == 0xE00 then none else some (ofTwos 10 (w.toNat % 1024)))

/-- The positions at which the range changes, with the new range (12 R269). -/
def rangeChanges (l : List (Nat × Option Int)) : List (Nat × Nat) :=
  (List.range (l.length - 1)).filterMap fun i =>
    let a := (nth (0, none) l i).1
    let b := (nth (0, none) l (i + 1)).1
    if a = b then none else some (i + 1, b)

/-- A block folded to its highest range (12 R271). -/
def foldRanges (l : List (Nat × Option Int)) : List (Nat × Option Int) :=
  let r := l.foldl (fun a x => Nat.max a x.1) 0
  l.map fun x => (r, x.2.map fun m => divAway m (4 ^ (r - x.1)))

/-- The code of a mantissa with `s` dropped bits (12 R272). -/
def sampleCode (s : Nat) (m : Option Int) : Int :=
  let lim : Int := 2 ^ (9 - s)
  match m with
  | none => -lim
  | some v => let c := v / (2 ^ s : Int); if c < -lim + 1 then -lim + 1 else c

/-- A code as a mantissa again; `none` is `SAT` (12 R272). -/
def reconCode (s : Nat) (c : Int) : Option Int :=
  if c = -(2 ^ (9 - s) : Int) then none else if s = 0 then some c else some (c * 2 ^ s + 2 ^ (s - 1))

/-- The zigzag value of a code (12 R273). -/
def zigzag (c : Int) : Nat := if 0 ≤ c then (2 * c).toNat else (-2 * c - 1).toNat

/-! ### Codes (12 R273, R275, R277) -/

/-- The bits of one sample's code. -/
def sampleCost (lens : List Nat) (s k z : Nat) : Nat :=
  let q := z >>> k
  if q ≤ 15 then nth 0 lens q + k else nth 0 lens 16 + (10 - s)

/-- The bits of a coded block (12 R275). -/
def blockCost (lens : List Nat) (s k nchg : Nat) (z : List Nat) : Nat :=
  z.foldl (fun a v => a + sampleCost lens s k v) (19 + 7 * nchg)

/-- The smallest cost over k at a given s, the lowest k at a tie (12 R275). -/
def bestK (lens : List Nat) (s nchg : Nat) (z : List Nat) : Nat × Nat :=
  (List.range (11 - s)).foldl (fun best k =>
    let n := blockCost lens s k nchg z
    if n < best.2 then (k, n) else best) (0, blockCost lens s 0 nchg z)

/-- What the coder made of a block. -/
structure Block where
  bytes    : List Byte
  used     : Nat
  lossy    : Bool
  folded   : Bool
  fallback : Bool
  syms     : List Nat

/-- A fallback block (12 R270, R275); `vf` marks one rewritten after a failed verification. -/
def fallbackBlock (b : Nat) (vf : Bool) (samples : List (Nat × Option Int)) : Block :=
  let folds := !(rangeChanges samples).isEmpty
  let l := if folds then foldRanges samples else samples
  let s := 11 - b
  let bits := msbBits 2 2 ++ [vf] ++ msbBits 2 ((nth (0, none) l 0).1) ++ List.replicate 27 false ++
    l.flatMap fun x => msbBits (b - 1) (toTwos (b - 1) (sampleCode s x.2))
  { bytes := packBits (4 * b) bits, used := 32 * b, lossy := true, folded := folds, fallback := true, syms := [] }

/-- The coded block of given parameters (12 R269, R273). -/
def codedBlock (b tab : Nat) (lens : List Nat) (fold : Bool) (samples : List (Nat × Option Int)) (s k n : Nat) : Block :=
  let words := canonical lens
  let chg := rangeChanges samples
  let head := msbBits 2 1 ++ msbBits 4 (if tab = 0 then 0 else 7 + tab) ++ msbBits 4 k ++ msbBits 4 s ++ [fold] ++
    msbBits 2 ((nth (0, none) samples 0).1) ++ msbBits 2 chg.length
  let changes := chg.flatMap fun c => msbBits 5 c.1 ++ msbBits 2 c.2
  let zs := samples.map fun x => zigzag (sampleCode s x.2)
  let code (z : Nat) : List Bool :=
    let q := z >>> k
    if q ≤ 15 then let w := codeWord words q; msbBits w.1 w.2 ++ msbBits k z
    else let w := codeWord words 16; msbBits w.1 w.2 ++ msbBits (10 - s) z
  { bytes := packBits (4 * b) (head ++ changes ++ zs.flatMap code), used := n, lossy := fold || decide (0 < s), folded := fold
    fallback := false, syms := zs.map fun z => Nat.min 16 (z >>> k) }

/-- Codes one block of 32 raw words with a segment's table (12 R271, R275). -/
def codeBlock (b tab : Nat) (lens : List Nat) (words : List (BitVec 12)) : Block :=
  let raw := blockSamples words
  let fold := decide (3 < (rangeChanges raw).length)
  let l := if fold then foldRanges raw else raw
  let nchg := (rangeChanges l).length
  let try_ (s : Nat) : Option (Nat × Nat × Nat) :=
    let q := bestK lens s nchg (l.map fun x => zigzag (sampleCode s x.2))
    if q.2 ≤ 32 * b then some (s, q.1, q.2) else none
  match (List.range (12 - b)).findSome? try_ with
  | some (s, k, n) => codedBlock b tab lens fold l s k n
  | none => fallbackBlock b false raw

/-- The price of a block with a table: the smallest cost at s = 0 (12 R277). -/
def blockPrice (lens : List Nat) (words : List (BitVec 12)) : Nat :=
  let raw := blockSamples words
  let l := if 3 < (rangeChanges raw).length then foldRanges raw else raw
  (bestK lens 0 (rangeChanges l).length (l.map fun x => zigzag (sampleCode 0 x.2))).2

/-! ### Decoding (12 R283) -/

/-- Reads `n` bits as a number, with the bits left; none past the end. -/
def takeBits : Nat → List Bool → Option (Nat × List Bool)
  | 0, l => some (0, l)
  | _ + 1, [] => none
  | n + 1, b :: r => (takeBits n r).map fun q => ((if b then 2 ^ n else 0) + q.1, q.2)

/-- Matches a code word at the front of the bits, by length. -/
def matchWord (words : List (Nat × Nat × Nat)) (l : List Bool) : Option (Nat × List Bool) :=
  words.findSome? fun e =>
    match takeBits e.2.1 l with
    | some (v, r) => if v = e.2.2 then some (e.1, r) else none
    | none => none

/-- Reads the change entries (12 R269): positions rising from 1, each range another one. -/
def readChanges : Nat → Nat → Nat → List Bool → Option (List (Nat × Nat) × List Bool)
  | 0, _, _, l => some ([], l)
  | n + 1, pos, r, l => do
    let (p, l) ← takeBits 5 l
    let (q, l) ← takeBits 2 l
    if p ≤ pos ∨ q = r then none else
      let (rest, l) ← readChanges n p q l
      some ((p, q) :: rest, l)

/-- Reads the sample codes of a coded block. -/
def readCodes (words : List (Nat × Nat × Nat)) (s k : Nat) : Nat → List Bool → Option (List Int)
  | 0, _ => some []
  | n + 1, l => do
    let (x, l) ← matchWord words l
    let (z, l) ← if x = 16 then takeBits (10 - s) l else (takeBits k l).map fun q => (x * 2 ^ k + q.1, q.2)
    if 2 ^ (10 - s) ≤ z then none else
      let rest ← readCodes words s k n l
      let c : Int := if z % 2 = 0 then (z / 2 : Nat) else -(((z + 1) / 2 : Nat) : Int)
      some (c :: rest)

/-- A word of a range and a reconstructed mantissa (12 R272, R283). -/
def reconWord (r : Nat) (m : Option Int) : BitVec 12 := BitVec.ofNat 12 (r * 1024 + match m with | none => 512 | some v => toTwos 10 v)

/-- The same in a coded block, where `SAT` in a range other than 3 is an error (12 R283). -/
def codedWord (r : Nat) (m : Option Int) : Option (BitVec 12) :=
  if m.isNone && r != 3 then none else some (reconWord r m)

/-- What a block decodes to: `NODATA`, an error, or its 32 words. -/
inductive Decoded where
  | nodata | error | words (w : List (BitVec 12))

/-- Decodes a block of B bits per sample with its table set (12 R283). -/
def decodeBlock (b : Nat) (set : List Byte) (bytes : List Byte) : Decoded :=
  let l := bytes.flatMap fun x => msbBits 8 x.toNat
  let done (o : Option (List (BitVec 12))) : Decoded := match o with | some w => .words w | none => .error
  match takeBits 2 l with
  | some (0, _) => .nodata
  | some (2, l) => done do
      let (_, l) ← takeBits 1 l
      let (r, l) ← takeBits 2 l
      let (_, l) ← takeBits 27 l
      (List.range 32).mapM fun i => do
        let (v, _) ← takeBits (b - 1) (l.drop ((b - 1) * i))
        some (reconWord r (reconCode (11 - b) (ofTwos (b - 1) v)))
  | some (1, l) => done do
      let (tab, l) ← takeBits 4 l
      let (k, l) ← takeBits 4 l
      let (s, l) ← takeBits 4 l
      let (_, l) ← takeBits 1 l
      let (r, l) ← takeBits 2 l
      let (nchg, l) ← takeBits 2 l
      if (0 < tab ∧ tab < 8) ∨ 11 - b < s ∨ 10 - s < k then none else
        let (chg, l) ← readChanges nchg 0 r l
        let codes ← readCodes (canonical (tabLengths set (if tab = 0 then 0 else tab - 7))) s k 32 l
        ((List.range 32).zip codes).mapM fun q =>
          codedWord (chg.foldl (fun a c => if c.1 ≤ q.1 then c.2 else a) r) (reconCode s q.2)
  | _ => .error

/-! ### Segments and ticks (12 R275-R281) -/

/-- An input's coder. -/
def State.coderIn (s : State) (n : Nat) : CoderIn := smGet {} s.coder.ins n

/-- A region's coder. -/
def State.coderRg (s : State) (g : Nat) : CoderRg := smGet {} s.coder.rgs g

/-- The state with the coder changed. -/
def State.setCoder (s : State) (f : Coder → Coder) : State := { s with coder := f s.coder }

/-- The table an input's next segment is coded with (12 R277). -/
def CoderIn.choose (x : CoderIn) : Nat :=
  (List.range 8).foldl (fun best j =>
    if nth 0 x.prices (j + 1) < nth 0 x.prices best then j + 1 else best) 0

/-- The poisoned words of a region's live code set (18 R432). -/
def State.coderHoles (s : State) (g : Nat) : List Nat := s.holesAt 9 g 0 35 s.clk.ord

/-- The live code set of a region as the coder reads it, a poisoned word as zero (12 R277; 18 R432). -/
def State.coderSet (s : State) (g : Nat) : List Byte := holed (s.coderHoles g) (slice (s.liveBlob Obj.CODER_TAB_SHADOW g) 0 137)

/-- A segment starts at the current tick: symbols of a complete segment are published, and each enabled input takes its
table (12 R277, R284). -/
def State.segmentStart (s : State) : State :=
  let first := decide (s.tick = s.nat Obj.HIST_RUN_START)
  if !s.hist.on || s.coder.segTick == some s.tick || !(first || s.tick % 32 == 0) then s else
    let s := if first || s.coder.segTick.isNone then s else
      (List.range 16).foldl (fun s g =>
        let c := (s.coderRg g).syms
        s.setBlob Obj.CODER_SYM_HIST ((List.range 17).flatMap fun x => leBytes 4 (nth 0 c x)) g) s
    let s := s.hist.inputs.foldl (fun s n =>
      let g := n / 16
      let mode := (nth 0 (s.coderSet g) 0).toNat
      let tab := if first || mode == 0 || (s.coderRg g).disturbed then 0 else (s.coderIn n).choose
      let s := s.setCoder fun c => { c with ins := smPut {} c.ins n { tab, prices := [] } }
      (s.setVal Obj.CODER_SEG_TAB (if tab = 0 then 0 else 7 + tab : Nat) n).inc Obj.CODER_TAB_USE g (tab + 1)) s
    s.setCoder fun c => { c with rgs := [], segTick := some s.tick }

/-- `SEGMENT_START` (12 R277). -/
def execSegmentStart (s : State) : Out := .next s.segmentStart

/-- A region's coder after a swap of its table ID 9: static from the boundary, pricing starts again (12 R277). -/
def State.coderSwap (s : State) (g : Nat) : State :=
  let s := s.setCoder fun c => { c with rgs := smUpd {} c.rgs g fun x => { x with disturbed := true } }
  (List.range 16).foldl (fun s i =>
    let n := 16 * g + i
    (s.setCoder fun c => { c with ins := smPut {} c.ins n {} }).setVal Obj.CODER_SEG_TAB 0 n) s

/-- A region's coder after a region or die soft reset: the next segment is static (12 R277, R284). -/
def State.coderDisturb (s : State) (g : Nat) : State :=
  s.setCoder fun c => { c with rgs := smUpd {} c.rgs g fun x => { x with disturbed := true } }

/-- Adds two lists of counts by place. -/
def addCounts (n : Nat) (a b : List Nat) : List Nat := (List.range n).map fun i => nth 0 a i + nth 0 b i

/-- The 128 blocks of one input for the tick that ends (12 R265-R281). `bad` are its blocks whose verification failed, with
whether the fallback failed as well. -/
def State.codeInput (s : State) (n : Nat) (words : List (BitVec 12)) (bad : List (Nat × Bool)) : State × Coded :=
  let g := n / 16
  let b := s.hist.bits
  let set := s.coderSet g
  let tab := (s.coderIn n).tab
  let lens := tabLengths set tab
  let parts := (List.range 128).map fun k => ((words.drop (32 * k)).take 32)
  let blocks := ((List.range 128).zip parts).map fun q =>
    match bad.find? (fun e => e.1 == q.1) with
    | some (_, true) => (some true, { bytes := List.replicate (4 * b) 0, used := 0, lossy := false, folded := false, fallback := false, syms := [] })
    | some (_, false) => (some false, fallbackBlock b true (blockSamples q.2))
    | none => ((none : Option Bool), codeBlock b tab lens q.2)
  let count (p : Option Bool × Block → Bool) : Nat := (blocks.filter p).length
  let s := s.inc Obj.CODER_LOSSY_COUNT n (n := count fun q => q.2.lossy)
  let s := s.inc Obj.CODER_FOLD_COUNT n (n := count fun q => q.2.folded)
  let s := s.inc Obj.CODER_FALLBACK_COUNT n (n := count fun q => q.1.isNone && q.2.fallback)
  let fails := count fun q => q.1.isSome
  let losses := count fun q => q.1 == some true
  let s := s.inc Obj.CODER_VERIFY_FAIL_COUNT n (n := fails)
  let s := s.inc Obj.CODER_VERIFY_LOSS_COUNT g (n := losses)
  let s := s.inc Obj.CODER_BITS_USED n (n := blocks.foldl (fun a q => a + q.2.used) 0)
  let dynamic := (nth 0 set 0).toNat == 1
  let prices := if dynamic then
      addCounts 9 (s.coderIn n).prices ((List.range 9).map fun j => parts.foldl (fun a w => a + blockPrice (tabLengths set j) w) 0)
    else []
  let syms := (List.range 17).map fun x => blocks.foldl (fun a q => a + q.2.syms.count x) 0
  let s := s.setCoder fun c => { c with
    ins := smPut {} c.ins n { tab, prices }
    rgs := smUpd {} c.rgs g fun r => { r with syms := addCounts 17 r.syms syms } }
  (s, { input := n, bytes := blocks.flatMap fun q => q.2.bytes, lossy := decide (0 < count fun q => q.2.lossy)
        rewritten := decide (0 < fails), nodata := losses, bad := !(s.coderHoles g).isEmpty })

/-- Codes the tick that ends (12 R265): `raws` gives the words of each enabled input. A failed
verification is logged at most once per region and tick, every block lost is (12 R279, R280). -/
def State.codeTick (s : State) (raws : List (Nat × List (BitVec 12))) (bad : List (Nat × Nat × Bool)) : State :=
  if !s.hist.on then s else
    let s := s.segmentStart
    let mine := raws.filter fun r => s.hist.inputs.contains r.1 && s.inService r.1
    let (s, l) := mine.foldl (fun (a : State × List Coded) r =>
      let q := a.1.codeInput r.1 r.2 ((bad.filter fun e => e.1 == r.1).map fun e => e.2)
      (q.1, q.2 :: a.2)) (s, [])
    let touched := bad.filter fun e => mine.any fun r => r.1 == e.1
    let s := ((touched.map fun e => e.1 / 16).eraseDups).foldl (fun s g => s.logFault 0x1901 3 g) s
    let s := (touched.filter fun e => e.2.2).foldl (fun s e => s.logFault 0x1902 3 (e.1 / 16)) s
    { s with hist := { s.hist with coded := l.reverse, codedTick := some s.tick } }

end Sys2Proof.Machine
end

