-- ==== Sys2Proof/Machine/Hist.lean ====
section
/-! DEFINITION. The history ring, its slots and the slot map (11 R242-R251, R263). -/

namespace Sys2Proof.Machine

/-- The granules of the ring (11 R245). -/
def ringGranules : Nat := 3932160

/-- The bytes of a granule. -/
def granuleBytes : Nat := 32768

/-- The most granules that may be pinned (11 R256). -/
def pinLimit : Nat := 1966080

/-- The entries of the slot map: slot j uses entry j mod this (11 R249). -/
def slotEntries : Nat := 1310720

/-- The state with the history writer changed. -/
def State.setHist (s : State) (f : Hist → Hist) : State := { s with hist := f s.hist }

/-- The granules a slot of the run takes (11 R245). -/
def State.slotSize (s : State) : Nat := s.hist.inputs.length * s.hist.bits

/-- The run in progress. -/
def State.run (s : State) : Nat := s.nat Obj.HIST_RUN

/-- The slot of number `j` of a run. -/
def State.slotOf (s : State) (run j : Nat) : Option Slot := s.hist.slots.find? fun x => x.run == run && x.j == j

/-- The state with one slot changed. -/
def State.updSlot (s : State) (run j : Nat) (f : Slot → Slot) : State :=
  s.setHist fun h => { h with slots := h.slots.map fun x => if x.run = run ∧ x.j = j then f x else x }

/-- Takes `need` granules from `ptr` on, passing over the pinned runs: the runs taken, the granules passed over, and the
granule after the last (11 R246). -/
def takeGranules (pinned : List (Nat × Nat)) : Nat → Nat → Nat → List (Nat × Nat) × Nat × Nat
  | 0, _, ptr => ([], 0, ptr)
  | fuel + 1, need, ptr =>
    if need = 0 then ([], 0, ptr) else
      match pinned.find? (fun r => decide (r.1 ≤ ptr ∧ ptr < r.1 + r.2)) with
      | some r =>
        let q := takeGranules pinned fuel need ((r.1 + r.2) % ringGranules)
        (q.1, q.2.1 + (r.1 + r.2 - ptr), q.2.2)
      | none =>
        let stop := pinned.foldl (fun a r => if ptr < r.1 then Nat.min a r.1 else a) ringGranules
        let k := Nat.min need (stop - ptr)
        let q := takeGranules pinned fuel (need - k) ((ptr + k) % ringGranules)
        ((ptr, k) :: q.1, q.2.1, q.2.2)

/-- Whether two runs of granules share one. -/
def runsMeet (a b : List (Nat × Nat)) : Bool := a.any fun x => b.any fun y => decide (x.1 < y.1 + y.2 ∧ y.1 < x.1 + x.2)

/-- The candidates that keep a slot to come (11 R256). -/
def State.reservers (s : State) (j : Nat) : List Nat := (s.spec.cands.filter fun e => e.2.reserved.contains j).map fun e => e.1

/-- The slots to come that are reserved. -/
def State.reservedSlots (s : State) : List Nat := (s.spec.cands.flatMap fun e => e.2.reserved).eraseDups

/-- The granules pinned or reserved (11 R256). -/
def State.pinGranules (s : State) : Nat :=
  (s.hist.slots.filter fun x => decide (0 < x.pins)).foldl (fun a x => a + x.count) (s.reservedSlots.length * s.slotSize)

/-- `HIST_PIN_GRANULES` and its peak brought up to date. -/
def State.pinReport (s : State) : State :=
  let n := s.pinGranules
  let s := s.setVal Obj.HIST_PIN_GRANULES n
  if s.nat Obj.HIST_PIN_PEAK < n then s.setVal Obj.HIST_PIN_PEAK n else s

/-- The oldest tick of the run that the ring holds: back over the slots contiguous with the newest (11 R248). -/
def State.oldestTick (s : State) : Nat :=
  let mine := s.hist.slots.filter fun x => x.run == s.run && x.state != 3
  match mine with
  | [] => s.nat Obj.HIST_RUN_START
  | x :: r => (r.foldl (fun (a : Slot) y => if y.j + 1 = a.j then y else a) x).first

/-- The slot of the current tick is allocated, unless it is (11 R244-R246, R250, R256): inputs out of service leave the
geometry, granules are taken, slots overwritten end, and reservations become pins. -/
def State.slotAllocate (s : State) : State :=
  let j := s.tick / 64
  if !s.hist.on || (s.slotOf s.run j).isSome then s else
    let s := s.setHist fun h => { h with inputs := h.inputs.filter s.inService }
    let g := s.slotSize
    let pinned := (s.hist.slots.filter fun x => decide (0 < x.pins)).flatMap fun x => x.granules
    let q := takeGranules pinned (2 * pinned.length + 6) g s.hist.wptr
    let holders := s.reservers j
    let x : Slot := { j, first := Nat.max (64 * j) (s.nat Obj.HIST_RUN_START), run := s.run, state := 1, bits := s.hist.bits
                      pins := holders.length, granules := q.1, count := g, inputs := s.hist.inputs }
    let s := s.setHist fun h => { h with
      wptr := q.2.2, slots := x :: h.slots.filter fun y =>
        decide (0 < y.pins) || (!runsMeet y.granules q.1 && y.j % slotEntries != j % slotEntries) }
    let s := s.clearPoison (slotMapAddr j) 64
    let s := holders.foldl (fun s c => { s with spec := { s.spec with cands := smUpd {} s.spec.cands c fun e =>
      { e with reserved := e.reserved.filter (· != j), slots := e.slots ++ [(x.run, j)] } } }) s
    let s := (s.inc Obj.HIST_SKIP_COUNT (n := q.2.1)).setVal Obj.HIST_SLOT_GRANULES g
    (s.setVal Obj.HIST_OLDEST_TICK s.oldestTick).pinReport

/-- `SLOT_ALLOCATE` (11 R246). -/
def execSlotAllocate (s : State) : Out := .next s.slotAllocate

/-- Granule `q` of a slot, in the order in which they were taken. -/
def granuleAt : List (Nat × Nat) → Nat → Nat
  | [], _ => 0
  | r :: l, q => if q < r.2 then r.1 + q else granuleAt l (q - r.2)

/-- The DRAM address of byte `off` of the `i`th input's blocks in a slot (11 R245). -/
def Slot.addr (x : Slot) (i off : Nat) : Nat :=
  granuleAt x.granules (i * x.bits + off / granuleBytes) * granuleBytes + off % granuleBytes

/-- The bytes of one input and tick. -/
def Slot.tickBytes (x : Slot) : Nat := 512 * x.bits

/-- Writes an input's blocks of a tick into the ring, granule by granule. -/
def State.writeBlocks (s : State) (x : Slot) (i : Nat) : Nat → Nat → List Byte → State
  | 0, _, _ => s
  | fuel + 1, off, l =>
    if l.isEmpty then s else
      let n := Nat.min l.length (granuleBytes - off % granuleBytes)
      let a := x.addr i off
      ((s.clearPoison a n).putBytes a (l.take n)).writeBlocks x i fuel (off + n) (l.drop n)

/-- `n` bytes of an input's blocks from an offset of its place in the slot. -/
def State.readBlocks (s : State) (x : Slot) (i off n : Nat) : List Byte :=
  (List.range n).map fun k => s.byte (x.addr i (off + k))

/-- Whether any granule of a range of an input's place is poisoned. -/
def State.blocksPoisoned (s : State) (x : Slot) (i off n : Nat) : Bool :=
  !s.poison.isEmpty && (List.range (n / 8 + 2)).any fun k =>
    let o := off / 8 * 8 + 8 * k
    decide (o < off + n) && s.poisoned (x.addr i o) 8

/-- How many of the 128 blocks of an input and tick are `NODATA`: those whose form bits are 0 (12 R266, R283). -/
def noDataBlocks (b : Nat) (bytes : List Byte) : Nat :=
  let a := bytes.toArray
  ((List.range 128).filter fun k => decide ((a.getD (4 * b * k) 0).toNat < 64)).length

/-- The blocks and condition words of the tick two back are written, as those of its slot (11 R247, R249, R250; 12 R281). `lost`
are the blocks that could not be written. -/
def State.historyWrite (s : State) (lost : List (Nat × Nat)) : State :=
  match s.hist.codedTick with
  | none => s
  | some t =>
    let j := t / 64
    match s.hist.slots.find? (fun x => x.j == j && decide (x.first ≤ t)) with
    | none => s.setHist fun h => { h with coded := [], codedTick := none }
    | some x =>
      let b := x.bits
      let back := (s.infoAt 1).tick == t
      let zero := List.replicate x.tickBytes (0 : Byte)
      let one (a : State × Slot) (q : Nat × Nat) : State × Slot :=
        let (s, x) := a
        let (i, n) := q
        let gone := (lost.filter fun e => e.1 == n && decide (e.2 < 128)).map fun e => e.2
        let c := s.hist.coded.find? fun c => c.input == n
        let c : Coded := match c with
          | some c => c
          | none => { input := n, bytes := zero, lossy := false, rewritten := false, nodata := 128 }
        let bytes := gone.foldl (fun l k => overlay l (4 * b * k) (List.replicate (4 * b) 0)) c.bytes
        let s := s.inc Obj.HIST_WRITE_LOSS_COUNT (n := gone.length)
        let stale := s.staleAt 9 (n / 16) (s.clk.ord - if back then 1 else 0)
        let cond := s.condAt n (if back then 1 else 0) ||| Flag.when c.lossy Flag.lossy ||| Flag.when stale Flag.staleTbl |||
          Flag.when c.bad Flag.poison
        let s := s.writeBlocks x i (x.tickBytes / granuleBytes + 3) (t % 64 * x.tickBytes) bytes
        (s, { x with
          conds := smPut 0 x.conds (256 * (t % 64) + n) cond, condOr := x.condOr ||| cond
          nodata := x.nodata + noDataBlocks b bytes
          flags := x.flags ||| (if c.lossy then 1 else 0) ||| (if c.rewritten then 2 else 0) })
      let (s, x) := ((List.range x.inputs.length).zip x.inputs).foldl one (s, x)
      let x := { x with written := x.written + 1, state := if t % 64 = 63 ∧ x.state = 1 then 2 else x.state }
      (s.updSlot x.run x.j fun _ => x).setHist fun h => { h with coded := [], codedTick := none, newest := some t }

/-- The places of a die's inputs in a tick are written as `NODATA`, where they are not already: its transfer failed (11 R247; 01 R19). -/
def State.historyDrop (s : State) (d t : Nat) : State :=
  match s.hist.slots.find? (fun x => x.j == t / 64 && decide (x.first ≤ t)) with
  | none => s
  | some x =>
    let mine := ((List.range x.inputs.length).zip x.inputs).filter fun q => q.2 / 32 == d
    let off := t % 64 * x.tickBytes
    let held := mine.foldl (fun a q => a + noDataBlocks x.bits (s.readBlocks x q.1 off x.tickBytes)) 0
    let s := mine.foldl (fun s q => s.writeBlocks x q.1 (x.tickBytes / granuleBytes + 3) off (List.replicate x.tickBytes 0)) s
    s.updSlot x.run x.j fun x => { x with nodata := x.nodata + 128 * mine.length - held }

/-- The 64 bytes of a slot-map entry (11 R249). -/
def Slot.entry (x : Slot) : List Byte :=
  leBytes 8 x.first ++ leBytes 4 x.run ++ leBytes 1 x.state ++ leBytes 1 x.bits ++ leBytes 2 x.pins ++
    leBytes 4 (granuleAt x.granules 0) ++ leBytes 2 x.count ++ leBytes 2 x.written ++ leBytes 2 x.condOr.toNat ++
    leBytes 2 x.flags ++ leBytes 4 x.nodata ++ inputMask fun n => x.inputs.contains n

/-- `HIST_SLOT_ENTRY`: the entry of the slot selected, empty when its entry is not of that slot (11 R249, R264). -/
def State.slotEntry (s : State) : List Byte :=
  let k := s.nat Obj.HIST_SLOT_SELECT
  let l := s.hist.slots
  let l := match s.hist.lateSlot with
    | some y => l.map fun (x : Slot) => if x.run = y.run ∧ x.j = y.j then y else x
    | none => l
  match l.find? (fun (x : Slot) => x.j % slotEntries == k % slotEntries) with
  | some x => if x.j = k then x.entry else List.replicate 64 0
  | none => List.replicate 64 0

/-! ### Window tests (11 R253, R254) -/

/-- The inputs and bits of the run, or of the next one outside a run (11 R253). -/
def State.geometry (s : State) : List Nat × Nat :=
  if s.hist.on then (s.hist.inputs, s.hist.bits) else
    ((List.range 256).filter fun n => maskHas (s.blob Obj.HIST_INPUT_MASK) n && s.inService n, s.nat Obj.HIST_BITS)

/-- The pin test and the staging test of a window of `len` ticks for the inputs of a mask (11 R253). -/
def windowOk (inputs : List Nat) (bits len : Nat) (mask : List Byte) : Bool :=
  let s := (len + 63 + 63) / 64
  let n := (inputs.filter fun i => maskHas mask i).length
  decide (s * (inputs.length * bits) ≤ pinLimit) && decide (n * len * 512 * bits ≤ 2 ^ 32)

/-- The pre and post window used where the tests fail: the largest post window that passes, then the largest pre window with
one tick after it (11 R254); and whether it is clipped. -/
def clipWindow (inputs : List Nat) (bits p q : Nat) (mask : List Byte) : Nat × Nat × Bool :=
  if windowOk inputs bits (p + q) mask then (p, q, false) else
    let down (ok : Nat → Bool) (top : Nat) : Nat :=
      (List.range 17).foldl (fun a i => let c := a + 2 ^ (16 - i); if c ≤ top && ok c then c else a) 0
    let q' := down (fun c => windowOk inputs bits (p + c) mask) q
    if 1 ≤ q' then (p, q', true) else (down (fun c => windowOk inputs bits (c + 1) mask) p, 1, true)

/-- The window tests are made again with the geometry of now (11 R254). -/
def State.recRetest (s : State) : State :=
  let g := s.geometry
  s.setHist fun h => { h with testInputs := g.1, testBits := g.2 }

/-- `HIST_CUT_BACKLOG` at a boundary (11 R263). How fast the record builder cuts is not stated: the lag is a free value
within the ticks written of the oldest record that is not cut (assumption log 25, DESIGN CHOICE). -/
def State.cutBacklog (s : State) : State :=
  let open_ := (s.spec.cands.filter fun e => e.2.state != 0 && !e.2.cutDone).map fun e => e.2.first
  match s.hist.newest, open_ with
  | some t, f :: r =>
    let oldest := r.foldl Nat.min f
    let (v, s) := s.free (t + 2 - Nat.min oldest (t + 1))
    s.setVal Obj.HIST_CUT_BACKLOG v
  | _, _ => if s.on Obj.HIST_CUT_BACKLOG then s.setVal Obj.HIST_CUT_BACKLOG 0 else s

/-- What an arbitration interval of 1,024 concentrator datapath cycles, 1 µs, moves at 960 GB/s, in bytes (02 R44; 11 R263). -/
def dramInterval : Nat := 960000

/-- The reservations of the five users per interval, in order of priority (11 R263). -/
def dramReserved : List Nat := [280000, 128000, 64000, 16000, 0]

/-- Gives what is left of an interval to the users in order of priority: of pairs of bytes wanted and bytes reserved, the bytes each
is served (11 R263). -/
def dramServe : Nat → List (Nat × Nat) → List Nat
  | _, [] => []
  | left, (want, share) :: r =>
    let more := Nat.min left (want - share)
    (Nat.min want share + more) :: dramServe (left - more) r

/-- What the users are served in an interval for what they want: each up to its reservation, the rest by priority. -/
def dramServed (want : List Nat) : List Nat :=
  let l := want.zip dramReserved
  dramServe (dramInterval - l.foldl (fun a p => a + Nat.min p.1 p.2) 0) l

/-- The users, by their place in the table, that are not served all they want. The history writer never waits (11 R247, R263). -/
def dramWaiting (want : List Nat) : List Nat :=
  (((List.range want.length).zip (want.zip (dramServed want))).filter fun q => decide (0 < q.1 ∧ q.2.2 < q.2.1)).map fun q => q.1

/-- `DRAM_ARBITRATION` (11 R263): an interval serves the users, whose wants in bytes are given in order of priority, to their
reservations and then by priority; each that waits is counted. -/
def execDramArbitration (want : List Nat) (s : State) : Out :=
  .next ((dramWaiting want).foldl (fun s u => s.inc Obj.DRAM_WAIT_COUNT 0 (u + 1)) s)

end Sys2Proof.Machine
end

