-- ==== Sys2Proof/Machine/TrigFilter.lean ====
section
/-! DEFINITION. The trigger filter, the envelope, and the placement of crossings (10 R216-R219). -/

namespace Sys2Proof.Machine

/-- The 32 coefficients of set `m` of a table of trigger filters (10 R216). -/
def trigSet (tab : List Byte) (m : Nat) : List Int :=
  (List.range 32).map fun j => ofTwos 16 (leNat (slice tab (64 * m + 2 * j) 2))

/-- Whether a set is linear-phase (10 R216). -/
def linearPhase (h : List Int) : Bool :=
  (List.range 16).all (fun j => nth 0 h j == nth 0 h (31 - j)) || (List.range 16).all fun j => nth 0 h j == -nth 0 h (31 - j)

/-- Whether every set of a table is linear-phase. -/
def trigTableOk (tab : List Byte) : Bool := (List.range 8).all fun m => linearPhase (trigSet tab m)

/-- The fixed coefficient q_j of the envelope (10 R217). -/
def trigQ (j : Nat) : Int :=
  let m : Int := (j : Int) - 15
  if m % 2 = 0 then 0 else
    let c := (sinCosTurn m 32).2
    let num := 32768 * 2 * (54 * 2 ^ trigBits + 46 * c)
    if 0 < m then divAway num (100 * piFix * m.toNat) else divAway (-num) (100 * piFix * (-m).toNat)

/-- The coefficients q₀ to q₃₀. -/
def trigQs : List Int := (List.range 31).map trigQ

/-- A sum of products with 15 fraction bits, rounded and limited (10 R216). -/
def fir (c x : List Int) : Int := clampInt (-32767) 32767 (divAway ((c.zip x).foldl (fun a p => a + p.1 * p.2) 0) 32768)

/-- The filtered signal of samples given newest first: one value per sample, newest first; earlier samples are zero. -/
def trigFilter (h : List Int) : List Int → List Int
  | [] => []
  | x :: r => fir h (x :: r) :: trigFilter h r

/-- The envelope of a filtered signal given newest first (10 R217). -/
def trigEnvelope (q : List Int) : List Int → List Nat
  | [] => []
  | y :: r =>
    let i := nth 0 (y :: r) 15
    let v := fir q (y :: r)
    isqrt (i * i + v * v).toNat :: trigEnvelope q r

/-- The last three values of the envelope, newest first, from 64 samples newest first. -/
def envelope3 (h lin : List Int) : List Nat := (trigEnvelope trigQs (trigFilter h (lin.take 64))).take 3

/-- `round(128 u)` of a linear placement between `a` at 0 and `b` at 1 of a level (10 R219). -/
def placeLinear (a b level : Int) : Nat :=
  if b = a then 0
  else if a < b then (divAway (128 * (level - a)) (b - a).toNat).toNat
  else (divAway (128 * (a - level)) (a - b).toNat).toNat

/-- Whether `A x² + B x + C` has a root strictly between 0 and `m`. -/
def rootBefore (a b c : Int) (m : Int) : Bool :=
  let g := a * m * m + b * m + c
  if c = 0 then (decide (0 < a) && decide (b < 0 ∧ -b < a * m)) || (decide (a < 0) && decide (0 < b ∧ b < -a * m))
  else
    let cross := (decide (c < 0) && decide (0 < g)) || (decide (0 < c) && decide (g < 0))
    let inside := if 0 < a then decide (b < 0 ∧ -b < 2 * a * m) else if a < 0 then decide (0 < b ∧ b < -2 * a * m) else false
    let reaches := (decide (0 < a ∧ 0 < c) || decide (a < 0 ∧ c < 0)) && decide (4 * a * c ≤ b * b)
    cross || (inside && reaches)

/-- `round(128 u)` of the parabola through three values (10 R219): as many of the half steps as lie at or before the
smallest root in (0, 1]. A level met at u = 0 alone gives 0. -/
def placeParabola (y0 y1 y2 level : Int) : Nat :=
  let a := y2 - 2 * y1 + y0
  let b := 256 * (y2 - y0)
  let c := 65536 * 2 * (y1 - level)
  if c = 0 ∧ !rootBefore a b c 256 ∧ a * 256 + b ≠ 0 then 0
  else ((List.range 128).filter fun (i : Nat) => !rootBefore a b c (2 * (i : Int) + 1)).length

end Sys2Proof.Machine
end

