-- ==== Sys2Proof/Machine/Cand.lean ====
section
/-! DEFINITION. Candidates and their records: opening, pins, reservation, cutting, measuring, sealing, outcomes, export and
sending ahead (11 R252-R262; 13). -/

namespace Sys2Proof.Machine

/-- A candidate's entry. -/
def State.cand (s : State) (c : Nat) : Candidate := smGet {} s.spec.cands c

/-- The state with a candidate changed. -/
def State.setCand (s : State) (c : Nat) (f : Candidate → Candidate) : State :=
  { s with spec := { s.spec with cands := smUpd {} s.spec.cands c f } }

/-- `STATE` values (13 R288). -/
def candFREE : Nat := 0
/-- `PENDING`. -/
def candPENDING : Nat := 1
/-- `COMMITTED`. -/
def candCOMMITTED : Nat := 2
/-- `RETRACTING`. -/
def candRETRACTING : Nat := 3

/-- Bits of the record flag word (11 R259). -/
def recPRE_SHORT : BitVec 16 := 1
/-- `CLIPPED`. -/
def recCLIPPED : BitVec 16 := 2
/-- `NODATA`. -/
def recNODATA : BitVec 16 := 4
/-- `VERIFY_FAIL`. -/
def recVERIFY_FAIL : BitVec 16 := 8
/-- `TDC_UNCAL`. -/
def recTDC_UNCAL : BitVec 16 := 16

/-- The entries in use (13 R289). -/
def State.candsUsed (s : State) : Nat := (s.spec.cands.filter fun e => e.2.state != 0).length

/-- The table's report objects brought up to date, with the interval of a full table (10 R228; 13 R305). -/
def State.specReport (s : State) (time : Nat) : State :=
  let n := s.candsUsed
  let sum (f : Candidate → Nat) : Nat := s.spec.cands.foldl (fun a e => a + f e.2) 0
  let s := s.setVal Obj.SPEC_OPEN n
  let s := if s.nat Obj.SPEC_OPEN_PEAK < n then s.setVal Obj.SPEC_OPEN_PEAK n else s
  let s := (s.setVal Obj.SPEC_STAGING_PAGES (sum fun c => c.staging.length)).setVal Obj.SPEC_HEAD_PAGES (sum fun c => c.head.length)
  match s.trig.fullFrom, decide (8192 ≤ n) with
  | none, true => s.setTrig fun t => { t with fullFrom := some time }
  | some f, false => s.setTrig fun t => { t with fullFrom := none, dead := t.dead ++ [(f, time)] }
  | _, _ => s

/-! ### Opening (13 R285, R286; 11 R252-R256) -/

/-- The first free entry after the one most recently allocated (13 R285). -/
def State.candAlloc (s : State) : Option Nat :=
  ((List.range 8192).map fun i => (s.spec.last + 1 + i) % 8192).find? fun c => (s.cand c).state == 0

/-- The tick `ord` of a tick number of the present numbering. -/
def State.ordOf (s : State) (t : Nat) : Nat := s.clk.ord - (s.tick - t)

/-- The window granted to a trigger (11 R252-R256). -/
structure Grant where
  first    : Nat
  ticks    : Nat
  pre      : Nat
  post     : Nat
  flags    : BitVec 16
  inputs   : List Nat
  pinned   : List (Nat × Nat)
  reserved : List Nat

/-- Walks the slots of a window in order while the pin limit allows: the slots pinned, those reserved, and the first slot that
could not be had (11 R256). -/
def State.pinWalk (s : State) (now : Nat) : Nat → Nat → Nat → List (Nat × Nat) × List Nat × Option Nat
  | 0, _, _ => ([], [], none)
  | n + 1, j, used =>
    let others := !(s.reservers j).isEmpty
    match s.slotOf s.run j with
    | some x =>
      let cost := if 0 < x.pins then 0 else x.count
      if pinLimit < used + cost then ([], [], some j) else
        let q := s.pinWalk now n (j + 1) (used + cost)
        ((x.run, j) :: q.1, q.2.1, q.2.2)
    | none =>
      if j ≤ now then ([], [], some j) else
        let cost := if others then 0 else s.slotSize
        if pinLimit < used + cost then ([], [], some j) else
          let q := s.pinWalk now n (j + 1) (used + cost)
          (q.1, j :: q.2.1, q.2.2)

/-- The window of a trigger of a level at a stamp, or none where not even the slot of the stamp's tick can be pinned. -/
def State.grant (s : State) (level stamp : Nat) : Option Grant :=
  let t := stamp / 2 ^ 19
  let o := s.ordOf t
  let mask := s.tabBlob Obj.REC_INPUT_MASK o 0 (level + 1)
  let pre := s.tabNat Obj.REC_PRE o 0 (level + 1)
  let post := s.tabNat Obj.REC_POST o 0 (level + 1)
  let (p, q, clip) := clipWindow s.hist.testInputs s.hist.testBits pre post mask
  let oldest := Nat.max (s.nat Obj.HIST_RUN_START) s.oldestTick
  let short := decide ((t : Int) - p < oldest)
  let first := Nat.max (t - p) oldest
  let last := t + q - 1
  if !s.hist.on || t < first then none else
    let j0 := first / 64
    let w := s.pinWalk (s.tick / 64) (last / 64 + 1 - j0) j0 s.pinGranules
    let (stop, cut) := match w.2.2 with | some j => (64 * j, true) | none => (last + 1, false)
    if stop ≤ t then none else
      some { first, ticks := stop - first, pre, post
             flags := (if short then recPRE_SHORT else 0) ||| (if clip || cut then recCLIPPED else 0)
             inputs := s.hist.inputs.filter fun n => maskHas mask n, pinned := w.1, reserved := w.2.1 }

/-- The first `n` pages of 65,536 that no candidate holds, from `p` on; `used` in ascending order. -/
def freePages : Nat → Nat → Nat → List Nat → Option (List Nat)
  | 0, n, _, _ => if n = 0 then some [] else none
  | fuel + 1, n, p, used =>
    if n = 0 then some [] else
    if 65536 ≤ p then none else
      match used with
      | [] => (freePages fuel (n - 1) (p + 1) []).map fun l => p :: l
      | u :: r => if u ≤ p then freePages fuel (if u = p then n else n - 1) (p + 1) r |>.map fun l => if u = p then l else p :: l
                  else (freePages fuel (n - 1) (p + 1) (u :: r)).map fun l => p :: l

/-- The inputs measured of a record (11 R261). -/
def State.measInputs (s : State) (level origin : Nat) (inputs : List Nat) : List Nat :=
  match s.nat Obj.REC_MEAS_MODE with
  | 0 => []
  | 1 => if 4 < level then inputs.take 1 else if inputs.contains origin then [origin] else []
  | _ => inputs

/-- The bytes of the head store and of staging that a record reserves (13 R286). -/
def State.reserveBytes (s : State) (g : Grant) (measured : Nat) : Nat × Nat :=
  let n := g.inputs.length
  (80 + 2 * n * g.ticks + 8 * (7 * measured + s.nat Obj.SPEC_ENG_MEAS_SPACE), n * g.ticks * 512 * s.hist.bits)

/-- The trigger word (10 R226). -/
def trigWord (stamp level element cand : Nat) (cond : Cond) (uncal : Bool) (members origin : Nat) : BitVec 128 :=
  BitVec.ofNat 128 (stamp % 2 ^ 72 * 2 ^ 56 + level % 8 * 2 ^ 53 + element % 256 * 2 ^ 45 + cand % 8192 * 2 ^ 32 +
    cond.toNat * 2 ^ 16 + (if uncal then 2 ^ 15 else 0) + members % 16 * 2 ^ 8 + origin % 256)

/-- Gives a slot one pin more or less (11 R256, R257). -/
def State.pinSlots (s : State) (l : List (Nat × Nat)) (add : Bool) : State :=
  l.foldl (fun s k => s.updSlot k.1 k.2 fun x => { x with pins := if add then x.pins + 1 else x.pins - 1 }) s

/-- Releases a candidate's pins and reservations (11 R257). -/
def State.unpin (s : State) (c : Nat) : State :=
  let e := s.cand c
  if e.slots.isEmpty && e.reserved.isEmpty then s else
    ((s.pinSlots e.slots false).setCand c fun e => { e with slots := [], reserved := [] }).pinReport

/-- Frames of a candidate that are still in the output queue are withdrawn (13 R297). -/
def State.withdraw (s : State) (c : Nat) : State :=
  s.setFr fun x => { x with queue := x.queue.filter fun f => !((f.cls == 7 || f.cls == 8) && f.cand == c) }

/-- An entry is freed. -/
def State.candFree (s : State) (c : Nat) : State :=
  (s.setCand c fun _ => {}).specReport s.timeNow

/-- The bytes of a record (11 R258). -/
def Candidate.size (e : Candidate) : Nat := 80 + 2 * e.conds.length + e.blocks.length + 8 * e.meas.length

/-- The counts of a record that is both committed and sealed (13 R296). -/
def State.countRecord (s : State) (c : Nat) : State :=
  let e := s.cand c
  (s.inc Obj.SPEC_RECORD_BYTES (n := e.size)).inc Obj.SPEC_MEAS_COUNT (n := e.meas.length)

/-- A candidate is committed (13 R294, R296, R300, R304). -/
def State.commit (s : State) (c outcome : Nat) : State :=
  let seq := s.nat Obj.SPEC_NEXT_SEQ
  let s := s.setVal Obj.SPEC_NEXT_SEQ (if seq ≥ 2 ^ 32 - 1 then 1 else seq + 1 : Nat)
  let s := s.setCand c fun e => { e with state := candCOMMITTED, outcome, seq }
  let e := s.cand c
  let s := (s.inc Obj.SPEC_OUTCOME_COUNT 0 outcome).inc Obj.SPEC_RECORD_COUNT
  let s := if e.flags &&& recCLIPPED ≠ 0 then s.inc Obj.REC_CLIP_COUNT else s
  let s := if e.flags &&& recPRE_SHORT ≠ 0 then s.inc Obj.REC_PRE_SHORT_COUNT else s
  let s := if e.isSealed then s.countRecord c else s
  let s := if e.queued && !e.ahead then (s.withdraw c).setCand c fun e => { e with queued := false } else s
  if s.spec.fresh then ({ s with spec := { s.spec with fresh := false } }).raise 0xA001 0 0 [] else s

/-- The header of a VC7 message (16 R372). -/
def specHeader (e : Candidate) (c : Nat) (cond : Cond) (off aux : Nat) : List Byte :=
  productHeader (e.stamp % 2 ^ 40) cond c (off / 2 ^ 16) (off % 2 ^ 16) aux

/-- A candidate is rolled back (13 R297, R298). -/
def State.rollback (s : State) (c outcome : Nat) : State :=
  let s := (s.unpin c).withdraw c
  let s := s.inc Obj.SPEC_OUTCOME_COUNT 0 outcome
  let e := s.cand c
  if e.ahead then
    let s := s.setCand c fun e => { e with
      state := candRETRACTING, outcome, staging := [], head := [], meas := [], conds := [], blocks := [] }
    let s := s.queueFrame 8 7 3 (specHeader e c 0 0 outcome) 0 0 c true
    (s.inc Obj.SPEC_RETRACT_COUNT).specReport s.timeNow
  else s.candFree c

/-- The `CAND_OPEN` notices of a candidate (08 R188, R189). -/
def State.candNotices (s : State) (c level origin : Nat) : State :=
  let ks := (List.range 256).filter fun k => s.on Obj.ENG_CAND_NOTICE k
  let t := (s.cand c).trigTick
  let m := mkMsg 0xA0 12 0 (leBytes 2 c ++ leBytes 8 t ++ leBytes 1 level ++ leBytes 1 origin)
  let s := ks.foldl (fun s k => s.engNotice k m) s
  s.setCand c fun e => { e with notices := ks, noticeTick := s.clk.ord }

/-- A trigger tries to open a candidate (13 R285, R286); `time` is when it does, `forced` for a forced array trigger. Answers
whether it opened. -/
def State.candOpen (s : State) (time : Nat) (m : MemberTrig) (forced : Bool) : Bool × State :=
  match s.candAlloc with
  | none => (false, (s.inc Obj.SPEC_OPEN_FAIL_COUNT 0 1).inc Obj.TRIG_LOST_COUNT 0 5)
  | some c =>
    let s : State := { s with spec := { s.spec with last := c } }
    match s.grant m.level m.stamp with
    | none => (false, (s.inc Obj.REC_PIN_DROP_COUNT).inc Obj.SPEC_OPEN_FAIL_COUNT 0 2)
    | some g =>
      let measured := s.measInputs m.level m.origin g.inputs
      let bytes := s.reserveBytes g measured.length
      let held (f : Candidate → List Nat) : List Nat := (s.spec.cands.flatMap fun e => f e.2).mergeSort (· ≤ ·)
      let head := freePages 65536 ((bytes.1 + 4095) / 4096) 0 (held (·.head))
      let staging := freePages 65536 ((bytes.2 + 65535) / 65536) 0 (held (·.staging))
      let e : Candidate := {
        trigTick := m.stamp / 2 ^ 19, deadline := s.tick + s.nat Obj.SPEC_DECISION_TICKS, state := candPENDING, level := m.level
        word := trigWord m.stamp m.level m.element c m.cond m.uncal m.members m.origin, stamp := m.stamp, first := g.first
        ticks := g.ticks, preReq := g.pre, postReq := g.post, flags := g.flags ||| (if m.uncal then recTDC_UNCAL else 0)
        bits := s.hist.bits, inputs := g.inputs, run := s.run, slots := g.pinned, reserved := g.reserved
        space := 7 * measured.length + s.nat Obj.SPEC_ENG_MEAS_SPACE
        measIns := measured.map fun n => (n, s.natAt Obj.TRIG_FILTER_SEL (s.ordOf (m.stamp / 2 ^ 19)) n, s.natAt Obj.SAT_FILL (s.ordOf (m.stamp / 2 ^ 19)) n)
        cond := Flag.when (s.staleAt 10 0 (s.ordOf (m.stamp / 2 ^ 19))) Flag.staleTbl
        crossed := m.inputs, trigOrd := s.ordOf (m.stamp / 2 ^ 19) }
      match head, staging with
      | some hp, some sp =>
        let s := (s.pinSlots g.pinned true).setCand c fun _ => { e with head := hp, staging := sp }
        let s := (s.pinReport.specReport time).candNotices c m.level m.origin
        let role := s.val Obj.DOMINO_ROLE
        let unlocked := Flag.any (m.inputs.foldl (fun c n => c ||| s.condAt n (s.clk.ord - e.trigOrd)) m.cond) Flag.timeUnlocked
        let s := if forced || role == roleSTANDALONE then s.commit c 1
          else if role == roleROOT then
            s.arrReport (Nat.max time s.timeNow) { module := s.nat Obj.MODULE_NUMBER, cand := c, level := m.level, stamp := m.stamp, unlocked }
          else s.domUp time { type := 1, module := s.nat Obj.MODULE_NUMBER, cand := c, level := m.level, stamp := m.stamp
                              qual := (if unlocked then 2 ^ 15 else 0) + m.element % 256, arg := m.members }
        (true, s)
      | _, _ =>
        -- pinned by step 2, and rolled back (13 R297, R298)
        let s := ((s.pinSlots g.pinned true).setCand c fun _ => e).pinReport.unpin c
        (false, (((s.setCand c fun _ => {}).inc Obj.SPEC_OPEN_FAIL_COUNT 0 3).inc Obj.CODER_JOB_FAIL_COUNT 0 1).inc Obj.SPEC_OUTCOME_COUNT 0 5)

/-! ### Cutting (11 R251, R257, R258, R260; 18 R431, R432) -/

/-- The slot that holds a tick of a record. -/
def State.recSlot (s : State) (e : Candidate) (t : Nat) : Option Slot :=
  s.hist.slots.find? fun x => x.run == e.run && x.j == t / 64

/-- The blocks of one input and tick as a record takes them: the bytes, and which are poisoned. -/
def State.recBlocks (s : State) (e : Candidate) (n t : Nat) : List Byte × List Nat :=
  match s.recSlot e t with
  | none => (List.replicate (512 * e.bits) 0, [])
  | some x =>
    match ((List.range x.inputs.length).zip x.inputs).find? fun q => q.2 == n with
    | none => (List.replicate (512 * e.bits) 0, [])
    | some (i, _) =>
      if s.poisoned (slotMapAddr x.j) 64 then (List.replicate (512 * e.bits) 0, []) else
        let o := t % 64 * x.tickBytes
        (s.readBlocks x i o x.tickBytes,
         if s.poison.isEmpty then [] else (List.range 128).filter fun k => s.blocksPoisoned x i (o + 4 * e.bits * k) (4 * e.bits))

/-- The ticks and inputs of a record in the order of R245: slot by slot, input by input, ticks ascending. -/
def Candidate.order (e : Candidate) : List (Nat × Nat) :=
  let last := e.first + e.ticks - 1
  (List.range (last / 64 + 1 - e.first / 64)).flatMap fun q =>
    let j := e.first / 64 + q
    let ts := ((List.range 64).map (64 * j + ·)).filter fun t => decide (e.first ≤ t ∧ t ≤ last)
    e.inputs.flatMap fun n => ts.map fun t => (n, t)

/-- Whether every block of a candidate's window has been written. -/
def State.windowWritten (s : State) (e : Candidate) : Bool :=
  let waits := match s.hist.lateSlot with | some x => e.slots.contains (x.run, x.j) | none => false
  !waits && e.reserved.isEmpty && match s.hist.newest with
    | some t => decide (e.first + e.ticks ≤ t + 1)
    | none => false

/-- The cut of a record completes: blocks and condition words are in staging, the pins are released (11 R257-R260). In HALT the table is
frozen (13 R304). -/
def State.cutDone (s : State) (c : Nat) : State :=
  let e := s.cand c
  if s.mode == Mode.HALT || (e.state != candPENDING && e.state != candCOMMITTED) || e.cutDone || !s.windowWritten e then s else
    let order := e.order
    let parts := order.map fun q => s.recBlocks e q.1 q.2
    let conds := order.map fun q =>
      match s.recSlot e q.2 with | some x => smGet 0 x.conds (256 * (q.2 % 64) + q.1) | none => 0
    let starts := parts.flatMap fun p => (List.range 128).map fun k => (nth 0 p.1 (4 * e.bits * k)).toNat
    let bad := parts.foldl (fun a p => a + p.2.length) 0
    let mapBad := e.slots.any fun k => s.poisoned (slotMapAddr k.2) 64
    let flags := (if starts.any fun b => b / 64 == 0 then recNODATA else 0) ||| (if starts.any fun b => b / 32 == 5 then recVERIFY_FAIL else 0)
    let cond := conds.foldl (· ||| ·) e.cond ||| Flag.when (decide (0 < bad) || mapBad) Flag.poison
    let s := s.inc Obj.HIST_POISON_COUNT (n := bad)
    -- the mark goes with the copy (18 R431), and the slot records the read
    let s := ((List.range parts.length).zip parts).foldl (fun s q =>
      q.2.2.foldl (fun s k =>
        let o := 512 * e.bits * q.1 + 4 * e.bits * k
        let a (o : Nat) : Nat := stagingBase + nth 0 e.staging (o / 65536) * 65536 + o % 65536
        (List.range (e.bits / 2 + 1)).foldl (fun s i => if 8 * i < 4 * e.bits then s.markPoison (a (o + 8 * i) / 8 * 8) else s) s) s) s
    let s := if bad = 0 then s else
      ((order.zip parts).filter fun q => !q.2.2.isEmpty).foldl (fun s q => s.updSlot e.run (q.1.2 / 64) fun x => { x with flags := x.flags ||| 4 }) s
    let s := s.setCand c fun e => { e with
      cutDone := true, blocks := parts.flatMap fun p => p.1, conds, cond, flags := e.flags ||| flags }
    s.unpin c

/-- `RECORD_CUT_DONE` (11 R257). -/
def execRecordCutDone (c : Cand) (s : State) : Out := .next (s.cutDone c)

/-! ### Measurements (11 R261, R262) -/

/-- The measurement window in Kloif samples, shortened to the ticks the record carries (11 R261). -/
def State.measWindow (s : State) (e : Candidate) : Nat × Nat :=
  let t := e.stamp / 128
  (Nat.max (t - s.nat Obj.REC_MEAS_PRE) (4096 * e.first), Nat.min (t + s.nat Obj.REC_MEAS_POST) (4096 * (e.first + e.ticks)))

/-- The words of an input in a range of samples as the record builder decodes them; none with a `NODATA` or poisoned block
(11 R261; 12 R283), with the errors met. -/
def State.measWords (s : State) (e : Candidate) (n lo hi : Nat) : Option (List (BitVec 12)) × Nat :=
  let ts := (List.range ((hi + 4095) / 4096 - lo / 4096)).map (lo / 4096 + ·)
  let one (a : Option (List (BitVec 12)) × Nat) (t : Nat) : Option (List (BitVec 12)) × Nat :=
    let p := s.recBlocks e n t
    let set := s.tabBlob Obj.CODER_TAB_SHADOW (s.ordOf t) (n / 16)
    let ks := (List.range 128).filter fun k => decide (4096 * t + 32 * k < hi ∧ lo < 4096 * t + 32 * k + 32)
    ks.foldl (fun a k =>
      if p.2.contains k then (none, a.2) else
        match decodeBlock e.bits set (slice p.1 (4 * e.bits * k) (4 * e.bits)) with
        | .nodata => (none, a.2)
        | .error => (none, a.2 + 1)
        | .words w => (a.1.map fun l => l ++ w, a.2)) a
  let q := ts.foldl one (some [], 0)
  (q.1.map fun l => (l.drop (lo % 32)).take (hi - lo), q.2)

/-- Decoded words as linear values v = m · 4^r, with `SAT` and blanked samples handled as in R110 and R111 (11 R262): a blanked sample, whose
word is 0xC00 (03 R76), is 0 and is passed over for the sign (assumption log 27, DESIGN CHOICE). -/
def measLinear (zeroFill : Bool) : List (BitVec 12) → Int → List Int
  | [], _ => []
  | w :: r, last =>
    if w == 0xE00 then (if zeroFill then 0 else if 0 ≤ last then 32767 else -32767) :: measLinear zeroFill r last
    else if w == 0xC00 then 0 :: measLinear zeroFill r last
    else
      let v := ofTwos 10 (w.toNat % 1024) * 4 ^ (w.toNat / 1024)
      v :: measLinear zeroFill r v

/-- Where a sequence crosses a level between samples `i - 1` and `i`, in TU from sample 0 (10 R219); the level is `num / den`. -/
def crossAt (a : Array Nat) (num den i : Nat) : Int :=
  128 * ((i : Int) - 1) + placeLinear (den * a.getD (i - 1) 0 : Nat) (den * a.getD i 0 : Nat) num

/-- The measurements of an input whose window holds samples given oldest first, in the order of their codes: `none` stands
for a value the spec does not state (a crossing outside the window; assumption log 27, DESIGN CHOICE). `base` is the time of sample 0 less T.
`up` chooses between the whole numbers beside a mean interval that is none (assumption log 27, DESIGN CHOICE). -/
def measure (h : List Int) (lin : List Int) (base : Int) (up : Bool) : List (Option Int) :=
  let ys := (trigFilter h lin.reverse)
  let es := (trigEnvelope trigQs ys).reverse
  let y := ys.reverse.toArray
  let b := (es.take 64).foldl (· + ·) 0 / 64
  let a := (es.map fun e => e - b).toArray
  let n := a.size
  let top := a.foldl Nat.max 0
  if top = 0 then List.replicate 7 (some 0) else
    let sp := ((List.range n).find? fun i => a.getD i 0 == top).getD 0
    let half (i : Nat) : Bool := decide (top ≤ 2 * a.getD i 0)
    -- the run around s_p with a ≥ A/2
    let lo := ((List.range sp).reverse.find? fun i => !half i)
    let hi := ((List.range n).find? fun i => decide (sp < i) && !half i)
    let left := lo.map fun i => crossAt a top 2 (i + 1)
    let right := hi.map fun i => crossAt a top 2 i
    let width := left.bind fun l => right.map fun r => r - l
    -- the rise from A/10 to 9A/10
    let i1 := (List.range (sp + 1)).reverse.find? fun i => decide (0 < i ∧ 10 * a.getD (i - 1) 0 < top ∧ top ≤ 10 * a.getD i 0)
    let i9 := i1.bind fun i => (List.range n).find? fun k => decide (i ≤ k ∧ 0 < k ∧ 10 * a.getD (k - 1) 0 < 9 * top ∧ 9 * top ≤ 10 * a.getD k 0)
    let rise := i1.bind fun i => i9.map fun k => crossAt a (9 * top) 10 k - crossAt a top 10 i
    -- rising zero crossings of y within the run
    let f := match lo with | some i => i + 1 | none => 0
    let l := match hi with | some i => i | none => n
    let zs := (List.range l).filter fun i => decide (f < i ∧ y.getD (i - 1) 0 < 0 ∧ 0 ≤ y.getD i 0)
    let zt (i : Nat) : Int := 128 * ((i : Int) - 1) + placeLinear (y.getD (i - 1) 0) (y.getD i 0) 0
    let span : Int := match zs.head?, zs.getLast? with | some i, some k => zt k - zt i | _, _ => 0
    let cnt := zs.length
    let gaps : Int := (cnt - 1 : Nat)
    let period : Option Int := some (if cnt < 2 then 0 else span / gaps + (if up && span % gaps != 0 then 1 else 0))
    let energy := f32OfInt (y.foldl (fun acc v => acc + v * v) 0)
    [some top, some (base + 128 * sp - 3904), width, rise, period, none, some energy]

/-- The seven words of one input's measurements (08 R188; 11 R262). A value the spec does not state is a free one; `FREQ`
follows from `PERIOD`. -/
def State.measPost (s : State) (c n : Nat) (vals : List (Option Int)) : List (BitVec 64) × State :=
  let word (code : Nat) (v : Int) : BitVec 64 := BitVec.ofNat 64 (c * 2 ^ 51 + code * 2 ^ 40 + n * 2 ^ 32 + toTwos 32 v)
  let fill (a : List Int × State) (v : Option Int) : List Int × State :=
    match v with
    | some x => (a.1 ++ [x], a.2)
    | none => let q := a.2.free (2 ^ 32); (a.1 ++ [(q.1 : Int)], q.2)
  let (vs, s) := (vals.take 5).foldl fill ([], s)
  let period := nth 0 vs 4
  let freq : Int := if vals.all fun v => v == some 0 then 0 else if 0 < period then divAway 131072000000 period.toNat else 0
  let all := vs ++ [freq, (nth none vals 6).getD 0]
  (((List.range 7).zip all).map fun q => word (q.1 + 1) q.2, s)

/-- Whether a record has a tick of a range of samples in the slot whose entry is completed a tick late (02 R35). -/
def State.lateWithin (s : State) (e : Candidate) (lo hi : Nat) : Bool :=
  match s.hist.lateSlot with
  | some x => x.run == e.run && decide (lo / 262144 ≤ x.j ∧ 262144 * x.j < hi)
  | none => false

/-- The record builder measures a record (11 R261, R262): the inputs chosen at its opening, with their filter set and fill in force at the
tick of the trigger; a slot whose entry is late is waited for (02 R35). -/
def State.recMeasure (s : State) (c : Nat) : State :=
  let e := s.cand c
  let w := s.measWindow e
  let ready := match s.hist.newest with | some t => decide (w.2 ≤ 4096 * (t + 1)) && !s.lateWithin e w.1 w.2 | none => false
  if s.mode == Mode.HALT || (e.state != candPENDING && e.state != candCOMMITTED) || e.measured || !ready then s else
    let one (a : List (BitVec 64) × State) (i : Nat × Nat × Nat) : List (BitVec 64) × State :=
      let n := i.1
      let q := a.2.measWords e n w.1 w.2
      let s := a.2.inc Obj.CODER_DECODE_ERR_COUNT (n := q.2)
      match q.1 with
      | none => (a.1, s)
      | some l =>
        let tab := s.tabBlob Obj.TRIG_FILTER_SHADOW (s.ordOf e.trigTick) (n / 16)
        let up := s.free 2
        let vals := measure (trigSet tab i.2.1) (measLinear (i.2.2 == 1) l 0) ((128 * w.1 : Nat) - (e.stamp : Int)) (up.1 == 1)
        let r := up.2.measPost c n vals
        (a.1 ++ r.1, r.2)
    let (words, s) := e.measIns.foldl one ([], s)
    s.setCand c fun e => { e with measured := true, meas := words ++ e.meas }

/-- `REC_MEASURE` (11 R262). -/
def execRecMeasure (c : Cand) (s : State) : Out := .next (s.recMeasure c)

/-- The measurement words that engines may still add to a record: those of the builder keep their place until it has measured (13 R286,
R287). -/
def Candidate.room (e : Candidate) : Nat := e.space - e.meas.length - (if e.measured then 0 else 7 * e.measIns.length)

/-- An engine's measurement at a hand-out (08 R188; 13 R287). -/
def State.engMeasure (s : State) (k : Nat) (w : BitVec 64) : State :=
  let c := w.toNat / 2 ^ 51
  let e := s.cand c
  let open_ := (e.state == candPENDING || e.state == candCOMMITTED) && !e.isSealed
  let inTime := e.notices.contains k && decide (s.clk.ord ≤ e.noticeTick + s.nat Obj.ENG_MEAS_WINDOW)
  if open_ && inTime && decide (0 < e.room) then s.setCand c fun e => { e with meas := e.meas ++ [w] }
  else s.inc Obj.ENG_MEAS_DROP_COUNT k

/-- A candidate is sealed (13 R290, R296). -/
def State.candSeal (s : State) (c : Nat) : State :=
  let e := s.cand c
  let waited := e.notices.all fun _ => decide (e.noticeTick + s.nat Obj.ENG_MEAS_WINDOW < s.clk.ord)
  if s.mode == Mode.HALT || (e.state != candPENDING && e.state != candCOMMITTED) || e.isSealed || !e.cutDone || !e.measured || !waited then s else
    let s : State := { s with spec := { s.spec with seals := s.spec.seals + 1 } }
    let s := s.setCand c fun e => { e with isSealed := true, sealNo := s.spec.seals }
    if e.state = candCOMMITTED then s.countRecord c else s

/-- `CANDIDATE_SEAL` (13 R290). -/
def execCandidateSeal (c : Cand) (s : State) : Out := .next (s.candSeal c)

/-- The trigger words take the condition words of their ticks as the end of a tick leaves them, as long as a mark can still reach that tick
(10 R226; 03 R82); nothing in HALT (13 R304). -/
def State.condsResolve (s : State) : State :=
  if s.mode == Mode.HALT then s else
    ((s.spec.cands.filter fun e => !e.2.crossed.isEmpty).map fun e => e.1).foldl (fun s c =>
      s.setCand c fun e =>
        let age := s.clk.ord - e.trigOrd
        let cond := e.crossed.foldl (fun a n => a ||| s.condAt n age) 0
        { e with word := e.word ||| BitVec.ofNat 128 (cond.toNat * 2 ^ 16), crossed := if 8 ≤ age then [] else e.crossed }) s

/-! ### Outcomes (13 R292-R294, R297) -/

/-- A decision is applied at its boundary: to the candidates it names that are still open (10 R235; 13 R293). Assumption log 52, DEDUCED. -/
def State.decide_ (s : State) (d : Decision) : State :=
  d.cands.foldl (fun s c =>
    let e := s.cand c
    let ok := e.state == candPENDING && (match d.stamp with | some t => e.stamp % 2 ^ 40 == t | none => true)
    if ok then (if d.confirm then s.commit c 1 else s.rollback c 2)
    else if d.stamp.isSome then s.inc Obj.DOMINO_LATE_COUNT else s) s

/-- A candidate whose `DEADLINE` boundary has come expires (13 R292). -/
def State.candExpire (s : State) (c : Nat) : State :=
  let e := s.cand c
  if e.state != candPENDING || s.tick < e.deadline then s
  else if s.val Obj.SPEC_EXPIRY_ACTION = 1 then s.commit c 4 else s.rollback c 3

/-- The decisions that waited, in order of arrival (13 R293). -/
def State.decisionsApply (s : State) : State :=
  let due := s.trig.decisions.filter fun d => decide (d.ord < s.clk.ord)
  due.foldl State.decide_ (s.setTrig fun t => { t with decisions := t.decisions.filter fun d => !decide (d.ord < s.clk.ord) })

/-- The outcomes of a boundary (13 R293); nothing in HALT (R304). -/
def State.outcomesApply (s : State) : State :=
  if s.mode = Mode.HALT then s else
    let s := s.decisionsApply
    (s.spec.cands.map fun e => e.1).foldl State.candExpire s

/-- `CANDIDATE_OUTCOME_APPLY` (13 R293). -/
def execCandidateOutcomeApply (s : State) : Out := .next (if s.mode = Mode.HALT then s else s.decisionsApply)

/-- `CANDIDATE_EXPIRE` (13 R292): after the decisions of the boundary. -/
def execCandidateExpire (c : Cand) (s : State) : Out :=
  .next (if s.mode = Mode.HALT then s else s.decisionsApply.candExpire c)

/-- Candidates at a mode change (13 R303; 11 "When things meet"): those pending end with `MODE` outside the record modes. -/
def State.candsMode (s : State) (m : Int) : State :=
  if Mode.record m then s else
    ((s.spec.cands.filter fun e => e.2.state == candPENDING).map fun e => e.1).foldl (fun s c => s.rollback c 6) s

/-- A run ends at the current tick: records that reach beyond it end there, clipped (11 R243, R256). -/
def State.candsRunEnd (s : State) : State :=
  let t := s.tick
  let one (e : Candidate) : Candidate :=
    if e.state = candFREE ∨ e.cutDone ∨ e.first + e.ticks ≤ t then e
    else { e with ticks := t - e.first, reserved := [], flags := e.flags ||| recCLIPPED }
  ({ s with spec := { s.spec with cands := smEach {} (fun _ e => one e) s.spec.cands } }).pinReport

/-- A new run starts at the current tick (11 R243, R244, R246, R250, R254). -/
def State.runStart (s : State) : State :=
  let s := s.setHist fun h => { h with
    slots := h.slots.map fun x => { x with state := 3 }, on := true, bits := s.nat Obj.HIST_BITS
    inputs := (List.range 256).filter fun n => maskHas (s.blob Obj.HIST_INPUT_MASK) n && s.inService n }
  let s := (s.inc Obj.HIST_RUN).setVal Obj.HIST_RUN_START s.tick
  let s := s.setCoder fun c => { c with segTick := none, rgs := [], ins := [] }
  let s := s.recRetest
  s.slotAllocate

/-- The history writer at a mode change (11 R242, R243). -/
def State.histMode (s : State) (m : Int) : State :=
  let s := if s.hist.on then s.candsRunEnd else s
  if Mode.record m then s.runStart else s.setHist fun h => { h with on := false }

/-- The history writer in HALT: it writes nothing more (11 R242); records stay as they are (13 R304). -/
def State.histHalt (s : State) : State := s.setHist fun h => { h with on := false, coded := [], codedTick := none }

/-! ### Export and sending ahead (12 R282; 13 R295, R299, R300; 16 R375) -/

/-- The descriptor of a record (11 R258); `ahead` for a record sent before its commit (13 R299). -/
def Candidate.descriptor (e : Candidate) (ahead : Bool) : List Byte :=
  leBytes 16 e.word.toNat ++ leBytes 8 e.first ++ leBytes 4 e.ticks ++ leBytes 2 e.preReq ++ leBytes 2 e.postReq ++
    leBytes 4 (if ahead then 0 else e.seq) ++ leBytes 2 e.flags.toNat ++
    leBytes 2 (e.cond ||| Flag.when ahead Flag.spec).toNat ++ leBytes 1 e.bits ++ leBytes 1 e.inputs.length ++
    leBytes 2 e.meas.length ++ leBytes 4 e.run ++ inputMask fun n => e.inputs.contains n

/-- The bytes of a record (11 R258). -/
def Candidate.bytes (e : Candidate) (ahead : Bool) : List Byte :=
  e.descriptor ahead ++ e.conds.flatMap (fun c => leBytes 2 c.toNat) ++ e.blocks ++ e.meas.flatMap fun w => leBytes 8 w.toNat

/-- Whether any of `n` bytes of a record from an offset is stored in a poisoned granule of the head store or of staging. -/
def State.recPoisoned (s : State) (e : Candidate) (off n : Nat) : Bool :=
  !s.poison.isEmpty && (
    let headLen := 80 + 2 * e.conds.length
    (List.range n).any fun i =>
      let o := off + i
      if o < headLen then s.poisoned (headBase + nth 0 e.head (o / 4096) * 4096 + o % 4096 / 8 * 8) 8
      else if o < headLen + e.blocks.length then
        let b := o - headLen
        s.poisoned (stagingBase + nth 0 e.staging (b / 65536) * 65536 + b % 65536 / 8 * 8) 8
      else
        let m := headLen + (o - headLen - e.blocks.length)
        s.poisoned (headBase + nth 0 e.head (m / 4096) * 4096 + m % 4096 / 8 * 8) 8)

/-- Queues a record in segments of 4,080 bytes, as `RECORD` frames or ahead as `SPEC` frames (16 R372, R375). -/
def State.queueRecord (s : State) (c : Nat) (ahead : Bool) : State :=
  let e := s.cand c
  let all := e.bytes ahead
  let headBad := s.recPoisoned e 0 (80 + 2 * e.conds.length)
  let cond := e.cond ||| Flag.when ahead Flag.spec ||| Flag.when headBad Flag.poison
  let n := (all.length + 4079) / 4080
  (List.range n).foldl (fun s i =>
    let off := 4080 * i
    let body := pad4 ((all.drop off).take 4080)
    let last := i + 1 == n
    let bad := s.recPoisoned e off body.length
    let s := if ahead then s.queueFrame 8 7 1 (specHeader e c cond off (if last then 1 else 0) ++ body) body.length 0 c false
      else s.queueFrame 7 5 1 (productHeader e.seq cond c (off / 2 ^ 16) (off % 2 ^ 16) (if last then 1 else 0) ++ body) body.length 0 c last
    if bad then match s.fr.queue.getLast? with
      | some f => s.markPoison ((queueBase + f.place) / 8 * 8)
      | none => s
    else s) s

/-- Whether the output queue covers a record in full (13 R295). -/
def State.queueCovers (s : State) (e : Candidate) : Bool :=
  let n := (e.size + 4079) / 4080
  decide (s.queueUsed + e.size + 40 * n ≤ 2 ^ 31)

/-- The export of a committed record (12 R282; 13 R295): in order of `SEQ`, once it is sealed. A first try that the queue does
not cover fails as a whole. -/
def State.recordExport (s : State) (c : Nat) : State :=
  let e := s.cand c
  let first := s.spec.cands.all fun q => q.2.state != candCOMMITTED || q.2.exporting || q.2.ahead || q.1 == c || decide (e.seq < q.2.seq)
  if !Mode.record s.mode || e.state != candCOMMITTED || !e.isSealed || e.exporting || e.ahead || !first then s
  else if s.queueCovers e then (s.queueRecord c false).setCand c fun e => { e with exporting := true, waits := false }
  else if e.waits then s
  else (s.inc Obj.CODER_JOB_FAIL_COUNT 0 2).setCand c fun e => { e with waits := true }

/-- `RECORD_EXPORT` (13 R295). -/
def execRecordExport (c : Cand) (s : State) : Out := .next (s.recordExport c)

/-- Sending a candidate ahead (13 R299): one at a time, in order of sealing. -/
def State.sendAhead (s : State) (c : Nat) : State :=
  let e := s.cand c
  let first := s.spec.cands.all fun q => q.2.state != candPENDING || !q.2.isSealed || q.2.queued || q.1 == c || decide (e.sealNo < q.2.sealNo)
  let busy := s.fr.queue.any fun f => f.cls == 8 && f.type == 1
  if s.mode == Mode.HALT || !s.on Obj.SPEC_SEND_AHEAD || !s.on Obj.SPEC_PARTNER_CAPABLE || e.state != candPENDING || !e.isSealed ||
      e.queued || !first || busy || !s.queueCovers e then s
  else (s.queueRecord c true).setCand c fun e => { e with queued := true }

/-- `SEND_AHEAD` (13 R299). -/
def execSendAhead (c : Cand) (s : State) : Out := .next (s.sendAhead c)

/-- The `COMMIT` of a candidate that was sent ahead (13 R300). -/
def State.commitSend (s : State) (c : Nat) : State :=
  let e := s.cand c
  if s.mode == Mode.HALT || e.state != candCOMMITTED || !e.ahead || e.commitQueued then s else
    (s.queueFrame 8 7 2 (specHeader e c 0 e.seq 0) 0 0 c true).setCand c fun e => { e with commitQueued := true }

/-- `SPEC_COMMIT_SEND` (13 R300). -/
def execSpecCommitSend (c : Cand) (s : State) : Out := .next (s.commitSend c)

/-- What the hand-out of a frame does to its candidate (13 R291, R299). -/
def State.candHanded (s : State) (f : Frame) : State :=
  if (f.cls != 7 && f.cls != 8) || decide (8192 ≤ f.cand) then s else
    let s := if f.cls == 8 && f.type == 1 then s.setCand f.cand fun e => { e with ahead := true } else s
    if f.isLast then s.candFree f.cand else s

/-- `FRAME_HANDOUT` (15 R355; 16 R369, R384; 13 R291, R299). -/
def execFrameHandout (s : State) : Out :=
  .next (if !Mode.lanes s.mode then s else match s.handout with
    | (some f, t) => t.candHanded f
    | (none, t) => t)

/-- The downlink partner runs a new exchange: `AHEAD` is cleared on every candidate (13 R302). The frames of a candidate of which none was
handed out are withdrawn too: it is sent ahead again if R299 still holds, and otherwise not at all. In HALT the table is frozen (R304). -/
def State.partnerReexchange (s : State) : State :=
  if s.mode == Mode.HALT then s else
  (s.spec.cands.filter fun e => e.2.ahead || e.2.queued).foldl (fun s q =>
    let s := s.withdraw q.1
    if q.2.state = candRETRACTING then s.candFree q.1
    else s.setCand q.1 fun e => { e with ahead := false, queued := false, commitQueued := false }) s

/-- `LANE_SYMBOL_LOCK`: the lane enters `EXCHANGE` (15 R340; 13 R302). -/
def execLaneSymbolLock (l : Ln) (s : State) : Out :=
  .next (if s.laneState l = Lane.SYMBOL_LOCK ∧ s.laneFlushing l = false ∧ s.symbolsClean l = true then
    let s := s.laneExchange l
    if Lane.down l then s.partnerReexchange else s
  else s)

/-- The 32 bytes of a candidate's entry (13 R288). Assumption log 52, DEDUCED. -/
def Candidate.entry (e : Candidate) : List Byte :=
  leBytes 8 e.trigTick ++ leBytes 8 e.deadline ++ leBytes 4 e.seq ++ leBytes 4 e.staging.length ++ leBytes 2 e.head.length ++
    leBytes 1 e.state ++ leBytes 1 e.outcome ++ leBytes 1 e.level ++
    leBytes 1 (ofBits [e.cutDone, e.isSealed, e.ahead, e.exporting]) ++ leBytes 2 0

end Sys2Proof.Machine
end

