-- ==== Sys2Proof/Machine/Trig.lean ====
section
/-! DEFINITION. Trigger primitives, coincidence, module triggers, rate reduction, the wired output (10 R215-R229, R238). -/

namespace Sys2Proof.Machine

/-- A channel's trigger path. -/
def State.trigCh (s : State) (n : Nat) : TrigCh := smGet {} s.trig.chans n

/-- The state with a channel's trigger path changed. -/
def State.setTrigCh (s : State) (n : Nat) (f : TrigCh → TrigCh) : State :=
  s.setTrig fun t => { t with chans := smUpd {} t.chans n f }

/-- A coincidence element, by level code (1 cluster, 2 region, 3 die, 4 module). -/
def State.coin (s : State) (lvl e : Nat) : CoinSt := smGet {} s.trig.coins (512 * lvl + e)

/-- The state with a coincidence element changed. -/
def State.setCoin (s : State) (lvl e : Nat) (f : CoinSt → CoinSt) : State :=
  s.setTrig fun t => { t with coins := smUpd {} t.coins (512 * lvl + e) f }

/-- `TRIG_REARM` of a level code in samples, never below 2 ticks (10 R227). -/
def State.rearmLen (s : State) (lvl : Nat) : Nat := Nat.max 2 (s.nat Obj.TRIG_REARM 0 (lvl + 1)) * 4096

/-! ### Rules of a level (10 R222-R224) -/

/-- k and W (in samples) of a coincidence element, by the table ID 8 of a sampling tick: k = 1 for OR logic (10 R223). -/
def State.coinRule (s : State) (lvl e ord : Nat) : Nat × Nat :=
  match lvl with
  | 1 => (s.tabNat Obj.COIN_CL_K ord e, s.tabNat Obj.COIN_CL_WINDOW ord)
  | 2 => (s.tabNat Obj.COIN_RG_K ord e, s.tabNat Obj.COIN_RG_WINDOW ord)
  | 3 => (if s.tabNat Obj.COIN_DIE_LOGIC ord e = 1 then 2 else 1, s.tabNat Obj.COIN_DIE_WINDOW ord)
  | _ => (s.tabNat Obj.COIN_MOD_K ord, s.tabNat Obj.COIN_MOD_WINDOW ord)

/-- The samples from a crossing to the issue of a level for an origin input (10 R224). -/
def State.issueDelay (s : State) (origin ord : Nat) : Nat → Nat
  | 0 => 48
  | n + 1 =>
    let e := match n with | 0 => origin / 4 | 1 => origin / 16 | 2 => origin / 32 | _ => 0
    let r := s.coinRule (n + 1) e ord
    s.issueDelay origin ord n + (if n = 3 then 256 else 0) + 2 + (if 2 ≤ r.1 then r.2 else 0)

/-- The Kloif sample at which a member's trigger reaches a level (10 R224, R320). -/
def State.arrivalAt (s : State) (lvl : Nat) (t : MemberTrig) : Nat :=
  let ord := s.ordOf (t.stamp / 2 ^ 19)
  t.stamp / 128 +
    (if t.level = 5 then 32
     else if t.level = 6 then (s.tick * 4096 + 3840) - t.stamp / 128
     else s.issueDelay t.origin ord (lvl - 1) + (if lvl = 4 then 256 else 0))

/-- Whether a member is enabled at a level (10 R223, R225). -/
def State.memberOn (s : State) (lvl e : Nat) (t : MemberTrig) : Bool :=
  let ord := s.ordOf (t.stamp / 2 ^ 19)
  match lvl with
  | 1 => decide (t.member < 4) && s.on Obj.TRIG_ENABLE (4 * e + t.member)
  | 2 => decide (t.member < 4)
  | 3 => decide (t.member < 2)
  | _ => bitOf (s.tabNat Obj.COIN_MOD_SOURCES ord) t.member && (decide (8 ≤ t.member) || !s.dieOff t.member)

/-! ### Module triggers (10 R225-R229, R238) -/

/-- The wired output for a trigger that opened a candidate (10 R238). -/
def State.trgoPulse (s : State) (issue stamp : Nat) : State :=
  if !s.on Obj.TRGO_ENABLE then s else
    let start := (stamp + s.nat Obj.TRGO_OFFSET + 127) / 128
    let stop := start + s.nat Obj.TRGO_WIDTH
    if start < issue then s.inc Obj.DOMINO_LATE_COUNT
    else if s.trig.pulses.any fun p => decide (p.1 ≤ start ∧ start < p.2) then s
    else s.setTrig fun t => { t with
      pulses := ((start, stop) :: t.pulses.filter fun p => !decide (start ≤ p.1 ∧ p.1 < stop)).mergeSort fun a b => decide (a.1 ≤ b.1) }

/-- A trigger reaches the prescaler, and passes it or is counted (10 R229). -/
def State.trigPrescale (s : State) : Bool × State :=
  let pass := s.trig.count % 2 ^ s.nat Obj.TRIG_PRESCALE_LEVEL == 0
  let s := s.setTrig fun t => { t with count := (t.count + 1) % 2 ^ 32 }
  (pass, if pass then s else s.inc Obj.TRIG_PRESCALED_COUNT)

/-- The module level issues a trigger at a Kloif sample (10 R225-R229). -/
def State.moduleTrigger (s : State) (issue : Nat) (m : MemberTrig) : State :=
  let s := s.inc Obj.TRIG_ISSUED_COUNT 0 5
  let m := { m with cond := m.cond ||| Flag.when (s.staleAt 8 0 (s.ordOf (m.stamp / 2 ^ 19))) Flag.staleTbl }
  let stop := issue + s.rearmLen 4
  let s := s.setCoin 4 0 fun x => { x with rearm := stop }
  let s := s.setTrig fun t => { t with dead := t.dead ++ [(issue * 128, stop * 128)] }
  let (pass, s) := s.trigPrescale
  if !pass then s else
    let (opened, s) := s.candOpen (issue * 128) m false
    if opened then s.trgoPulse issue m.stamp else s

/-- Where a level sends its triggers: the level and element above, and its own member number there (10 R223). -/
def coinUp (lvl e : Nat) : Nat × Nat × Nat :=
  match lvl with
  | 0 => (1, e / 4, e % 4)
  | 1 => (2, e / 4, e % 4)
  | 2 => (3, e / 2, e % 2)
  | _ => (4, 0, e)

/-- A level issues a trigger at a Kloif sample: it is counted, its re-arm begins, and it goes on to the level above
(10 R222, R224, R227). Assumption log 49, DEDUCED. -/
def State.coinIssue (s : State) (lvl e issue : Nat) (m : MemberTrig) : State :=
  if lvl = 4 then s.moduleTrigger issue m else
    let s := s.inc Obj.TRIG_ISSUED_COUNT 0 (lvl + 1)
    let s := s.setCoin lvl e fun x => { x with rearm := issue + s.rearmLen lvl }
    let up := coinUp lvl e
    s.setTrig fun t => { t with flight := t.flight ++ [(up.1, up.2.1, { m with member := up.2.2 })] }

/-- A member's trigger reaches a level at a Kloif sample (10 R222, R227). Assumption log 49, DEDUCED. -/
def State.coinArrive (s : State) (lvl e at_ : Nat) (t : MemberTrig) : State :=
  if !s.memberOn lvl e t then s else
    let x := s.coin lvl e
    if at_ < x.rearm then s.inc Obj.TRIG_LOST_COUNT 0 (lvl + 1) else
      let r := s.coinRule lvl e (s.ordOf (t.stamp / 2 ^ 19))
      let or_ := lvl == 4 && decide (8 ≤ t.member)
      match x.win with
      | some w =>
        if or_ then s.coinIssue lvl e (at_ + 2) t
        else if t.stamp ≤ w.t0 + 128 * w.w then
          if w.joined.any fun j => j.member == t.member then s
          else s.setCoin lvl e fun x => { x with win := some { w with joined := w.joined ++ [t] } }
        else if x.held.any fun j => j.member == t.member then s.inc Obj.TRIG_LOST_COUNT 0 (lvl + 1)
        else s.setCoin lvl e fun x => { x with held := x.held ++ [t] }
      | none =>
        if or_ || r.1 < 2 then s.coinIssue lvl e (at_ + 2) t
        else s.setCoin lvl e fun x => { x with win := some { t0 := t.stamp, k := r.1, w := r.2, joined := [t] } }

/-- The Kloif sample at which an open window closes: when a trigger stamped at its end could no longer arrive (10 R222, R224). -/
def State.coinCloseAt (s : State) (lvl : Nat) (w : CoinWin) : Nat :=
  s.arrivalAt lvl (w.joined.headD { member := 0, stamp := w.t0, level := 0, element := 0, members := 0, origin := 0, cond := 0, uncal := false }) + w.w

/-- The open window of a level closes within the current tick: it issues with k members or more, and the triggers held arrive (10 R222). -/
def State.coinClose (s : State) (lvl e : Nat) : State :=
  let x := s.coin lvl e
  match x.win with
  | none => s
  | some w =>
    let first := w.joined.headD { member := 0, stamp := w.t0, level := 0, element := 0, members := 0, origin := 0, cond := 0, uncal := false }
    let at_ := s.coinCloseAt lvl w
    if (s.tick + 1) * 4096 ≤ at_ then s else
    let s := s.setCoin lvl e fun x => { x with win := none, held := [] }
    let m : MemberTrig := { first with
      stamp := w.t0, level := lvl, element := if lvl = 4 then 0 else e, members := w.joined.length
      cond := w.joined.foldl (fun c j => c ||| j.cond) 0, uncal := w.joined.any fun j => j.uncal
      inputs := (w.joined.flatMap fun j => j.inputs).eraseDups }
    let s := if w.k ≤ w.joined.length then s.coinIssue lvl e (at_ + 2) m else s
    (x.held.mergeSort fun a b => decide (a.stamp ≤ b.stamp)).foldl (fun s t => s.coinArrive lvl e (at_ + 2) t) s

/-- The level code of a coincidence level (10 R226). -/
def CoinLevel.code : CoinLevel → Nat
  | .cluster => 1 | .region => 2 | .die => 3 | .module => 4

/-- `COIN_MEMBER_TRIGGER` (10 R222): the trigger, as it is delivered, leaves the path it was on. -/
def execCoinMemberTrigger (lvl : CoinLevel) (elem : Nat) (t : MemberTrig) (s : State) : Out :=
  .next (
    let s := s.setTrig fun x => { x with flight := x.flight.erase (CoinLevel.code lvl, elem, t) }
    if !Mode.record s.mode then s else s.coinArrive (CoinLevel.code lvl) elem (s.arrivalAt (CoinLevel.code lvl) t) t)

/-- `COIN_WINDOW_CLOSE` (10 R222). -/
def execCoinWindowClose (lvl : CoinLevel) (elem : Nat) (s : State) : Out :=
  .next (if Mode.record s.mode then s.coinClose (CoinLevel.code lvl) elem else s)

/-- A source of the module level: an external input (level 5), or an engine (6); it re-arms on its own (10 R225, R227). -/
def State.sourceTrigger (s : State) (lvl element at_ : Nat) (m : MemberTrig) : State :=
  if !s.memberOn 4 0 m then s
  else if at_ < smGet 0 s.trig.sources (512 * lvl + element) then s.inc Obj.TRIG_LOST_COUNT 0 (lvl + 1)
  else
    let s := s.inc Obj.TRIG_ISSUED_COUNT 0 (lvl + 1)
    let s := s.setTrig fun t => { t with sources := smPut 0 t.sources (512 * lvl + element) (at_ + s.rearmLen lvl) }
    s.coinArrive 4 0 at_ m

/-- An engine's software trigger at the hand-out (08 R187; 10 R225). -/
def State.engTrigger (s : State) (k : Nat) (w : Word) : State :=
  if !Mode.record s.mode then s.inc Obj.TRIG_MODE_DROP_COUNT else
    let t := (match s.delay with | d :: _ => d.tick | [] => s.tick - 3) - 7
    let input := w.toNat / 2 ^ 16 % 256
    s.sourceTrigger 6 k (s.tick * 4096 + 3840) {
      member := 24, stamp := t * 2 ^ 19, level := 6, element := k, members := 1, origin := w.toNat / 2 ^ 24
      cond := s.condAt input (s.tick - t), uncal := false, inputs := [input] }

/-! ### Primitives (10 R216-R221) -/

/-- Whether a sample of the current tick is one of the first 64 after a blanked stretch of the input, its reset or its region's restart
(10 R220). -/
def State.trigWarm (s : State) (n sample : Nat) : Bool :=
  let a := s.absSample sample
  let before := ((List.range 64).any fun k => decide (k < sample) && s.blankedAt n (sample - 1 - k)) ||
    (List.range 4).any fun p => bitOf (s.nat Obj.BLANK_MASK n) p && decide (a < (s.pin p).activeTo + 64)
  decide (a < (s.trigCh n).warmTo) || (!s.blankedAt n sample && before)

/-- The conditions of `TRIG_INHIBIT_MASK` that hold for an input at a sample (10 R220). -/
def State.inhibits (s : State) (n sample : Nat) : Cond :=
  Flag.when (s.trigWarm n sample) Flag.warm ||| Flag.when (s.on Obj.CLAMP_STATE (n / 4)) Flag.clamp |||
    Flag.when (decide (s.absSample sample < (s.inp n).nbrTo)) Flag.nbr |||
    Flag.when (s.val Obj.EXC_REMAINING n != 0) Flag.exc ||| Flag.when (s.feedFlagged n) Flag.feed

/-- The 64-bit crossing word (10 R221). -/
def crossingWord (stamp n : Nat) (rising parabolic : Bool) : BitVec 64 :=
  BitVec.ofNat 64 (stamp % 2 ^ 40 * 2 ^ 24 + n * 2 ^ 16 + (if rising then 1 else 2) * 2 ^ 14 + (if parabolic then 2 ^ 12 else 0))

/-- The poisoned words of the live trigger filters of an input's region (18 R432). -/
def State.trigHoles (s : State) (n : Nat) : List Nat := s.holesAt 7 (n / 16) 0 128 s.clk.ord

/-- A crossing of a channel at a sample of the current tick, whose envelope there and at the two samples before it is `e0`, `e1`, `e2`
(10 R219-R221, R227): inhibited, lost to the re-arm, or a primitive. -/
def State.trigCross (s : State) (n sample : Nat) (rising : Bool) (e0 e1 e2 : Nat) : State :=
  if s.blankedAt n sample && s.on Obj.BLANK_GATES_TDC n then s.inc Obj.BLANK_HIT_DROP_COUNT n
  else if Flag.any (s.inhibits n sample) (BitVec.ofInt 16 (s.val Obj.TRIG_INHIBIT_MASK n)) then s.inc Obj.TRIG_INHIBIT_COUNT n
  else
    let level := s.nat Obj.TRIG_LEVEL n
    let para := s.val Obj.TRIG_INTERP n == 1
    let u := if para then placeParabola (e2 : Int) e1 e0 level else placeLinear e1 e0 level
    let stamp := s.timeAt sample + u - 128 - 3904
    let issue := stamp / 128 + 48
    if issue < (s.trigCh n).rearm then s.inc Obj.TRIG_LOST_COUNT 0 1 else
      let s := (s.inc Obj.TRIG_PRIM_COUNT n).inc Obj.TRIG_ISSUED_COUNT 0 1
      let s := s.setTrigCh n fun c => { c with rearm := issue + s.rearmLen 0 }
      let s := if s.on Obj.TRIG_CROSSING_OUT n then
          s.setTrig fun t => { t with words := t.words ++ [(stamp / 2 ^ 19, crossingWord stamp n rising para)] }
        else s
      let t := stamp / 2 ^ 19
      let cond := s.condAt n (s.tick - t) ||| Flag.when (s.staleAt 7 (n / 16) (s.ordOf t)) Flag.staleTbl |||
        Flag.when (!(s.trigHoles n).isEmpty) Flag.poison
      let m : MemberTrig := { member := n % 4, stamp, level := 0, element := n, members := 1, origin := n
                              cond, uncal := false, inputs := [n] }
      s.setTrig fun t => { t with flight := t.flight ++ [(1, n / 4, m)] }

/-- One sample at a channel's edge comparator, `back` samples before sample `sample` of the current tick (10 R218): a crossing of a direction
that `TRIG_EDGE` selects clears its armed bit, and the hysteresis sets it again. -/
def State.trigSample (s : State) (n sample back e0 e1 e2 : Nat) : State :=
  let edge := s.nat Obj.TRIG_EDGE n
  let level := s.nat Obj.TRIG_LEVEL n
  let hyst := s.nat Obj.TRIG_HYST n
  let c := s.trigCh n
  let up := edge != 1 && c.armedR && decide (e1 < level ∧ level ≤ e0)
  let down := edge != 0 && c.armedF && decide (level ≤ e1 ∧ e0 < level)
  let armedR := if edge = 1 then c.armedR else (c.armedR && !up) || decide (e0 + hyst < level)
  let armedF := if edge = 0 then c.armedF else (c.armedF && !down) || decide (level + hyst < e0)
  let s := s.setTrigCh n fun c => { c with armedR, armedF }
  if (up || down) && decide (back ≤ sample) then s.trigCross n (sample - back) up e0 e1 e2 else s

/-- The samples up to a crossing reach a channel's edge comparator, oldest first; those it has taken already are passed over, and before the
first sample known the envelope is that of zeros (10 R216-R221). Assumption log 83, DESIGN CHOICE. -/
def State.trigCrossing (s : State) (n : Nat) (x : CrossingIn) : State :=
  if !Mode.record s.mode || !s.on Obj.TRIG_ENABLE n || !s.converterRuns n || !s.inService n then s else
    let a := s.absSample x.sample + 1
    let fresh := Nat.min (a - (s.trigCh n).seen) (Nat.max 1 (x.lin.length - 63))
    let h := trigSet (holed (s.trigHoles n) (slice (s.liveBlob Obj.TRIG_FILTER_SHADOW (n / 16)) 0 512)) (s.nat Obj.TRIG_FILTER_SEL n)
    let es := trigEnvelope trigQs (trigFilter h x.lin)
    let s := (List.range fresh).reverse.foldl (fun s j =>
      s.trigSample n x.sample j (nth 0 es j) (nth 0 es (j + 1)) (nth 0 es (j + 2))) s
    s.setTrigCh n fun c => { c with seen := Nat.max c.seen a }

/-- `TRIG_CROSSING` (10 R218). -/
def execTrigCrossing (n : Ch) (x : CrossingIn) (s : State) : Out := .next (s.trigCrossing n x)

/-- `TRIG_REARM_END` (10 R227): the re-arm of a source ends within the current tick. -/
def execTrigRearmEnd (level : Fin 8) (elem : Nat) (s : State) : Out :=
  .next (
    let overdue (r : Nat) : Nat := if r ≤ (s.tick + 1) * 4096 then 0 else r
    match level.val with
    | 0 => s.setTrigCh elem fun c => { c with rearm := overdue c.rearm }
    | 1 | 2 | 3 | 4 => s.setCoin level elem fun c => { c with rearm := overdue c.rearm }
    | _ => s.setTrig fun t => { t with sources := smUpd 0 t.sources (512 * level.val + elem) overdue })

/-! ### Rate reduction and dead time (10 R228, R229) -/

/-- The prescale level changes (10 R229). -/
def State.prescaleTo (s : State) (e : Nat) : State :=
  let s := s.setVal Obj.TRIG_PRESCALE_LEVEL e
  (s.setTrig fun t => { t with count := 0, changed := s.clk.ord, quiet := 0 }).domRate

/-- The prescale level falls after the quiet ticks (10 R229). -/
def State.prescaleFall (s : State) : State :=
  let e := s.nat Obj.TRIG_PRESCALE_LEVEL
  if 0 < e ∧ s.nat Obj.TRIG_RR_RELEASE ≤ s.trig.quiet then s.prescaleTo (e - 1) else s

/-- The prescaler at the end of a tick (10 R229); `reported` is the framer's report of records or hits. -/
def State.prescaleStep (s : State) (reported : Bool) : State :=
  let n := s.candsUsed
  let e := s.nat Obj.TRIG_PRESCALE_LEVEL
  let calm := decide (n ≤ 4096) && !reported
  let q := if e = 0 then 0 else if calm then s.trig.quiet + 1 else 0
  let s := if q = s.trig.quiet then s else s.setTrig fun t => { t with quiet := q }
  if (decide (6144 < n) || reported) && decide (e < 10) && decide (s.trig.changed + s.nat Obj.TRIG_RR_STEP ≤ s.clk.ord) then s.prescaleTo (e + 1)
  else s.prescaleFall

/-- `TRIG_RR_RELEASE` (10 R229). -/
def execTrigRrRelease (s : State) : Out := .next s.prescaleFall

/-- The length of the union of intervals that lie before a time, given in order of their begins. -/
def unionBefore (stop : Nat) : Nat → List (Nat × Nat) → Nat
  | _, [] => 0
  | done, (a, b) :: r =>
    let lo := Nat.max a done
    let hi := Nat.min b stop
    (hi - lo) + unionBefore stop (Nat.max done hi) r

/-- The dead time of the second that ends at a time is stored and added (10 R228). -/
def State.deadStore (s : State) (now : Nat) : State :=
  let ivs := s.trig.dead ++ (match s.trig.fullFrom with | some f => [(f, now)] | none => [])
  let n := s.trig.deadBank + unionBefore now 0 (ivs.mergeSort fun a b => decide (a.1 ≤ b.1))
  let s := s.setTrig fun t => { t with
    deadBank := 0
    dead := (t.dead.filter fun i => decide (now < i.2)).map fun i => (Nat.max now i.1, i.2)
    fullFrom := t.fullFrom.map fun _ => now }
  (s.setVal Obj.TRIG_DEAD_TU n).inc Obj.TRIG_DEAD_TU_TOTAL (n := n)

/-- Kloif time steps from `old` to `new` at a time set (02 R50): what is still to come of a re-arm, a dead interval and a closed array window
keeps its length, and the dead time that has passed is kept for the second's store (10 R227, R228, R234). -/
def State.trigStep (s : State) (old new : Nat) : State :=
  let move (unit r : Nat) : Nat := if r = 0 then 0 else r * unit + new - old
  let sample (r : Nat) : Nat := if r * 128 ≤ old then 0 else (move 128 r) / 128
  let ivs := s.trig.dead ++ (match s.trig.fullFrom with | some f => [(f, old)] | none => [])
  let n := unionBefore old 0 (ivs.mergeSort fun a b => decide (a.1 ≤ b.1))
  s.setTrig fun t => { t with
    chans := smEach {} (fun _ (x : TrigCh) => { x with rearm := sample x.rearm }) t.chans
    coins := smEach {} (fun _ (x : CoinSt) => { x with rearm := sample x.rearm }) t.coins
    sources := smEach 0 (fun _ (r : Nat) => sample r) t.sources
    deadBank := t.deadBank + n
    dead := (t.dead.filter fun i => decide (old < i.2)).map fun i => (move 1 (Nat.max old i.1), move 1 i.2)
    fullFrom := t.fullFrom.map fun _ => new
    closedTo := t.closedTo.map (move 1)
    trgiLast := none }

/-! ### Modes, resets, the wired output (10 R215, R238, R241) -/

/-- Triggers at a mode change: outside the record modes nothing is open and `TRGO` rests (10 R215). -/
def State.trigMode (s : State) (m : Int) : State :=
  if Mode.record m then s else
    s.setTrig fun t => { t with
      coins := smEach {} (fun _ (x : CoinSt) => { x with win := none, held := [] }) t.coins
      flight := [], arrT0 := none, joined := [], held := [], trgo := false, pulses := [] }

/-- A channel's first 64 samples from this boundary on are warming (10 R220). -/
def State.trigWarming (s : State) (n : Nat) : State := s.setTrigCh n fun c => { c with warmTo := s.absSample 64 }

/-- A channel soft reset: both armed bits set, the re-arm ended (10 R241), and the first 64 samples warm (R220). -/
def State.trigChReset (s : State) (n : Nat) : State :=
  (s.setTrigCh n fun c => { c with armedR := true, armedF := true, rearm := 0 }).trigWarming n

/-- Both armed bits of a channel set, as by any reset that reaches it (10 R218). -/
def State.trigArm (s : State) (n : Nat) : State := s.setTrigCh n fun c => { c with armedR := true, armedF := true }

/-- A region's windows, and those of its clusters, are discarded (10 R241). -/
def State.trigRgReset (s : State) (g : Nat) : State :=
  let drop (s : State) (lvl e : Nat) : State := s.setCoin lvl e fun x => { x with win := none, held := [] }
  ((List.range 4).foldl (fun s i => drop s 1 (4 * g + i)) (drop s 2 g)) |> fun s => drop s 3 (g / 2)

/-- `TRGO_PULSE_START` (10 R238): the first waiting pulse begins within the current tick. -/
def execTrgoPulseStart (s : State) : Out :=
  .next (match s.trig.pulses with
    | p :: _ => if Mode.record s.mode ∧ p.1 < (s.tick + 1) * 4096 then s.setTrig fun t => { t with trgo := true } else s
    | [] => s)

/-- `TRGO_PULSE_END` (10 R238). -/
def execTrgoPulseEnd (s : State) : Out :=
  .next (match s.trig.pulses with
    | p :: r => if s.trig.trgo ∧ p.2 < (s.tick + 1) * 4096 then s.setTrig fun t => { t with trgo := false, pulses := r } else s
    | [] => s)

end Sys2Proof.Machine
end

