-- ==== Sys2Proof/Machine/Tdc.lean ====
section
/-! DEFINITION. Time stamping, calibration of the converters, hits, intervals and frequency (14). -/

namespace Sys2Proof.Machine

/-- A TDC's state. -/
def State.tdcOf (s : State) (t : Nat) : TdcSt := smGet {} s.tdc.tdcs t

/-- The state with a TDC's state changed. -/
def State.setTdc (s : State) (t : Nat) (f : TdcSt → TdcSt) : State :=
  { s with tdc := { s.tdc with tdcs := smUpd {} s.tdc.tdcs t f } }

/-- The die of a TDC: 8 is the concentrator (14 R310, R317). -/
def tdcDie (t : Nat) : Nat := if t < 256 then t / 32 else 8

/-- The TDCs of a die. -/
def tdcsOfDie (d : Nat) : List Nat := if d < 8 then (List.range 32).map (32 * d + ·) else (List.range 17).map (256 + ·)

/-- Whether a TDC's input is in service. -/
def State.tdcServed (s : State) (t : Nat) : Bool := decide (256 ≤ t) || s.inService t

/-- Whether a TDC stamps the edges of its discriminator or pin in the mode in force (14 R306). -/
def State.tdcRuns (s : State) (t : Nat) : Bool :=
  if t < 256 then Mode.hits s.mode && s.inService t && s.on Obj.TDC_ENABLE t
  else if t < 272 then Mode.xt s.mode && s.on Obj.TDC_ENABLE t
  else Mode.ppsTdc s.mode

/-- The correctly rounded binary32 square root of a fraction (00 R9). -/
def f32SqrtRat (n d : Nat) : Nat :=
  let v := n * 2 ^ 400 / d
  let r := isqrt v
  f32OfRat ((2 * r + (if r * r = v ∧ v * d = n * 2 ^ 400 then 0 else 1) : Nat) : Int) (2 ^ 201)

/-! ### Calibration (14 R310-R314) -/

/-- The edges of a full histogram. -/
def histoFull : Nat := 2 ^ 20

/-- The positions of a histogram (14 R313). -/
def tdcPositions (h : SMap Nat) : List Nat :=
  ((List.range 64).foldl (fun (a : Nat × List Nat) j =>
    let w := smGet 0 h j
    (a.1 + w, a.2 ++ [(2 * (16384 * a.1 + 8192 * w) + histoFull) / (2 * histoFull)])) (0, [])).2

/-- A full histogram gives a table, or is rejected; it restarts either way (14 R313). -/
def State.calUpdate (s : State) (t : Nat) : State :=
  if s.val Obj.TDC_CAL_HITS t < histoFull then s else
    let h := (s.tdcOf t).histo
    let fits := (List.range 64).all fun j => decide (histoFull / 256 ≤ smGet 0 h j ∧ smGet 0 h j ≤ histoFull / 32)
    let cubes := (List.range 64).foldl (fun a j => a + smGet 0 h j ^ 3) 0
    let s := s.setVal Obj.TDC_CAL_HITS 0 t
    if fits then s.setTdc t fun x => { x with histo := [], newTable := some (tdcPositions h), newRms := f32SqrtRat cubes (768 * 2 ^ 42) }
    else (s.setTdc t fun x => { x with histo := [] }).inc Obj.TDC_CAL_REJECT_COUNT t

/-- A stamped edge's fine code enters the histogram (14 R312, R313). -/
def State.tdcCollect (s : State) (t code : Nat) : State :=
  let hold := s.val Obj.TDC_CAL_MODE t == 1
  let stopped := hold && (s.val Obj.TDC_CAL_STATE t == 2 || s.mode != Mode.CALIBRATE)
  if !Mode.tdcLoops s.mode || !s.on Obj.TDC_DLL_LOCK (tdcDie t) || stopped then s else
    let s := s.calUpdate t
    (s.setVal Obj.TDC_CAL_HITS (s.val Obj.TDC_CAL_HITS t + 1) t).setTdc t fun x => { x with histo := smUpd 0 x.histo code (· + 1) }

/-- `TDC_CAL_UPDATE` (14 R313). -/
def execTdcCalUpdate (t : TdcId) (s : State) : Out := .next (s.calUpdate t)

/-- The new positions become the table at a boundary (14 R313, R314). -/
def State.tdcNewTable (s : State) (t : Nat) : State :=
  match (s.tdcOf t).newTable with
  | none => s
  | some p =>
    let rms := (s.tdcOf t).newRms
    let s := (s.setBlob Obj.TDC_CAL_TABLE (p.flatMap (leBytes 2)) t).inc Obj.TDC_CAL_GEN t
    let s := (s.setVal Obj.TDC_CAL_RMS rms t).setVal Obj.TDC_CAL_STATE 2 t
    s.setTdc t fun x => { x with newTable := none }

/-- A TDC's calibration state changes with its die's loop; the histogram is cleared (14 R314). -/
def State.tdcTo (s : State) (v : Int) (t : Nat) : State :=
  ((s.setVal Obj.TDC_CAL_STATE v t).setVal Obj.TDC_CAL_HITS 0 t).setTdc t fun x => { x with histo := [], newTable := none }

/-- Whether the loop of a die may run (14 R306, R310). -/
def State.dllRuns (s : State) (d : Nat) : Bool :=
  s.on Obj.PLL_LOCK d && (if d < 8 then Mode.tdcLoops s.mode && !s.dieOff d else Mode.ppsTdc s.mode)

/-- Whether a loop that runs has been in band for 256 whole ticks in a row (14 R310). -/
def State.dllInBand (s : State) (d : Nat) : Bool :=
  let f := smGet 0 s.tdc.loops d
  s.dllRuns d && f != 0 && decide (f + 255 ≤ s.clk.ord)

/-- The loops at a boundary: one that runs counts its ticks from its first whole tick (14 R310). -/
def State.dllsBegin (s : State) : State :=
  (List.range 9).foldl (fun s d =>
    let f := smGet 0 s.tdc.loops d
    let f' := if !s.dllRuns d then 0 else if f = 0 then s.clk.ord + 1 else f
    if f' = f then s else { s with tdc := { s.tdc with loops := smPut 0 s.tdc.loops d f' } }) s

/-- A loop reports lock (14 R310, R314). -/
def State.dllLock (s : State) (d : Nat) : State :=
  if !s.dllInBand d || s.on Obj.TDC_DLL_LOCK d then s else
    (tdcsOfDie d).foldl (State.tdcTo · 1) (s.setVal Obj.TDC_DLL_LOCK 1 d)

/-- A loop stops, or leaves its band, and is in band from the next boundary at the earliest; lock is lost (14 R310, R314). -/
def State.dllDrop (s : State) (d : Nat) (counted : Bool) : State :=
  let s : State := { s with tdc := { s.tdc with loops := smPut 0 s.tdc.loops d 0 } }
  if !s.on Obj.TDC_DLL_LOCK d then s else
    let s := s.setVal Obj.TDC_DLL_LOCK 0 d
    let s := if counted then s.inc Obj.TDC_DLL_UNLOCK_COUNT d else s
    (tdcsOfDie d).foldl (State.tdcTo · 0) s

/-- `TDC_DLL_LOCK` (14 R310). -/
def execTdcDllLock (d : Fin 9) (s : State) : Out := .next (s.dllLock d)

/-- `TDC_DLL_UNLOCK` (14 R310). -/
def execTdcDllUnlock (d : Fin 9) (s : State) : Out := .next (s.dllDrop d true)

/-! ### Hits (14 R316-R319) -/

/-- The hit word (14 R318). -/
def hitWord (t : Nat) (e : Edge) (lost : Bool) : BitVec 64 :=
  let b (c : Bool) (i : Nat) : Nat := if c then 2 ^ i else 0
  BitVec.ofNat 64 (toTwos 40 e.stamp * 2 ^ 24 + t * 2 ^ 15 + (if e.rising then 1 else 2) * 2 ^ 13 +
    b e.uncal 12 + b e.unlocked 11 + b e.blank 10 + b lost 9)

/-- The tick a stamp lies in. -/
def tickOfStamp (v : Int) : Nat := toTwos 72 v / 2 ^ 19

/-- An edge is lost at a time: the next hit of the TDC that is stamped later carries `LOST` (14 R308, R316, R319). One loss stands
for all where every hit to come is later. -/
def State.hitLost (s : State) (t : Nat) (v : Int) : State :=
  s.setTdc t fun x => { x with losses := if x.edges.isEmpty then [v] else x.losses ++ [v] }

/-- An edge is accepted: it enters the buffer of 64, or is discarded (14 R316). It carries `LOST` for the losses before it. Assumption
log 53, DEDUCED. -/
def State.storeHit (s : State) (t : Nat) (e : Edge) : State :=
  if !s.on Obj.HIT_OUT t then s
  else if 64 ≤ (s.tdcOf t).stored then (s.inc Obj.HIT_OVERFLOW_COUNT t).hitLost t e.at_
  else
    let after (v : Int) : Bool := decide (e.at_ ≤ v)
    let lost := (s.tdcOf t).losses.any fun v => !after v
    let w : HitWord := { src := t, tick := tickOfStamp e.stamp, ord := e.ord, word := hitWord t e lost }
    let s := (s.inc Obj.HIT_COUNT t).setTdc t fun x => { x with losses := x.losses.filter after, stored := x.stored + 1 }
    { s with tdc := { s.tdc with hits := s.tdc.hits ++ [w] } }

/-! ### Arming and intervals (14 R321-R325) -/

/-- Whether a stamp lies inside a gate, by the stamps of the gate's edges (14 R322); `sel` is the `TDC_GATE_SEL` in force at the edge
or at the start of the window (R330). -/
def State.insideGate (s : State) (sel : Nat) (stamp : Int) : Bool :=
  let g := 256 + sel % 16
  let last := (s.tdcOf g).levels.foldl (fun (b : Option (Int × Bool)) v =>
    if v.1 ≤ stamp ∧ (match b with | some w => decide (w.1 ≤ v.1) | none => true) = true then some v else b) none
  s.on Obj.TDC_ENABLE g && (match last with | some v => v.2 != bitOf sel 7 | none => false)

/-- The rounded difference of a stop and a start (14 R324). -/
def roundedD (stop start : Int) : Int := if (stop - start).natAbs < 256 then 0 else divAway (stop - start) 256

/-- The interval word (14 R324). -/
def intervalWord (t : Nat) (x : StartEdge) (stop : Option (Int × Edge)) : BitVec 96 :=
  let st := match stop with | none => 2 | some (_, e) => if (e.s8 - x.s8).natAbs < 256 then 1 else 0
  let uncal := x.uncal || (match stop with | some (_, e) => e.uncal | none => false)
  let unl := x.unlocked || (match stop with | some (_, e) => e.unlocked | none => false)
  BitVec.ofNat 96 (toTwos 40 x.stamp * 2 ^ 56 + t * 2 ^ 47 + x.src * 2 ^ 38 + st * 2 ^ 36 + (if uncal then 2 ^ 35 else 0) +
    (if unl then 2 ^ 34 else 0) + toTwos 32 (match stop with | some (d, _) => d | none => 0))

/-- A start's window is settled: its interval word, its counts, and the edges inside it as hits, of those the concentrator has
received, which leave their die in the tick after the edge (14 R316, R323-R325). -/
def State.settleStart (s : State) (t : Nat) (x : StartEdge) : State :=
  let here := (s.tdcOf t).edges.filter fun e => decide (e.ord < s.clk.ord)
  let ds := here.map fun e => (roundedD e.s8 x.s8, e)
  let within (p : Int × Edge) : Bool :=
    decide (x.lo ≤ p.1 ∧ p.1 ≤ x.hi) && (x.arm != 3 || s.insideGate x.gate p.2.at_)
  let ins := ds.filter within
  let best := ins.foldl (fun (b : Option (Int × Edge)) p =>
    match b with | none => some p | some q => if p.1 < q.1 then some p else some q) none
  let early := if x.lo < 0 then 0 else (ds.filter fun p => decide (-(x.hi - x.lo) ≤ p.1 ∧ p.1 ≤ -1)).length
  let s := if early = 0 then s else s.inc Obj.EARLY_STOP_COUNT t (n := early)
  let s := match best with | none => s.inc Obj.NO_STOP_COUNT t | some _ => s
  let w := intervalWord t x best
  let s := { s with tdc := { s.tdc with intervals := s.tdc.intervals ++ [(t, tickOfStamp x.stamp, w)] } }
  let fresh := (ins.filter fun p => !p.2.decided).map fun p => p.2
  let s := fresh.foldl (fun s e => s.storeHit t e) s
  s.setTdc t fun y => { y with edges := y.edges.map fun e => if fresh.contains e then { e with decided := true } else e }

/-- The offset of a TDC in TU; the PPS converter has none. -/
def State.tdcOffset (s : State) (t : Nat) : Int := if t < 272 then s.val Obj.TDC_OFFSET t else 0

/-- Whether a start can be settled: the concentrator has received every edge stamped up to the end of its window, in a tick after
the edge's own, or the 36 ticks run out at this tick's end (14 R323). -/
def State.startDue (s : State) (t : Nat) (x : StartEdge) : Bool :=
  decide (x.ord < s.clk.ord) && decide (x.at_ + x.hi + s.tdcOffset t + 1 < ((s.clk.ord * 2 ^ 19 : Nat) : Int) ∨ x.ord + 35 ≤ s.clk.ord)

/-- Settles the starts whose windows are complete (14 R323). -/
def State.startsSettle (s : State) (t : Nat) : State :=
  let due (x : StartEdge) : Bool := s.startDue t x
  let ready := (s.tdcOf t).starts.filter due
  if ready.isEmpty then s else
    let s := ready.foldl (fun s x => s.settleStart t x) s
    s.setTdc t fun x => { x with starts := x.starts.filter fun y => !due y }

/-- Decides the edges of a gated TDC whose gate is known up to them (14 R321, R322); `now` is a time from reset up to which the gate's
edges are known. -/
def State.gatesSettle (s : State) (t now : Nat) : State :=
  let known (e : Edge) : Bool := !e.decided && e.arm == 1 && decide (e.at_ + s.tdcOffset (256 + e.gate % 16) + 1 < (now : Int))
  let fresh := (s.tdcOf t).edges.filter known
  if fresh.isEmpty then s else
    let s := fresh.foldl (fun s e => if s.insideGate e.gate e.at_ then s.storeHit t e else s.inc Obj.TDC_UNARMED_COUNT t) s
    s.setTdc t fun x => { x with edges := x.edges.map fun e => if fresh.contains e then { e with decided := true } else e }

/-- Drops the edges that no start, open or still to come, can take; one that was never accepted is counted (14 R321, R323). -/
def State.edgesDrop (s : State) (t now : Nat) : State :=
  let lo := s.val Obj.TDC_WIN_LO t
  let hi := s.val Obj.TDC_WIN_HI t
  let starts := (s.tdcOf t).starts
  let past (e : Edge) : Bool := s.nat Obj.TDC_ARM t < 2 ||
    decide (e.at_ + Max.max (-lo) (hi - lo) + 1 + s.tdcOffset (s.nat Obj.TDC_START_SEL t) < (now : Int))
  let isOver (e : Edge) : Bool := (e.decided || decide (2 ≤ e.arm)) && past e &&
    !starts.any fun x => decide (x.at_ + x.lo - (x.hi - x.lo) - 1 ≤ e.at_ + x.hi ∧ e.at_ ≤ x.at_ + x.hi + 1)
  let done := (s.tdcOf t).edges.filter isOver
  if done.isEmpty then s else
    let s := done.foldl (fun s e => if e.decided then s else s.inc Obj.TDC_UNARMED_COUNT t) s
    s.setTdc t fun x => { x with edges := x.edges.filter fun e => !isOver e }

/-- `TDC_START_SETTLE` (14 R323): the windows of a TDC that are complete. -/
def execTdcStartSettle (t : TdcId) (s : State) : Out := .next (s.startsSettle t)

/-! ### Frequency (14 R326-R329) -/

/-- A gate that begins with a tick, under the settings in force (14 R326, R330): rising edges unless `TDC_EDGE` is falling. -/
def State.freqGate (s : State) (t first : Nat) : Gate :=
  { first, g := s.nat Obj.FREQ_GATE t, d := s.nat Obj.FREQ_DECIM t, rising := s.val Obj.TDC_EDGE t != 1 }

/-- Whether a direction is the one the gate in progress measures (14 R326). -/
def State.freqDir (s : State) (t : Nat) (rising : Bool) : Bool :=
  match (s.tdcOf t).gate with
  | some g => g.rising == rising
  | none => false

/-- Whether a gate covers a tick. -/
def Gate.covers (g : Gate) (tick : Nat) : Bool := decide (g.first ≤ tick ∧ tick < g.first + g.g)

/-- A gate with its last stamp is complete; it waits for its publication, or counts as not ready; the next begins
(14 R326, R329). -/
def State.freqGateEnd (s : State) (t : Nat) : State :=
  match (s.tdcOf t).gate with
  | none => s
  | some g =>
    if g.covers s.tick then s else
      let s := if g.n < 8 then (s.inc Obj.FREQ_NOT_READY_COUNT t).setTdc t fun x => { x with notReady := true }
        else s.setTdc t fun x => { x with done := some { g with endOrd := s.clk.ord } }
      let nx := s.freqGate t (g.first + g.g)
      s.setTdc t fun x => { x with gate := if s.on Obj.FREQ_ENABLE t && nx.covers s.tick then some nx else none }

/-- `FREQ_GATE_END` (14 R326). -/
def execFreqGateEnd (t : TdcId) (s : State) : Out := .next (s.freqGateEnd t)

/-- An edge of the measured direction was lost (14 R326). -/
def State.freqLost (s : State) (t : Nat) (rising : Bool) : State :=
  let s := s.freqGateEnd t
  if !s.freqDir t rising then s else s.setTdc t fun x => { x with gate := x.gate.map fun g => { g with lost := true } }

/-- A gate with an edge more (14 R326, R327). -/
def Gate.edge (g : Gate) (e : Edge) : Gate :=
  let g' := { g with seen := g.seen + 1 }
  if g.seen % g.d ≠ 0 then g'
  else if 2 ^ 24 ≤ g.n then { g' with capped := true }
  else
    let s0 := if g.n = 0 then e.s8 else g.s0
    let y := e.s8 - s0
    { g' with n := g.n + 1, s0, sy := g.sy + y, sxy := g.sxy + g.n * y, syy := g.syy + y * y
              uncal := g.uncal || e.uncal, unlocked := g.unlocked || e.unlocked, inTick := true }

/-- A stamped edge at the frequency unit (14 R326). -/
def State.freqEdge (s : State) (t : Nat) (e : Edge) : State :=
  let s := s.freqGateEnd t
  if !s.freqDir t e.rising then s else s.setTdc t fun x => { x with gate := x.gate.map fun g => g.edge e }

/-- The frequency in µHz and the residual of a gate (14 R327); none where the slope is not positive. Assumption log 54, DESIGN CHOICE. -/
def Gate.result (g : Gate) : Option (Nat × Nat) :=
  let n : Int := g.n
  let sx : Int := n * (n - 1) / 2
  let sxx : Int := (n - 1) * n * (2 * n - 1) / 6
  let dn := n * sxx - sx * sx
  let bn := n * g.sxy - sx * g.sy
  if bn ≤ 0 ∨ dn ≤ 0 then none else
    let freq := divAway (g.d * 131072000000 * 256 * 1000000 * dn) bn.toNat
    let num := g.syy * n * dn - (g.sy * dn - bn * sx) * g.sy - bn * n * g.sxy
    some (freq.toNat % 2 ^ 64, f32SqrtRat num.toNat (n * n * dn).toNat |> fun r => f32OfRat (f32Num r) (2 ^ 149 * 256))

/-- The result record (14 R328). -/
def Gate.record (g : Gate) (freq resid gen : Nat) : List Byte :=
  let b (c : Bool) (i : Nat) : Nat := if c then 2 ^ i else 0
  leBytes 4 (b g.capped 4 + b g.lost 3 + b g.uncal 2 + b g.unlocked 1) ++ leBytes 4 g.g ++ leBytes 2 gen ++
    leBytes 6 g.first ++ leBytes 4 g.n ++ leBytes 4 resid ++ leBytes 8 freq

/-- VC6 words of a source: kept and charged, or dropped and counted (16 R382). -/
def State.vc6Pay (s : State) (bytes words : Nat) : Bool × State :=
  if s.covers 3 bytes then (true, s.chargeBucket 3 bytes) else (false, (s.countDrops 4 words).reportExceeded 2)

/-- A finished gate is published, and sent on VC6 (14 R327; 16 R372). A slope that is not positive gives no stated value. Assumption log 54, DESIGN CHOICE. -/
def State.freqPublish (s : State) (t : Nat) : State :=
  match (s.tdcOf t).done with
  | none => s
  | some g =>
    let (v, s) := match g.result with
      | some v => (v, s)
      | none => let (f, s) := s.free (2 ^ 64); let (r, s) := s.free (2 ^ 31); ((f, r), s)
    let gen := (nextGen (leNat (slice (s.blob Obj.FREQ_RESULT t) 8 2) : Int)).toNat
    let rec_ := g.record v.1 v.2 gen
    let s := (s.setBlob Obj.FREQ_RESULT rec_ t).setTdc t fun x => { x with done := none, notReady := false }
    let (kept, s) := s.vc6Pay 32 1
    if kept then s.queueFrame 6 6 4 (productHeader g.first 0 t 0 1 0 ++ rec_) 0 1 else s

/-- `FREQ_RESULT_PUBLISH` (14 R327). -/
def execFreqResultPublish (t : TdcId) (s : State) : Out := .next (s.freqPublish t)

/-! ### Edges (14 R307-R309, R315, R320-R323) -/

/-- Whether an external input serves as a gate. -/
def State.servesAsGate (s : State) (x : Nat) : Bool :=
  (List.range 272).any fun t => s.nat Obj.TDC_ARM t % 2 == 1 && s.nat Obj.TDC_GATE_SEL t % 16 == x && s.on Obj.TDC_ENABLE t

/-- The edge is a start of every armed TDC that names its source (14 R323). -/
def State.startEdges (s : State) (src : Nat) (e : Edge) : State :=
  let armed := (List.range 272).filter fun t =>
    decide (2 ≤ s.nat Obj.TDC_ARM t) && s.nat Obj.TDC_START_SEL t == src && Mode.hits s.mode && s.tdcRuns t
  armed.foldl (fun s t =>
    let x : StartEdge := { s8 := e.s8, stamp := e.stamp, src, uncal := e.uncal, unlocked := e.unlocked
                           lo := s.val Obj.TDC_WIN_LO t, hi := s.val Obj.TDC_WIN_HI t, arm := s.nat Obj.TDC_ARM t
                           gate := s.nat Obj.TDC_GATE_SEL t, at_ := e.at_, ord := e.ord }
    s.setTdc t fun y => { y with starts := y.starts ++ [x] }) s

/-- An edge of a direction selected that is stamped, not lost (14 R315, R320-R323). An edge accepted at once is kept while a window
is open, which may take it as its stop (R330). Assumption log 53, DEDUCED. -/
def State.edgeStamped (s : State) (t : Nat) (e : Edge) : State :=
  let s := s.startEdges t e
  let s := if 256 ≤ t ∧ t < 272 ∧ Mode.record s.mode then
      let m : MemberTrig := { member := 8 + (t - 256), stamp := toTwos 72 e.stamp, level := 5, element := t - 256, members := 1
                              origin := t - 256, cond := Flag.when e.unlocked Flag.timeUnlocked, uncal := e.uncal }
      s.sourceTrigger 5 (t - 256) (s.arrivalAt 4 m) m
    else s
  if t = 272 ∨ !Mode.hits s.mode then s
  else
    let s := if e.arm = 0 then s.storeHit t e else s
    if e.arm = 0 ∧ (s.tdcOf t).starts.isEmpty then s
    else s.setTdc t fun x => { x with edges := x.edges ++ [{ e with decided := e.arm == 0 }] }

/-- Whether the output of a discriminator changes with a movement of its input to a voltage (14 R307): upwards through the threshold,
or downwards below the threshold less the hysteresis; the clamp of 03 R71 limits what it sees. The other inputs are digital. -/
def State.discMoves (s : State) (t : Nat) (v : TdcEdge) : Bool :=
  let uv := Max.max (-1600000) (Min.min 1600000 v.uv)
  let up := s.val Obj.DISC_THRESHOLD t
  if 256 ≤ t then true
  else if v.rising then !(s.tdcOf t).high && decide (up * 500000 < uv * 511)
  else (s.tdcOf t).high && decide (uv * 511 < (up - s.val Obj.DISC_HYST t) * 500000)

/-- The output of a discriminator after a movement of its input (14 R307). -/
def State.discMove (s : State) (t : Nat) (v : TdcEdge) : State :=
  if decide (t < 256) && s.discMoves t v then s.setTdc t fun x => { x with high := v.rising } else s

/-- The edge as stamped (14 R309, R315). -/
def State.stampOf (s : State) (t : Nat) (v : TdcEdge) (s8 : Int) (blank : Bool) : Edge :=
  let stamp := divAway s8 256
  { s8, stamp, at_ := stamp + (s.clk.ord * 2 ^ 19 : Nat) - (s.tick * 2 ^ 19 : Nat), ord := s.clk.ord
    arm := s.nat Obj.TDC_ARM t, gate := s.nat Obj.TDC_GATE_SEL t, rising := v.rising, uncal := s.val Obj.TDC_CAL_STATE t != 2
    unlocked := (s.infoAt 0).unlocked || (decide (t < 256) && !s.on Obj.PLL_LOCK (t / 32)), blank }

/-- An edge at a TDC that runs: it is stamped if its direction is selected, if its input serves as a gate, or if the frequency gate in
progress measures it (14 R307-R309, R322, R326, R330). An enabled external input keeps its edges for the gates it may serve as. -/
def State.tdcStamp (s : State) (t : Nat) (v : TdcEdge) : State :=
  let edge := s.nat Obj.TDC_EDGE t
  let selected := t == 272 || edge == 2 || (edge == 0) == v.rising
  let pin := decide (256 ≤ t ∧ t < 272)
  let p := leNat (slice (s.blob Obj.TDC_CAL_TABLE t) (2 * v.code.val) 2)
  let fine := 256 * (v.period.val * 64) + p
  let raw : Int := ((256 * (s.tick * 2 ^ 19) + fine : Nat) : Int)
  let at_ : Int := ((256 * (s.clk.ord * 2 ^ 19) + fine : Nat) : Int)
  let blanked := decide (t < 256) && s.blankedAt t (v.period.val / 2)
  let e := s.stampOf t v (raw - 256 * s.tdcOffset t) blanked
  let level (s : State) : State := if pin then s.setTdc t fun x => { x with levels := x.levels ++ [(e.at_, v.rising)] } else s
  if !selected && !(pin && s.servesAsGate (t - 256)) && !s.freqDir t v.rising then level s
  else if blanked && s.on Obj.BLANK_GATES_TDC t then
    ((s.inc Obj.BLANK_HIT_DROP_COUNT t).hitLost t e.at_).freqLost t v.rising
  else
    let close := match (s.tdcOf t).prev with | some q => decide (at_ - q < 158 * 256) | none => false
    let s := s.setTdc t fun x => { x with prev := some at_ }
    if close then ((s.inc Obj.PAIR_LOST_COUNT t).hitLost t e.at_).freqLost t v.rising
    else
      let s := level (s.tdcCollect t v.code)
      let s := if t < 272 then s.freqEdge t e else s
      if selected then s.edgeStamped t e else s

/-- A TDC sees an edge of its discriminator or pin, or in CALIBRATE of the internal source (14 R307-R312). -/
def State.tdcEdge (s : State) (t : Nat) (v : TdcEdge) : State :=
  if s.mode = Mode.CALIBRATE then (if s.tdcServed t then s.tdcCollect t v.code else s)
  else if !s.discMoves t v then s
  else
    let s := s.discMove t v
    if s.tdcRuns t then s.tdcStamp t v else s

/-- `TDC_EDGE` (14 R309). -/
def execTdcEdge (t : TdcId) (e : TdcEdge) (s : State) : Out := .next (s.tdcEdge t e)

/-! ### The boundary (14 R316, R319, R326; 16 R372, R376, R382) -/

/-- The stamps of a tick whose time proved not to be trusted carry `TIME_UNLOCKED` (02 R53). -/
def State.tdcUnlocked (s : State) (t : Nat) : State :=
  let ord := s.clk.ord
  s.setTdc t fun x => { x with
    edges := x.edges.map fun e => if e.ord = ord then { e with unlocked := true } else e
    gate := x.gate.map fun g => if g.inTick then { g with unlocked := true } else g }

/-- What a TDC keeps past the end of a tick: an empty buffer, and of the levels of a gate input those that may still be asked for. -/
def TdcSt.finish (x : TdcSt) (now : Int) (enabled : Bool) : TdcSt :=
  let old (v : Int × Bool) : Bool := decide (v.1 + 2 ^ 26 < now)
  { x with
    stored := 0, gate := x.gate.map fun g => { g with inTick := false }
    levels := if !enabled then [] else (x.levels.filter old).getLast?.toList ++ x.levels.filter fun v => !old v }

/-- The TDCs at the end of a tick: late marks of `TIME_UNLOCKED`, gates and windows decided, buffers emptied. -/
def State.tdcFinish (s : State) : State :=
  let ids := s.tdc.tdcs.map fun e => e.1
  let bad (t : Nat) : Bool :=
    if t < 256 then Flag.any (s.condAt t 0) Flag.timeUnlocked else (s.infoAt 0).unlocked
  let ended := ids.filter bad
  let s := ended.foldl State.tdcUnlocked s
  let late (y : StartEdge) : StartEdge := if y.ord == s.clk.ord && bad y.src then { y with unlocked := true } else y
  let s := ids.foldl (fun s t => s.setTdc t fun x => { x with starts := x.starts.map late }) s
  let mark (h : HitWord) : HitWord := if h.ord == s.clk.ord && bad h.src then { h with word := h.word ||| 0x800 } else h
  let s := { s with tdc := { s.tdc with hits := s.tdc.hits.map mark } }
  let now := (s.clk.ord + 1) * 2 ^ 19
  let s := ids.foldl (fun s t =>
    let s := (((s.freqGateEnd t).startsSettle t).gatesSettle t now).edgesDrop t now
    s.setTdc t fun x => x.finish now (s.on Obj.TDC_ENABLE t)) s
  let old := s.tdc.hits
  { s with tdc := { s.tdc with hits := [], hitsOld := s.tdc.hitsOld ++ old } }

/-- The VC6 words of one source: hits, crossings and intervals, with their ticks. -/
structure SrcWords where
  src   : Nat
  hits  : List (Nat × BitVec 64)
  cross : List (Nat × BitVec 64)
  ivals : List (Nat × BitVec 96)
deriving DecidableEq, Repr

/-- The bytes of a source's words. -/
def SrcWords.size (x : SrcWords) : Nat := 8 * x.hits.length + 8 * x.cross.length + 12 * x.ivals.length

/-- Frames words of one type by the tick they refer to (16 R372). -/
def State.frameWords (s : State) (type per : Nat) (dropped : List Nat) (words : List (Nat × List Byte)) : State :=
  let ticks := (words.map fun w => w.1).eraseDups.mergeSort
  ticks.foldl (fun s t =>
    let ws := (words.filter fun w => w.1 == t).map fun w => w.2
    let cs := chunks per (ws.length + 1) ws
    ((List.range cs.length).zip cs).foldl (fun s q =>
      let aux := (if q.1 + 1 = cs.length then 1 else 0) + (if dropped.contains t then 2 else 0)
      s.queueFrame 6 6 type (productHeader t 0 0 0 q.2.length aux ++ q.2.flatMap id) 0 q.2.length) s) s

/-- The next hit of a source carries `LOST` (14 R319): the first of those on their way, or the next one stored. -/
def State.nextHitLost (s : State) (t : Nat) : State :=
  let rec first : List HitWord → List HitWord
    | [] => []
    | h :: r => if h.src = t then { h with word := h.word ||| 0x200 } :: r else h :: first r
  if s.tdc.hitsOld.any fun h => h.src == t then { s with tdc := { s.tdc with hitsOld := first s.tdc.hitsOld } }
  else s.setTdc t fun x => { x with losses := 0 :: x.losses }

/-- Frames the hits and crossings stamped two ticks before and the intervals settled; whole sources are kept from a rotating start
while the allocation covers them (14 R316, R319; 16 R376, R382). `ready` holds the hits and crossings due. -/
def State.frameTiming (s : State) (hits : List HitWord) (cross : List (Nat × BitVec 64)) (old : TickInfo) : State :=
  let tick := old.tick
  let srcOf (w : BitVec 64) : Nat := w.toNat / 2 ^ 16 % 256
  let order := (List.range 273).map fun i => (s.tdc.rot + i) % 273
  let all := order.filterMap fun t =>
    let h := ((hits.filter fun h => h.src == t).map fun h => (h.tick, h.word)).mergeSort fun a b => decide (a.1 ≤ b.1)
    let c := cross.filter fun w => srcOf w.2 == t
    let i := (s.tdc.intervals.filter fun v => v.1 == t).map fun v => v.2
    if h.isEmpty && c.isEmpty && i.isEmpty then none else some ({ src := t, hits := h, cross := c, ivals := i } : SrcWords)
  let rec take : List SrcWords → Nat → List SrcWords
    | [], _ => []
    | x :: r, used => if s.covers 3 (used + x.size) then x :: take r (used + x.size) else []
  let kept := take all 0
  let lost := all.drop kept.length
  let s := s.chargeBucket 3 (kept.foldl (fun a x => a + x.size) 0)
  let s := { s with tdc := { s.tdc with intervals := [] } }
  let s := if lost.isEmpty then s else
    let n := lost.foldl (fun a x => a + x.hits.length + x.cross.length + x.ivals.length) 0
    let s := (s.countDrops 4 n).reportExceeded 2
    let s := lost.foldl (fun s x => if x.hits.isEmpty then s else
      (s.inc Obj.HIT_ALLOC_DROP_COUNT x.src (n := x.hits.length)).nextHitLost x.src) s
    match kept.getLast? with
    | some x => { s with tdc := { s.tdc with rot := (x.src + 1) % 273 } }
    | none => s
  let dropped (f : SrcWords → List Nat) : List Nat := lost.flatMap f
  let dh := dropped fun x => x.hits.map fun w => w.1
  let dc := dropped fun x => x.cross.map fun w => w.1
  let di := dropped fun x => x.ivals.map fun w => w.1
  let hw := kept.flatMap fun x => x.hits.map fun w => (w.1, leBytes 8 w.2.toNat)
  let s := s.frameWords 1 510 dh hw
  let s := if hw.any (fun w => w.1 == tick) then s
    else if old.hits then
      s.queueFrame 6 6 1 (productHeader tick 0 0 0 0 (1 + if dh.contains tick then 2 else 0)) 0 0
    else s
  let s := s.frameWords 2 510 dc (kept.flatMap fun x => x.cross.map fun w => (w.1, leBytes 8 w.2.toNat))
  s.frameWords 3 340 di (kept.flatMap fun x => x.ivals.map fun w => (w.1, leBytes 12 w.2.toNat))

/-- The TDCs at the boundary that begins a tick, its mode and settings in force: frames of the tick two before (`old`), new tables, published results, and gates that open. -/
def State.tdcBegin (s : State) (hits : List HitWord) (cross : List (Nat × BitVec 64)) (old : TickInfo) : State :=
  let s := s.frameTiming hits cross old
  let s := (s.tdc.tdcs.map fun e => e.1).foldl (fun s t =>
    let s := s.tdcNewTable t
    match (s.tdcOf t).done with
    | some g => if g.endOrd + 8 ≤ s.clk.ord then s.freqPublish t else s
    | none => s) s.dllsBegin
  if !Mode.hits s.mode then s else
    (List.range 272).foldl (fun s t =>
      if s.on Obj.FREQ_ENABLE t && s.tdcServed t && (s.tdcOf t).gate.isNone && s.tick % s.nat Obj.FREQ_GATE t == 0 then
        s.setTdc t fun x => { x with gate := some (s.freqGate t s.tick) }
      else s) s

/-! ### Settings, resets, modes (14 R306, R326, R330) -/

/-- A write of `FREQ_GATE` or `FREQ_DECIM` takes effect: the gate in progress is discarded, one that is complete is not (14 R326). -/
def State.freqDiscard (s : State) (t : Nat) : State := (s.freqGateEnd t).setTdc t fun x => { x with gate := none }

/-- A TDC's edges, windows and gate are discarded; its table and its histogram stay (14 R330). -/
def State.tdcReset (s : State) (t : Nat) : State :=
  let s := s.setTdc t fun x => { x with stored := 0, edges := [], starts := [], gate := none }
  { s with tdc := { s.tdc with hits := s.tdc.hits.filter fun h => h.src != t } }

/-- An input leaves service: its TDC stops, its pending windows hold no stop, and no frequency result is published (14, when things
meet; 01 R17). -/
def State.tdcAside (s : State) (t : Nat) : State := s.setTdc t fun x => { x with edges := [], gate := none, done := none }

/-- The TDCs at a mode change (14 R306, R310). -/
def State.tdcMode (s : State) (m : Int) : State :=
  let s := if Mode.tdcLoops m then s else (List.range 8).foldl (fun s d => s.dllDrop d false) s
  let s := if Mode.ppsTdc m then s else s.dllDrop 8 false
  if Mode.hits m then s else
    { s with tdc := { s.tdc with tdcs := smEach {} (fun _ (x : TdcSt) =>
        { x with stored := 0, edges := [], levels := if Mode.xt m then x.levels else [], starts := [], gate := none, done := none }) s.tdc.tdcs } }

end Sys2Proof.Machine
end

