-- ==== Sys2Proof/Machine/Modes.lean ====
section
/-! DEFINITION. Spectra periods that end, the modes, HALT and the fatal-error dump (05 R124-R126; 20 R480-R486; 21 R504-R508). -/

namespace Sys2Proof.Machine

/-! ### The end of a spectra period (05 R125, R126) -/

/-- Ends the period that runs in a region, with the length it has reached: the spectra of its inputs that were asked for and in
service at its last sampling tick, which is the tick before the current one; M_eff of every input; the period counted once for its first
tick and length. -/
def State.specEnd (s : State) (g : Nat) : State :=
  let x := s.rg g
  if !x.specOn then s else
    let ins := (List.range 16).map (16 * g + ·)
    let asked := ins.filter fun n => maskHas (s.blob Obj.SPEC_INPUT_MASK) n && !(s.infoAt 1).out.contains n
    let out := if x.specLen = 0 then [] else asked.map fun n => s.specOf n g
    let s := if x.specLen = 0 then s else ins.foldl (fun s n => s.setVal Obj.SPEC_LAST_M (s.inp n).mEff n) s
    let p := (x.specFirst, x.specLen)
    let s := if x.specLen = 0 || s.periods.contains p then s
      else ({ s with periods := (p :: s.periods).take 64 } : State).inc Obj.SPEC_PERIOD_COUNT
    let s := ins.foldl State.specClear s
    { s.setRg g fun y => { y with specOn := false, specLen := 0, specLate := false } with
      win := { s.win with waiting := s.win.waiting ++ out } }

/-- `SPECTRA_PERIOD_END` (05 R125): the period of a region is complete. -/
def execSpectraPeriodEnd (g : Rg) (s : State) : Out :=
  .next (if s.nat Obj.SPEC_INT_TICKS ≤ (s.rg g).specLen then s.specEnd g else s)

/-- A region restarts its filter history (05 R120): its spectra period ends early (05 R126). -/
def State.regionRestart (s : State) (g : Nat) : State :=
  (List.range 16).foldl (fun s i => s.trigWarming (16 * g + i)) ((s.specEnd g).regionHistory g)

/-! ### Mode changes (20 R481-R486) -/

/-- The fields of a mode request (20 R482). -/
def reqMode (w : Nat) : Nat := w / 2 ^ 60
/-- The tick named. -/
def reqTick (w : Nat) : Nat := w % 2 ^ 53

/-- Whether a change is allowed on request (20 R481). Assumption log 65, DEDUCED. -/
def modeMayChange (a b : Nat) : Bool :=
  match a with
  | 1 => b == 2 || b == 10
  | 2 => b == 1 || decide (3 ≤ b ∧ b ≤ 9)
  | 10 => b == 1
  | _ => decide (3 ≤ a ∧ a ≤ 9) && decide (1 ≤ b ∧ b ≤ 9)

/-- Whether every reader die is set aside (01 R20). -/
def State.allDiesOut (s : State) : Bool := (List.range 8).all s.dieOut

/-- Why a mode request is refused (20 R483); `late` when it comes after the cut-off, `again` for the check at the cut-off. -/
def State.modeRefusal (s : State) (w : Nat) (late again : Bool) : Option Nat :=
  let m := reqMode w
  let t := reqTick w
  let now := s.mode.toNat
  if w / 2 ^ 53 % 2 ^ 7 ≠ 0 ∨ m = 0 ∨ 11 ≤ m then some St.RANGE
  else if !modeMayChange now m then some St.MODE
  else if t ≠ 0 ∧ (t ≤ s.tick ∨ (t = s.tick + 1 ∧ late = true)) then some St.RANGE
  else if !again && s.on Obj.MODE_PENDING then some St.BUSY
  else if s.clk.armed.isSome && (now == 1 || now == 2) then some St.MODE
  else if 2 ≤ m ∧ m ≤ 9 ∧ s.allDiesOut then some St.QUARANTINED
  else if 2 ≤ m ∧ (!s.on Obj.PLL_LOCK 8 || (List.range 8).any fun d => !s.dieOut d && !s.on Obj.PLL_LOCK d) then some St.BUSY
  else if now = 10 ∧ s.nat Obj.SELFTEST_RUNNING ≠ 0xFF then some St.BUSY
  else none

/-- Records a refusal or cancellation (20 R484). -/
def State.modeRecord (s : State) (m status : Nat) : State := s.setVal Obj.MODE_LAST_REFUSAL (m * 256 + status : Nat)

/-- An accepted request (20 R482): its tick resolved. -/
def State.modeAccept (s : State) (w action : Nat) (late : Bool) : State :=
  let t := if reqTick w = 0 then (s.tick + (if late then 2 else 1)) % 2 ^ 53 else reqTick w
  let s := s.setVal Obj.MODE_PENDING (reqMode w * 2 ^ 60 + t : Nat)
  { s with acts := { s.acts with mode := action } }

/-- A pending request is cancelled with a status (20 R484). -/
def State.modeFail (s : State) (status : Nat) (event : Bool) : State :=
  let w := s.nat Obj.MODE_PENDING
  if w = 0 then s else
    let a := s.acts.mode
    let s := ((s.setVal Obj.MODE_PENDING 0).modeRecord (reqMode w) status).actionDone a status
    let s := { s with acts := { s.acts with mode := 0 } }
    if event then s.raise 0x0006 0 0 (leBytes 1 (reqMode w) ++ leBytes 1 status) else s

/-- The record of the current tick changed. -/
def State.setInfo (s : State) (f : TickInfo → TickInfo) : State :=
  { s with clk := { s.clk with info := match s.clk.info with | [] => [f {}] | i :: r => f i :: r } }

/-- A mode takes effect now (20 R485, R486): what stops and starts at the boundary itself. -/
def State.changeMode (s : State) (m : Int) : State :=
  let old := s.mode
  let s := if Mode.spectra old && !Mode.spectra m then (List.range 16).foldl State.specEnd s else s
  let s := ((s.setVal Obj.MODE_NOW m).setVal Obj.MODE_LAST_CHANGE s.tick).inc Obj.MODE_CHANGE_COUNT
  let s := s.raise 0x0005 0 0 (leInt 1 old ++ leInt 1 m)
  let s := s.setInfo fun i => { i with mode := m }
  let s := (((s.engMode m).trigMode m).candsMode m).tdcMode m
  let s := if m = Mode.HALT then s.histHalt else s.histMode m
  let s := if Mode.suppression m then s.preValidClear else s
  let s := if Mode.frontEnd m && !Mode.frontEnd old then
      (List.range 16).foldl (fun s g => if s.regionRuns g then s.regionRestart g else s) s
    else s
  if Mode.housekeeping m then s.hkWake else (List.range 9).foldl State.hkStop s

/-- The requested mode change of a boundary (20 R482, R485). With every reader die set aside, SAFE prevails over a request for modes 2
to 9 (20 R486). -/
def State.modeApply (s : State) : State :=
  let w := s.nat Obj.MODE_PENDING
  if w = 0 ∨ s.tick < reqTick w then s
  else if 2 ≤ reqMode w ∧ reqMode w ≤ 9 ∧ (List.range 8).all s.dieOff = true then s.modeFail St.QUARANTINED true
  else
    let a := s.acts.mode
    let s := (s.setVal Obj.MODE_PENDING 0).changeMode (reqMode w)
    { s.actionDone a St.OK with acts := { s.acts with mode := 0 } }

/-- The check at the cut-off of the tick before the change (20 R484). -/
def State.modeCutoff (s : State) : State :=
  let w := s.nat Obj.MODE_PENDING
  if w = 0 ∨ reqTick w ≠ (s.tick + 1) % 2 ^ 53 then s else
    match s.modeRefusal w false true with
    | some st => s.modeFail st true
    | none => s

/-- `MODE_CUTOFF_CHECK` (20 R484). -/
def execModeCutoffCheck (s : State) : Out := .next s.modeCutoff

/-- `MODE_CHANGE_APPLY` (20 R485). -/
def execModeChangeApply (s : State) : Out := .next s.modeApply

/-! ### HALT (20 R486; 21 R504) -/

/-- HALT takes effect at once; a pending request is cancelled (20 R486). -/
def State.halt (s : State) : State :=
  if s.mode = Mode.HALT then s else
    let s := (s.modeFail St.MODE true).changeMode Mode.HALT
    { s with boot := { s.boot with haltOrd := s.clk.ord } }

/-- The fault codes that say that a DRAM stack is lost (21 R504). -/
def stackLost (code : Nat) : Bool := code == 0x3E05 || code == 0x3E07 || code == 0x3031

/-- A dump begins, unless one is being written or one is kept (21 R504, R508). -/
def State.dumpBegin (s : State) (code : Nat) (before : Int) : State :=
  let held := s.val Obj.DUMP_STATE == 2 || s.val Obj.DUMP_STATE == 3
  if s.flt.dumping || (s.on Obj.DUMP_KEEP_FIRST && held && !s.flt.dumpAcked) then s else
    let s := (s.setVal Obj.DUMP_STATE 1).setVal Obj.DUMP_FAULT code
    let f0 := s.flt
    { s with flt := { s.flt with
        dumping := true, dumpAcked := false, dumpDram := false
        dumpCopy := f0.dumpCopy && !(stackLost code), dumpPart := f0.dumpPart || stackLost code, dumpTick := s.tick, dumpMode := before.toNat
        dumpSeq := if s.flt.mramDead then 0 else s.nat Obj.FAULT_SEQ, dumpLost := stackLost code
        dumpNoMram := code == 0x3E08 } }

/-- A fatal fault (21 R491, R504): HALT, the fault logged with the mode it found, the pending counts, and the dump. -/
def State.fatal (s : State) (code kind num : Nat) (arg : List Byte := []) : State :=
  let before := s.mode
  let s := s.halt
  let s : State := if code = 0x3E08 then { s with flt := { s.flt with mramDead := true } } else s
  let now := s.mode
  let s := ((s.setVal Obj.MODE_NOW before).logFault code kind num arg).setVal Obj.MODE_NOW now
  s.flushSpans.dumpBegin code before

/-- `FATAL_FAULT` (21 R504): a fault of the table of 21 R492 whose class is fatal. -/
def execFatalFault (code : BitVec 16) (kind num : Nat) (s : State) : Out :=
  let known := [0x3030, 0x3031, 0x3E05, 0x3E06, 0x3E07, 0x3E08, 0x3F10, 0x3F11]
  .next (if s.boot.step ≠ 0 ∧ known.contains code.toNat then s.fatal code.toNat kind num else s)

/-- `LOCKSTEP_MISMATCH` (19 R447). -/
def execLockstepMismatch (s : State) : Out := .next (if s.boot.step = 0 then s else s.fatal 0x3F10 5 0)

/-! ### Copies in memory (18 R431) -/

/-- The granule of an address (18 R423). -/
def granuleOf (a : Nat) : Nat := if a / 2 ^ 40 < 2 then 8 else 4

/-- A hardware copy: the bytes, and the poison mark on every granule that takes a byte of a marked one; a granule written in part
keeps the mark it has (18 R431, R433). -/
def State.copyMem (s : State) (src dst n : Nat) : State :=
  let cells := (s.mem.filter fun c => decide (src ≤ c.1 ∧ c.1 < src + n)).map fun c => (c.1 - src + dst, c.2)
  let gs := granuleOf src
  let gd := granuleOf dst
  let marks := (s.poison.filter fun c => decide (src < c.1 + gs ∧ c.1 < src + n)).flatMap fun c =>
    let lo := Nat.max c.1 src - src + dst
    let hi := Nat.min (c.1 + gs) (src + n) - src + dst
    (List.range ((hi - lo / gd * gd + gd - 1) / gd)).map fun i => lo / gd * gd + gd * i
  let rest := s.mem.filter fun c => decide (c.1 < dst ∨ dst + n ≤ c.1)
  let kept := s.poison.filter fun c => decide (c.1 < dst ∨ dst + n < c.1 + gd)
  let s := { s with mem := (rest ++ cells).mergeSort (fun a b => decide (a.1 ≤ b.1)), poison := kept }
  marks.foldl State.markPoison s

/-! ### The dump (21 R505-R508) -/

/-- The sections of a dump: identifier and size in KiB (21 R505). -/
def dumpSections : List (Nat × Nat) :=
  [(1, 32), (2, 4), (3, 64), (4, 512), (5, 2048), (6, 256), (7, 256), (8, 57344), (9, 201624)]

/-- The section at an offset of the dump: its identifier and the offset inside it; 0 is the header. -/
def dumpSection (off : Nat) : Nat × Nat :=
  if off < 4096 then (0, off) else
    (dumpSections.foldl (fun (a : Option (Nat × Nat) × Nat) p =>
      match a.1 with
      | some _ => a
      | none => if off < a.2 + 1024 * p.2 then (some (p.1, off - a.2), a.2) else (none, a.2 + 1024 * p.2)) (none, 4096)).1.getD (9, 0)

/-- The offset of a section. -/
def dumpOffset (id : Nat) : Nat := 4096 + 1024 * ((dumpSections.filter fun p => decide (p.1 < id)).foldl (fun a p => a + p.2) 0)

/-- The dump header and directory, both CRC fields zero (21 R506). -/
def State.dumpHeader (s : State) : List Byte :=
  let f := s.flt
  let h := leBytes 4 0x44464C4B ++ leBytes 2 1 ++ leBytes 2 (s.nat Obj.DUMP_FAULT) ++ leBytes 8 f.dumpTick ++
    leBytes 9 (f.dumpTick * 2 ^ 19) ++ leBytes 1 f.dumpMode ++ leBytes 2 9 ++ leBytes 4 f.dumpSeq ++ leBytes 8 (2 ^ 28) ++
    leBytes 4 0 ++ leBytes 4 0 ++ leInt 4 (s.val Obj.KERNEL_VERSION) ++ leInt 4 (s.val Obj.APP_VERSION) ++ leInt 8 (s.val Obj.SERIAL)
  slice (h ++ dumpSections.flatMap fun p => leBytes 2 p.1 ++ leBytes 2 0 ++ leBytes 4 (dumpOffset p.1) ++ leBytes 4 (1024 * p.2) ++ leBytes 4 0) 0 4096

/-- The newest 256 log entries, newest first (21 R505; assumption log 10, DESIGN CHOICE). -/
def State.newestEntries (s : State) : List Byte :=
  (List.range 256).flatMap fun i => s.bytes (faultLogAddr ((s.nat Obj.FAULT_HEAD + 4096 - i) % 4096)) 128

/-- A dump laid out from a base: header, log entries, candidate entries in ascending order, engine memories and application region (13 R288;
21 R505); the other sections are `Config.dumpByte` (assumption log 10, DESIGN CHOICE). `n` bytes are kept. -/
def State.layDump (s : State) (base n : Nat) : State :=
  let head := s.dumpHeader ++ s.newestEntries
  let s := s.fillZero base n
  let s := s.copyMem (spaceBase 2) (base + dumpOffset 8) (Nat.min (57344 * 1024) (n - dumpOffset 8))
  let s := if n ≤ dumpOffset 9 then s else s.copyMem appBase (base + dumpOffset 9) (n - dumpOffset 9)
  let s := s.spec.cands.foldl (fun s e => s.putBytes (base + dumpOffset 6 + 32 * e.1) e.2.entry) s
  s.putBytes base head

/-- One byte of a dump held from a base, its CRC fields taken as zero. -/
def State.dumpRaw (s : State) (base off : Nat) : Byte :=
  let p := dumpSection off
  if 2 ≤ p.1 ∧ p.1 ≤ 7 ∧ p.1 ≠ 6 then Config.dumpByte p.1 p.2 s.flt.dumpTick else s.byte (base + off)

/-- A CRC field of the dump: over its first `n` bytes (21 R506). -/
def State.dumpCrc (s : State) (base n : Nat) : Nat :=
  (List.range n).foldl (fun a i => crc32Byte 0x82F63B78 a (s.dumpRaw base i).toNat) 0xFFFFFFFF ^^^ 0xFFFFFFFF

/-- One byte of a dump as it reads. -/
def State.dumpReadByte (s : State) (base total off : Nat) : Byte :=
  if 0x28 ≤ off ∧ off < 0x2C then nth 0 (leBytes 4 (s.dumpCrc base total)) (off - 0x28)
  else if 0x2C ≤ off ∧ off < 0x30 then nth 0 (leBytes 4 (s.dumpCrc base (2 ^ 23))) (off - 0x2C)
  else s.dumpRaw base off

/-- The MRAM copy's place (19 R449). -/
def dumpCopyBase : Nat := spaceBase 1 + 0x1712000

/-- The state of the held dump (21 R507). -/
def State.dumpCheck (s : State) : State :=
  s.setVal Obj.DUMP_STATE (if s.flt.dumpDram then 2 else if s.flt.dumpCopy then 3 else if s.flt.dumpPart then 4 else 0)

/-- The dump is complete (21 R504, R507). -/
def State.dumpDone (s : State) : State :=
  let s := ({ s with flt := { s.flt with dumping := false } } : State).dumpCheck
  s.raise 0xF005 0 0 (leInt 1 (s.val Obj.DUMP_STATE) ++ leInt 2 (s.val Obj.DUMP_FAULT))

/-- `DUMP_WRITE_DONE` (21 R504): the DRAM dump is written, unless a stack is lost; without MRAM the dump ends here. -/
def execDumpWriteDone (s : State) : Out :=
  .next (
    if !s.flt.dumping || s.flt.dumpLost || s.flt.dumpDram then s else
      let s := s.layDump dumpBase (2 ^ 28)
      let s := { s with flt := { s.flt with dumpDram := true } }
      if s.flt.dumpNoMram then s.dumpDone
      else { s with flt := { s.flt with dumpCopy := false, dumpPart := true } })

/-- `DUMP_COPY_DONE` (21 R504): the MRAM copy is written. -/
def execDumpCopyDone (s : State) : Out :=
  .next (
    if !s.flt.dumping || s.flt.dumpNoMram || !(s.flt.dumpLost || s.flt.dumpDram) then s else
      let s := if s.flt.dumpDram then s.copyMem dumpBase dumpCopyBase (2 ^ 23) else s.layDump dumpCopyBase (2 ^ 23)
      ({ s with flt := { s.flt with dumpCopy := true, dumpPart := false } } : State).dumpDone)

end Sys2Proof.Machine
end

