-- ==== Sys2Proof/Machine/Memory.lean ====
section
/-! DEFINITION. Fill, error correction, poison, upset counting, the scrubber and the check-value units (18). -/

namespace Sys2Proof.Machine

/-- The state with the integrity unit changed. -/
def State.setEcc (s : State) (f : Integrity → Integrity) : State := { s with ecc := f s.ecc }

/-! ### Domains (18 R423) -/

/-- The element number of a domain: 0-3 the stacks, 4 CD, 5-12 the reader dies, 13 the MRAM. -/
def domNum : Domain → Nat
  | .stack st => st
  | .cd => 4
  | .reader d => 5 + d
  | .mram => 13

/-- The scope kind and number of a domain (17 R390). -/
def domScope (d : Nat) : Nat × Nat :=
  if d < 4 then (11, d) else if d = 4 then (5, 0) else if d < 13 then (4, d - 5) else (0, 0)

/-- The bytes of a domain's granule. -/
def domGranule (d : Nat) : Nat := if d < 4 ∨ d = 13 then 8 else 4

/-- The bytes of supervisor SRAM (18 R423). -/
def supBytes : Nat := 512 * 1024

/-- The bytes of the engines' inbound queues (08 R174; assumption log 22, DESIGN CHOICE). -/
def msgBytesAll : Nat := 256 * 1024

/-- The granules of a domain; those of CD are its memories, the supervisor's SRAM and the engines' inbound queues. -/
def domGranules (d : Nat) : Nat :=
  if d < 4 then 2 ^ 32 else if d = 4 then (cdBytes + supBytes + msgBytesAll) / 4 else if d = 13 then 2 ^ 22 else Config.dieGranules + 1

/-- The address of a granule; the stacks are interleaved by granule (01 R26; assumption log 28, DESIGN CHOICE). -/
def granuleAddr (d g : Nat) : Nat :=
  if d < 4 then 8 * (4 * g + d)
  else if d = 4 then
    (if 4 * g < cdBytes then spaceBase 2 + 4 * g
     else if 4 * g < cdBytes + supBytes then spaceBase 3 + (4 * g - cdBytes)
     else spaceBase 2 + (4 * g - supBytes))
  else if d = 13 then spaceBase 1 + 8 * g
  else spaceBase d + 4 * g

/-! ### Counting (18 R427, R434, R435) -/

/-- A leak step of a bucket; half the capacity arms it again (18 R434, R435). -/
def State.bucketLeak (s : State) (d : Nat) : State :=
  let due := s.tick % s.nat Obj.ECC_BUCKET_LEAK d == 0 && smGet 0 s.ecc.leaked d != s.clk.ord + 1
  if !due then s else
    let s := s.setEcc fun x => { x with leaked := smPut 0 x.leaked d (s.clk.ord + 1) }
    let level := s.nat Obj.ECC_BUCKET_LEVEL d - 1
    let s := s.setVal Obj.ECC_BUCKET_LEVEL level d
    if level ≤ s.nat Obj.ECC_BUCKET_CAPACITY d / 2 then s.setEcc fun x => { x with disarmed := smPut false x.disarmed d false } else s

/-- `ECC_BUCKET_LEAK` (18 R434). -/
def execEccBucketLeak (dom : Domain) (s : State) : Out :=
  .next (if domNum dom = 13 then s else s.bucketLeak (domNum dom))

/-- A correctable error in a domain's bucket (18 R434, R435). -/
def State.bucketAdd (s : State) (d : Nat) : State :=
  if s.val Obj.ECC_BUCKET_LEVEL d < s.val Obj.ECC_BUCKET_CAPACITY d then
    s.setVal Obj.ECC_BUCKET_LEVEL (s.val Obj.ECC_BUCKET_LEVEL d + 1) d
  else
    let s := s.inc Obj.ECC_BUCKET_OVERFLOW_COUNT d
    if smGet false s.ecc.disarmed d then s else
      let sc := domScope d
      let s := s.raise 0xE001 sc.1 sc.2 (leInt 2 (s.val Obj.ECC_BUCKET_CAPACITY d))
      (s.logFault 0x1E01 sc.1 sc.2).setEcc fun x => { x with disarmed := smPut false x.disarmed d true }

/-- An error corrected in a domain, in data or in check bits (18 R427). -/
def State.eccCorrected (s : State) (d : Nat) (data : Bool) : State :=
  if d = 13 then s.inc Obj.MRAM_CE_COUNT
  else (s.inc (if data then Obj.ECC_CE_COUNT else Obj.ECC_CB_COUNT) d).bucketAdd d

/-- An uncorrectable error in a granule (18 R429, R430): a poisoned granule is delivered with its mark alone. -/
def State.eccUncorrectable (s : State) (d g : Nat) (address : Bool) (syndrome : Nat) : State :=
  let a := granuleAddr d g
  if smGet false s.poison a then s else
    let s := s.markPoison a
    let sc := domScope d
    let off := g * domGranule d
    let cause := if address then 1 else 0
    let info := leBytes 8 s.tick ++ leBytes 6 off ++ leBytes 1 syndrome ++ leBytes 1 cause
    let s := if d = 13 then s.inc Obj.MRAM_UE_COUNT else (s.inc Obj.ECC_UE_COUNT d).setBlob Obj.ECC_LAST_UE info d
    let s := s.raise 0xE002 sc.1 sc.2 (leBytes 6 off ++ leBytes 1 cause)
    let s := s.logFault (if address then 0x1E04 else if d < 4 ∨ d = 13 then 0x1E02 else 0x1E03) sc.1 sc.2 info
    if d = 4 ∧ cdBytes ≤ 4 * g ∧ 4 * g < cdBytes + supBytes then s.fatal 0x3E06 5 0 info else s

/-- A granule read (18 R427-R429). Assumption log 64, DEDUCED. -/
def State.eccRead (s : State) (d g : Nat) : EccError → State
  | .none => s
  | .dataBit _ => s.eccCorrected d true
  | .checkBit => s.eccCorrected d false
  | .uncorrectable a syn => s.eccUncorrectable d g a syn.toNat

/-! ### The scrubber (18 R436, R437) -/

/-- Whether the granule a scrubber has reached lies in a partition under memory self-test (18 R436; 21 R501). -/
def State.scrubSkips (s : State) (d g : Nat) : Bool :=
  let p := s.nat Obj.SELFTEST_RUNNING
  if p = 0xFF then false
  else if d < 4 then p == 51 + d
  else if d = 4 then (decide (32 ≤ p ∧ p ≤ 47) && 4 * g / 0x38000 / 16 == p - 32) ||
    (p == 49 && decide (72 * 2 ^ 20 + 8192 ≤ 4 * g ∧ 4 * g < cdBytes))
  else p == 8 + (d - 5)

/-- The end of a lap (18 R437). -/
def State.lapEnd (s : State) (d : Nat) : State :=
  let n := s.clk.ord - smGet 0 s.ecc.lapOrd d
  let s := (s.setVal Obj.SCRUB_LAP_LAST n d).inc Obj.SCRUB_LAP_COUNT d
  let lo := s.nat Obj.SCRUB_LAP_MIN d
  let s := if lo = 0 ∨ n < lo then s.setVal Obj.SCRUB_LAP_MIN n d else s
  let s := if s.nat Obj.SCRUB_LAP_MAX d < n then s.setVal Obj.SCRUB_LAP_MAX n d else s
  s.setEcc fun x => { x with lapAt := smPut 0 x.lapAt d 0, lapOrd := smPut 0 x.lapOrd d s.clk.ord, slow := smPut false x.slow d false }

/-- The scrubber of a domain reads its next granule (18 R436). -/
def State.scrub (s : State) (d : Nat) (err : EccError) : State :=
  if d = 13 || !Mode.lanes s.mode || !s.on Obj.SCRUB_ENABLE d then s else
    let g := smGet 0 s.ecc.lapAt d
    let s := if s.scrubSkips d g || smGet false s.poison (granuleAddr d g) then s else s.eccRead d g err
    if domGranules d ≤ g + 1 then s.lapEnd d else s.setEcc fun x => { x with lapAt := smPut 0 x.lapAt d (g + 1) }

/-- `SCRUB_GRANULE` (18 R436). -/
def execScrubGranule (dom : Domain) (err : EccError) (s : State) : Out := .next (s.scrub (domNum dom) err)

/-- A running lap has passed its limit: the event, once for the lap (18 R437). -/
def State.scrubSlow (s : State) (d : Nat) : State :=
  let n := s.clk.ord - smGet 0 s.ecc.lapOrd d
  if d = 13 || !Mode.lanes s.mode || !s.on Obj.SCRUB_ENABLE d || smGet false s.ecc.slow d ||
      decide (n ≤ s.nat Obj.SCRUB_LAP_LIMIT d) then s else
    let sc := domScope d
    (s.raise 0xE003 sc.1 sc.2 (leBytes 8 n)).setEcc fun x => { x with slow := smPut false x.slow d true }

/-- `SCRUB_SLOW` (18 R437). -/
def execScrubSlow (dom : Domain) (s : State) : Out := .next (s.scrubSlow (domNum dom))

/-! ### Fills (18 R424) -/

/-- The fill after a reset of a kind (0 cold, 1 warm, 2 dump-preserving): zeros with valid check bits. -/
def State.memoryFill (s : State) (kind : Nat) : State :=
  let spill := appBase + 768 * 2 ^ 20
  let keeps (a : Nat) : Bool :=
    (decide (spaceBase 1 ≤ a ∧ a < spaceBase 2)) || (kind != 0 && decide (spill ≤ a ∧ a < queueBase)) ||
      (kind == 2 && decide (dumpBase ≤ a ∧ a < stagingBase))
  { s with mem := s.mem.filter (fun c => keeps c.1), poison := s.poison.filter fun c => keeps c.1 }

/-! ### Check-value units (18 R438-R443) -/

/-- A unit's state. -/
def State.cvu (s : State) (u : Nat) : Cvu := smGet {} s.ecc.cvus u

/-- The state with a unit changed; its queue depth shows. -/
def State.setCvu (s : State) (u : Nat) (f : Cvu → Cvu) : State :=
  let s := s.setEcc fun x => { x with cvus := smUpd {} x.cvus u f }
  s.setVal Obj.CVU_QUEUE_DEPTH (s.cvu u).queue.length 0 (u + 1)

/-- A field of a descriptor (18 R439). -/
def descField (d : BitVec 256) (lo n : Nat) : Nat := d.toNat / 2 ^ lo % 2 ^ n

/-- The size of a memory by its space code (18 R439). -/
def spaceSize (sp : Nat) : Nat :=
  match sp with | 0 => 2 ^ 37 | 1 => 2 ^ 25 | 2 => cdBytes | 3 => supBytes | _ => 0

/-- The address of a place in a space. -/
def spaceAddr (sp off : Nat) : Nat := spaceBase sp + off

/-- Whether a range of the MRAM reaches into an area the kernel reserves (19 R449). -/
def kernelArea (off n : Nat) : Bool := decide (off < 0xD0000) || decide (off < 0x1F12000 ∧ 0x1712000 < off + n)

/-- Why a descriptor of the dictionary or the application is refused (18 R439, R440). -/
def State.cvuRefusal (s : State) (u : Nat) (d : BitVec 256) : Option Nat :=
  let sp := descField d 252 4
  let off := descField d 208 44
  let n := descField d 176 32
  let poly := descField d 98 2
  let slot := smGet {} (s.cvu u).slots (descField d 100 4)
  let start := d.toNat.testBit 97
  if descField d 0 95 ≠ 0 ∨ 3 < sp ∨ poly = 3 ∨ n = 0 ∨ 2 ^ 31 < n ∨ (d.toNat.testBit 95 && !d.toNat.testBit 96) = true ∨
      (start = false ∧ poly ≠ slot.poly) ∨ spaceSize sp < off + n then some St.RANGE
  else if sp = 3 ∨ (sp = 1 ∧ kernelArea off n = true) then some St.ACCESS
  else if 32 ≤ (s.cvu u).queue.length then some St.BUSY
  else none

/-- Queues a descriptor. -/
def State.cvuQueue (s : State) (u : Nat) (d : BitVec 256) (action : Nat) : State :=
  s.setCvu u fun x => { x with queue := x.queue ++ [{ desc := d, action }] }

/-- The initial value of a polynomial (18 R438). -/
def crcInit (poly : Nat) : Nat := if poly = 2 then 0xFFFF else 0xFFFFFFFF

/-- The running value of a polynomial over bytes (18 R438). -/
def crcRun (poly v : Nat) (l : List Byte) : Nat :=
  match poly with | 0 => crc32Run 0x82F63B78 v l | 1 => crc32Run 0xEDB88320 v l | _ => crc16Run v l

/-- The final XOR (18 R438). -/
def crcFinal (poly v : Nat) : Nat := if poly = 2 then v else v ^^^ 0xFFFFFFFF

/-- What a descriptor gives (18 R441, R443): the slot after it, the value, the status and the result bits, and whether it was
executed. Assumption log 29, DESIGN CHOICE. -/
def State.cvuRun (s : State) (slot : CvuSlot) (d : BitVec 256) : CvuSlot × Nat × Nat × Nat × Bool :=
  let alive := descField d 104 8
  let start := d.toNat.testBit 97
  let n := descField d 176 32
  let a := spaceAddr (descField d 252 4) (descField d 208 44)
  let poly := descField d 98 2
  if start = false ∧ alive = slot.alive then (slot, slot.value, St.RANGE, 2, false)
  else if start = false ∧ alive ≠ (slot.alive + 1) % 256 then (slot, slot.value, St.RANGE, 4, false)
  else if s.poisoned (a / granuleOf a * granuleOf a) (n + a % granuleOf a) then (slot, slot.value, St.CHECK, 8, false)
  else
    let v0 := if start then crcInit poly else slot.value
    let v := crcRun poly v0 (s.bytes a n)
    let x : CvuSlot := { poly, value := v, count := ((if start then 0 else slot.count) + n) % 2 ^ 32, alive }
    let out := if d.toNat.testBit 96 then crcFinal poly v else v
    let bad := d.toNat.testBit 95 && out != descField d 144 32
    (x, out, if bad then St.CHECK else St.OK, if bad then 1 else 0, true)

/-- The 16-byte result (18 R443). -/
def cvuResult (d : BitVec 256) (x : CvuSlot) (value status bits : Nat) : BitVec 128 :=
  BitVec.ofNat 128 (descField d 112 32 * 2 ^ 96 + value * 2 ^ 64 + x.count * 2 ^ 32 + descField d 104 8 * 2 ^ 24 + status * 2 ^ 16 + bits)

/-- A generation of a result object held beside its value rises (17 R409). -/
def State.bumpGen (s : State) (k : Nat) : State :=
  { s with sdp := { s.sdp with gens := smUpd 0 s.sdp.gens k fun g => (nextGen (g : Int)).toNat } }

/-- The first descriptor of a unit's queue completes (18 R441, R443). -/
def State.cvuDone (s : State) (u : Nat) : State :=
  match (s.cvu u).queue with
  | [] => s
  | j :: rest =>
    let i := descField j.desc 100 4
    let r := s.cvuRun (smGet {} (s.cvu u).slots i) j.desc
    let s := s.setCvu u fun x => { x with slots := smPut {} x.slots i r.1, queue := rest }
    let s := if r.2.2.2.2 then s.inc Obj.CVU_JOB_COUNT 0 (u + 1) else s
    let w := cvuResult j.desc r.1 r.2.1 r.2.2.1 r.2.2.2.1
    if j.action = 0 then s.setEcc fun x => { x with ring := (w :: x.ring).take 64 }
    else
      let s := (s.setBlob Obj.CVU_RESULT (leBytes 16 w.toNat) 0 (u + 1)).bumpGen (key Obj.CVU_RESULT 0 (u + 1))
      s.actionDone j.action r.2.2.1

/-- `CVU_JOB_DONE` (18 R443). -/
def execCvuJobDone (u : Fin 4) (s : State) : Out := .next (s.cvuDone u)

/-- The bytes of the selected context slot (18 R442, R445). -/
def State.cvuContext (s : State) (u : Nat) : List Byte :=
  let x := smGet {} (s.cvu u).slots (s.nat Obj.CVU_CONTEXT_SELECT 0 (u + 1))
  leBytes 4 x.value ++ leBytes 4 x.count ++ leBytes 1 x.poly ++ leBytes 1 x.alive ++ leBytes 2 0

/-- Why a write of `CVU_CONTEXT` is refused (18 R442): a bad field, or a descriptor of the slot that waits. -/
def State.cvuContextRefusal (s : State) (u : Nat) (b : List Byte) : Option Nat :=
  if 2 < (nth 0 b 8).toNat ∨ leNat (slice b 10 2) ≠ 0 then some St.RANGE
  else if (s.cvu u).queue.any fun j => descField j.desc 100 4 == s.nat Obj.CVU_CONTEXT_SELECT 0 (u + 1) then some St.BUSY
  else none

/-- The selected slot is written (18 R442). -/
def State.writeCvuContext (s : State) (u : Nat) (b : List Byte) : State :=
  let x : CvuSlot := { value := leNat (slice b 0 4), count := leNat (slice b 4 4), poly := (nth 0 b 8).toNat, alive := (nth 0 b 9).toNat }
  s.setCvu u fun y => { y with slots := smPut {} y.slots (s.nat Obj.CVU_CONTEXT_SELECT 0 (u + 1)) x }

end Sys2Proof.Machine
end

