-- ==== Sys2Proof/Machine/Contain.lean ====
section
/-! DEFINITION. Isolation and quarantine, soft resets, triplicated configuration, converter faults, self-test, upsets
(01 R14-R21; 20 R476-R478; 21 R489-R503). -/

namespace Sys2Proof.Machine

/-- The state with containment changed. -/
def State.setCont (s : State) (f : Containment → Containment) : State := { s with cont := f s.cont }

/-- Sets bits in a region's own flags of the channel tick `i` ticks back. -/
def State.rgMark (s : State) (g : Nat) (c : Cond) (i : Nat) : State :=
  let f (l : List Cond) (k : Nat) : Cond := if k = i then nth 0 l k ||| c else nth 0 l k
  s.setRg g fun x => { x with extra := (List.range (Nat.max x.extra.length (i + 1))).map (f x.extra) }

/-- The channel data of inputs in the sampling ticks that `o` accepts is lost from the pipeline: zeros. -/
def State.pipeDrop (s : State) (p : Nat → Bool) (o : Nat → Bool) : State :=
  { s with pipe := s.pipe.map fun e => if o e.ord then { e with chans := smKeep (fun n => !p n) e.chans } else e }

/-! ### Service of inputs (01 R17, R29, R30; 21 R497) -/

/-- Whether an input is in service by the isolations and quarantines in force. -/
def State.served (s : State) (n : Nat) : Bool := !s.cont.out.contains (n / 32) && !s.cont.quar.contains n

/-- An input leaves service (01 R17). Assumption log 42, DEDUCED. -/
def State.inputLeaves (s : State) (n : Nat) : State :=
  ((s.ctxService n false).feedAside n).tdcAside n

/-- An input returns to service. -/
def State.inputReturns (s : State) (n : Nat) : State := (s.ctxService n true).feedReturn n

/-- The mask and the count of inputs in service are those in force from this boundary (01 R30), and the inputs that changed are
set aside or return. -/
def State.serviceApply (s : State) : State :=
  let old := s.inService
  let left := (List.range 256).filter fun n => old n && !s.served n
  let back := (List.range 256).filter fun n => !old n && s.served n
  if left.isEmpty && back.isEmpty then s else
    let s := s.setBlob Obj.INPUT_SERVICE_MASK (inputMask s.served)
    let s := s.setVal Obj.INPUTS_IN_SERVICE s.servedInputs.length
    back.foldl State.inputReturns (left.foldl State.inputLeaves s)

/-! ### Soft resets of one element (20 R476, R478) -/

/-- A channel soft reset: range controller, trigger primitive, hit buffer and windows. -/
def State.chReset (s : State) (n : Nat) : State := ((s.rangeReset n).trigChReset n).tdcReset n

/-- A cluster soft reset: its four channels, and the injector from its seed; settle windows open unless it is off (03 R88). -/
def State.clReset (s : State) (c : Nat) : State :=
  let s := ((clInputs c).foldl State.chReset s).prbsRestart c
  if s.val Obj.INJ_MODE c = 0 then s else (clInputs c).foldl State.openExc s

/-- A region soft reset: pipeline, linearizer and coder; the part of the tick in the link transmitter is flushed. -/
def State.rgReset (s : State) (g : Nat) : State :=
  let s := s.pipeDrop (fun n => n / 16 == g) fun o => o + 2 == s.clk.ord
  let s := ((((s.regionRestart g).coderDisturb g).trigRgReset g).rgMark g Flag.late 2)
  (List.range 16).foldl (fun s i => s.trigArm (16 * g + i)) s

/-- The pipeline of a die that stops at a boundary: what its transmitter and filter banks hold is lost. -/
def State.dieFlush (s : State) (d : Nat) : State :=
  let s := s.pipeDrop (fun n => n / 32 == d) fun o => decide (s.clk.ord ≤ o + 2)
  let s := { s with hist := { s.hist with coded := s.hist.coded.filter fun c => c.input / 32 != d } }
  let s := if s.hist.newest == some (s.infoAt 2).tick then s.historyDrop d (s.infoAt 2).tick else s
  [2 * d, 2 * d + 1].foldl (fun s g => ((s.specEnd g).rgMark g Flag.late 1).rgMark g Flag.late 2) s

/-- A reader-die soft reset takes effect at a boundary: the die's SRAM is filled, which ends its poison marks, its hit buffers are empty and
its windows discarded, and the die is held until the handshake of its crossing (18 R424; 20 R476). Its tables and counters keep their
contents (05 R133; 12 R284). Assumption log 42, DEDUCED. -/
def State.dieReset (s : State) (d : Nat) : State :=
  let s := (((s.dieFlush d).setVal Obj.PLL_LOCK 0 d).dllDrop d false).hkStop d
  let s := (List.range 32).foldl (fun s i => s.tdcReset (32 * d + i)) (s.clearPoison (spaceBase (d + 5)) (2 ^ 40))
  let s := [2 * d, 2 * d + 1].foldl (fun s g => (s.coderDisturb g).trigRgReset g) s
  let s := s.setCont fun x => { x with
    resetting := smPut 0 x.resetting d (s.clk.ord + 1), shaken := x.shaken.filter (· != d), d2dRun := smPut 0 x.d2dRun d 0 }
  let c := Crossing.reader (Fin.ofNat 8 d)
  { s with clk := { s.clk with
      flushing := if s.clk.flushing.contains c then s.clk.flushing else s.clk.flushing ++ [c]
      pllLost := smPut 0 s.clk.pllLost d 0 } }

/-- The action of a reset ends with a status. -/
def State.endActions (s : State) (l : List Nat) (status : Nat) : State := l.foldl (fun s a => s.actionDone a status) s

/-- The boundary at which a die's soft reset completes (20 R476): whatever was covered completes with it. -/
def State.dieResetDone (s : State) (d : Nat) : State :=
  if smGet 0 s.cont.resetting d = 0 || !s.cont.shaken.contains d || !s.on Obj.PLL_LOCK d then s else
    let acts := (s.cont.dieActions.filter fun a => a.1 == d).map fun a => a.2
    let s := s.setCont fun x => { x with
      resetting := smPut 0 x.resetting d 0, shaken := x.shaken.filter (· != d), dieActions := x.dieActions.filter fun a => a.1 != d }
    let s := { s with clk := { s.clk with flushing := s.clk.flushing.filter (· != Crossing.reader (Fin.ofNat 8 d)) } }
    let s := (List.range 8).foldl (fun s i => s.clReset (8 * d + i)) s
    let s := [2 * d, 2 * d + 1].foldl State.regionRestart s
    s.endActions acts St.OK

/-- `DIE_SOFT_RESET_DONE` (20 R476). -/
def execDieSoftResetDone (d : Rd) (s : State) : Out := .next (s.dieResetDone d)

/-- The die of an element by its scope kind and number (17 R390). -/
def resetDie (kind num : Nat) : Nat := match kind with | 1 => num / 32 | 2 => num / 8 | 3 => num / 2 | _ => num

/-- Whether one soft reset covers another (20 R477). -/
def resetCovers (a b : Nat × Nat) : Bool :=
  (a.1 == 4 && b.1 != 4 && resetDie b.1 b.2 == a.2) || (a.1 == 2 && b.1 == 1 && b.2 / 4 == a.2)

/-- A soft reset that no other one covers is carried out. -/
def State.resetOne (s : State) (kind num : Nat) : State :=
  match kind with
  | 1 => s.chReset num
  | 2 => s.clReset num
  | 3 => s.rgReset num
  | _ => s.dieReset num

/-- The soft resets of a boundary (20 R476, R477). -/
def State.softApply (s : State) : State :=
  let all := s.cont.softs
  if all.isEmpty then s else
    let s := s.setCont fun x => { x with softs := [] }
    let dead := all.filter fun r => s.dieOut (resetDie r.1 r.2.1)
    let live := all.filter fun r => !s.dieOut (resetDie r.1 r.2.1)
    let s := s.endActions (dead.map fun r => r.2.2) St.QUARANTINED
    let tops := (live.filter fun r => !live.any fun q => resetCovers (q.1, q.2.1) (r.1, r.2.1)).map fun r => (r.1, r.2.1)
    let s := tops.eraseDups.foldl (fun s r => s.resetOne r.1 r.2) s
    let inDie (r : Nat × Nat × Nat) : Bool := live.any fun q => q.1 == 4 && q.2.1 == resetDie r.1 r.2.1
    let wait := (live.filter inDie).map fun r => (resetDie r.1 r.2.1, r.2.2)
    let s := s.setCont fun x => { x with dieActions := x.dieActions ++ wait }
    s.endActions ((live.filter fun r => !inDie r).map fun r => r.2.2) St.OK

/-! ### Isolation and quarantine (01 R16-R21; 21 R495-R497) -/

/-- An isolation takes effect at the boundary (01 R17). Assumption log 42, DEDUCED. -/
def State.dieIsolated (s : State) (d code : Nat) : State :=
  let s := ((((s.setVal Obj.PLL_LOCK 0 d).dllDrop d false).hkStop d).raise 0x0008 4 d
    (leBytes 1 d ++ leInt 1 (s.val Obj.DIE_STATE d) ++ leBytes 2 code))
  let acts := (s.cont.dieActions.filter fun a => a.1 == d).map fun a => a.2
  let s := s.setCont fun x => { x with
    out := if x.out.contains d then x.out else x.out ++ [d]
    resetting := smPut 0 x.resetting d 0, shaken := x.shaken.filter (· != d), dieActions := x.dieActions.filter fun a => a.1 != d
    d2dRun := smPut 0 x.d2dRun d 0 }
  let s := { s with clk := { s.clk with
    flushing := s.clk.flushing.filter (· != Crossing.reader (Fin.ofNat 8 d)), pllLost := smPut 0 s.clk.pllLost d 0 } }
  let stop (s : State) (g : Nat) : State :=
    ((List.range 16).foldl (fun s i => s.specClear (16 * g + i)) s).setRg g fun x => { x with specOn := false, specLen := 0, specLate := false }
  let s := [2 * d, 2 * d + 1].foldl stop s
  s.endActions acts St.QUARANTINED

/-- With all eight dies set aside the module leaves modes 2 to 9 for SAFE (01 R20; 20 R486). -/
def State.lastDieOut (s : State) : State :=
  if 2 ≤ s.mode ∧ s.mode ≤ 9 ∧ (List.range 8).all s.dieOff = true then (s.modeFail St.QUARANTINED true).changeMode Mode.SAFE else s

/-- The isolations and the returns of dies at a boundary. `p` selects the dies. -/
def State.diesApply (s : State) (p : Nat → Bool) : State :=
  let mine := (s.cont.isolating.filter fun e => p e.1)
  let back := (s.cont.returning.filter fun d => decide (d < 8) && p d)
  if mine.isEmpty && back.isEmpty then s else
    let s := s.setCont fun x => { x with
      isolating := x.isolating.filter (fun e => !p e.1), returning := x.returning.filter fun d => !(decide (d < 8) && p d) }
    let s := mine.foldl (fun s e => if s.dieOut e.1 && !s.dieOff e.1 then s.dieIsolated e.1 e.2 else s) s
    let s := back.foldl (fun s d => if s.dieOut d then s else (s.setCont fun x => { x with out := x.out.filter (· != d) }).dieReset d) s
    s.serviceApply.lastDieOut

/-- `DIE_ISOLATION_APPLY` (01 R17). -/
def execDieIsolationApply (d : Rd) (s : State) : Out := .next (s.diesApply fun k => k == d)

/-- A quarantine takes effect at the boundary (21 R497, R510). -/
def State.chQuarantined (s : State) (n code : Nat) : State :=
  let s := s.setCont fun x => { x with quar := if x.quar.contains n then x.quar else x.quar ++ [n] }
  s.raise 0x0009 1 n (leBytes 2 n ++ leInt 1 (s.val Obj.CH_STATE n) ++ leBytes 2 code)

/-- A channel's return: a channel soft reset and the event (21 R497). -/
def State.chReturned (s : State) (n : Nat) : State :=
  let s := (s.setCont fun x => { x with quar := x.quar.filter (· != n) }).chReset n
  s.raise 0x0009 1 n (leBytes 2 n ++ leInt 1 (s.val Obj.CH_STATE n) ++ leBytes 2 0)

/-- The quarantines and the returns of channels at a boundary. `p` selects the channels. -/
def State.chansApply (s : State) (p : Nat → Bool) : State :=
  let mine := s.cont.quarantining.filter fun e => p e.1
  let back := s.cont.returning.filter fun d => decide (256 ≤ d) && p (d - 256)
  if mine.isEmpty && back.isEmpty then s else
    let s := s.setCont fun x => { x with
      quarantining := x.quarantining.filter (fun e => !p e.1)
      returning := x.returning.filter fun d => !(decide (256 ≤ d) && p (d - 256)) }
    let s := mine.foldl (fun s e => if s.val Obj.CH_STATE e.1 != 0 && !s.cont.quar.contains e.1 then s.chQuarantined e.1 e.2 else s) s
    let s := back.foldl (fun s d => if s.val Obj.CH_STATE (d - 256) != 0 then s else s.chReturned (d - 256)) s
    s.serviceApply

/-- `CH_QUARANTINE_APPLY` (21 R497). -/
def execChQuarantineApply (n : Ch) (s : State) : Out := .next (s.chansApply fun k => k == n)

/-- The effect of an accepted write of `DIE_ISOLATE` (01 R16, R21). -/
def State.writeDieIsolate (s : State) (d : Nat) (v : Int) : State :=
  if v = 1 then
    if s.dieOut d then s else
      let s := (s.setVal Obj.DIE_STATE 1 d).setVal Obj.DIE_ISOLATE 1 d
      s.setCont fun x => { x with isolating := x.isolating ++ [(d, 0)], returning := x.returning.filter (· != d) }
  else
    let s := s.setVal Obj.DIE_ISOLATE 0 d
    if !s.dieOut d then s else
      let s := s.setVal Obj.DIE_STATE 0 d
      s.setCont fun x => { x with returning := if x.returning.contains d then x.returning else x.returning ++ [d]
                                  isolating := x.isolating.filter fun e => e.1 != d }

/-- The effect of an accepted write of `CH_QUARANTINE` (21 R496, R497). -/
def State.writeChQuarantine (s : State) (n : Nat) (v : Int) : State :=
  if v = 1 then
    if s.val Obj.CH_STATE n != 0 then s else
      let s := (s.setVal Obj.CH_STATE 1 n).setVal Obj.CH_QUARANTINE 1 n
      s.setCont fun x => { x with quarantining := x.quarantining ++ [(n, 0)], returning := x.returning.filter (· != 256 + n) }
  else
    let s := s.setVal Obj.CH_QUARANTINE 0 n
    if s.val Obj.CH_STATE n = 0 then s else
      let s := s.setVal Obj.CH_STATE 0 n
      s.setCont fun x => { x with
        returning := if x.returning.contains (256 + n) then x.returning else x.returning ++ [256 + n]
        quarantining := x.quarantining.filter fun e => e.1 != n }

/-- `SOFT_RESET_APPLY` (20 R476): the soft resets that wait for the boundary, and the die resets whose handshake is done. -/
def execSoftResetApply (s : State) : Out := .next s.softApply

/-- `CONVERTER_STUCK` (21 R496): in automatic mode and range 0 the word stayed unchanged for 65,536 samples. -/
def execConverterStuck (n : Ch) (s : State) : Out :=
  .next (
    let x := s.inp n
    if s.converterRuns n && (s.rangeLock n).isNone && x.range == 0 && decide (65536 ≤ x.stuckRun + 4096) && s.val Obj.CH_STATE n == 0 then
      (s.faultChannel n 0x2110).setInp n fun x => { x with stuckRun := 0 }
    else s)

/-! ### Die-to-die transfers (01 R19) -/

/-- What a die's transfer of the tick just ended came to: answers whether its data is lost. -/
def State.d2dStep (s : State) (d : Nat) (r : Option D2d) : Bool × State :=
  match r with
  | some .failed =>
    let run := smGet 0 s.cont.d2dRun d + 1
    let s := (s.inc Obj.D2D_FAIL_COUNT d).setCont fun x => { x with d2dRun := smPut 0 x.d2dRun d run }
    (true, if 64 ≤ run && !s.dieOut d then s.faultDie d 0x2012 else s)
  | some .retried => (false, (s.inc Obj.D2D_RETRY_COUNT d).setCont fun x => { x with d2dRun := smPut 0 x.d2dRun d 0 })
  | none => (false, if smGet 0 s.cont.d2dRun d = 0 then s else s.setCont fun x => { x with d2dRun := smPut 0 x.d2dRun d 0 })

/-! ### Triplicated configuration (21 R493, R494, R496) -/

/-- The address of an object as its 64-bit word (17 R390). -/
def addrWord (a : ObjAddr) : Nat := a.index * 2 ^ 48 + a.sub * 2 ^ 40 + a.kind * 2 ^ 32 + a.num * 2 ^ 16

/-- A setting is written: its three copies and its master copy agree again. -/
def State.cfgWritten (s : State) (k : Nat) : State :=
  if s.flt.master.isEmpty then s else
    { s with flt := { s.flt with master := s.flt.master.filter (fun e => e.2.1 != k), repair := s.flt.repair.filter fun e => e.2.1 != k } }

/-- The comparison at a boundary whose tick is a multiple of 250 (21 R494). -/
def State.masterCheck (s : State) : State :=
  if s.tick % 250 ≠ 0 || s.flt.master.isEmpty then s else
    { s with flt := { s.flt with repair := s.flt.repair ++ s.flt.master, master := [], checkOrd := s.clk.ord } }

/-- `CFG_MASTER_CHECK` (21 R494). -/
def execCfgMasterCheck (s : State) : Out := .next s.masterCheck

/-- One repair: the field rewritten, counted and logged; the third of a channel within an hour is a fault (21 R494, R496). -/
def State.masterRepair1 (s : State) (e : Nat × Nat × ObjAddr × Int) : State :=
  let (die, k, a, v) := e
  let known := a.index != 0xFFFF
  let s := match (if known then objAt a.index else none) with
    | some o => { s with vals := smPut (dfltVal o (keyElem k) (keySub k)) s.vals k v }
    | none => s
  let s := s.inc Obj.CFG_MASTER_FIX_COUNT die
  let s := s.logFault 0x1002 a.kind a.num (leBytes 8 (addrWord a) ++ if known then [] else leInt 4 v)
  if !known || a.kind != 1 then s else
    let hour := s.tick / 900000000
    let n := (if s.cont.repairHour = hour then smGet 0 s.cont.repairs a.num else 0) + 1
    let s := s.setCont fun x => { x with
      repairs := smPut 0 (if x.repairHour = hour then x.repairs else []) a.num n, repairHour := hour }
    if n = 3 then s.faultChannel a.num 0x2111 else s

/-- The fields found at the boundary before are rewritten (21 R494). -/
def State.masterRepair (s : State) : State :=
  if s.flt.repair.isEmpty || decide (s.clk.ord ≤ s.flt.checkOrd) then s else
    let l := s.flt.repair
    l.foldl State.masterRepair1 { s with flt := { s.flt with repair := [] } }

/-- `CFG_MASTER_REPAIR` (21 R494). -/
def execCfgMasterRepair (s : State) : Out := .next s.masterRepair

/-- An upset in copies of a setting: one copy is voted away; two or three change the voted value (21 R493, R494). -/
def State.configUpset (s : State) (die : Nat) (a : ObjAddr) (copies bit : Nat) : State :=
  if copies = 0 then s
  else if copies = 1 then s.inc Obj.CFG_VOTE_FIX_COUNT die
  else
    let s := if copies = 2 then s.inc Obj.CFG_VOTE_FIX_COUNT die else s
    if a.index = 0xFFFF then
      { s with flt := { s.flt with master := s.flt.master ++ [(die, 0, a, (bit : Int))] } }
    else match objAt a.index with
    | none => s
    | some o =>
      match elemOf o.scope a.sub a.kind a.num with
      | none => s
      | some e =>
        if o.ty = .blob ∨ o.ty = .str ∨ (o.access ≠ .rw ∧ o.access ≠ .rwm) ∨ !subOk o a.sub a.kind a.num then s else
          let k := key o e a.sub
          let v := s.val o e a.sub
          let w := toTwos o.ty.bits v ^^^ 2 ^ (bit % o.ty.bits)
          let now : Int := if o.ty.signed then ofTwos o.ty.bits w else w
          let known := s.flt.master.any (fun m => m.2.1 == k) || s.flt.repair.any fun m => m.2.1 == k
          let s := s.setVal o now e a.sub
          if known then s else { s with flt := { s.flt with master := s.flt.master ++ [(die, k, a, v)] } }

/-- `SINGLE_EVENT_UPSET` (21 R489): a granule's error is met where it is read; a candidate entry is voted right. Assumption log 64, DEDUCED. -/
def execSingleEventUpset (u : Upset) (s : State) : Out :=
  .next (match u with
    | .config kind num a copies bit => s.configUpset (if kind = 4 ∧ num < 8 then num else 8) a copies bit
    | .granule dom g err => if g < domGranules (domNum dom) then s.eccRead (domNum dom) g err else s
    | .candidate _ _ => s
    | .lockstep => s.fatal 0x3F10 5 0)

/-! ### Spans of the fault log (21 R498) -/

/-- The spans that have ended give their summaries. -/
def State.spansEnd (s : State) (p : Span → Bool) : State :=
  let overdue (x : Span) : Bool := p x && decide (x.start + 250000 ≤ s.clk.ord)
  if !s.flt.spans.any overdue then s else
    let s := ((s.flt.spans.filter overdue).reverse).foldl State.logSummary s
    { s with flt := { s.flt with spans := s.flt.spans.filter fun x => !overdue x } }

/-- `FAULT_SPAN_END` (21 R498). -/
def execFaultSpanEnd (code : BitVec 16) (kind num : Nat) (s : State) : Out :=
  .next (s.spansEnd fun x => x.sameAs code.toNat kind num)

/-! ### Self-test (21 R500-R503) -/

/-- The step of the die that holds a partition (17 R422). -/
def State.partStep (s : State) (p : Nat) : Nat := s.nat Obj.HW_STEP (if p < 16 then p % 8 else 8)

/-- The golden signature of a partition (21 R509). -/
def State.goldenOf (s : State) (p : Nat) : Nat := (Config.golden p (s.partStep p)).toNat

/-- The partition after `p` in a mask, if any. -/
def nextPartition (mask p : Nat) : Option Nat := (List.range 56).find? fun i => decide (p ≤ i) && mask.testBit i

/-- A partition starts: what it stops (21 R502; 04 R106). -/
def State.partitionBegin (s : State) (p : Nat) : State :=
  let s := s.setVal Obj.SELFTEST_RUNNING p
  if p < 16 then s.hkStop (p % 8) else s

/-- What a partition leaves behind (21 R501). -/
def State.partitionAfter (s : State) (p : Nat) : State :=
  if p < 8 then (if s.dieOut p then s else s.dieReset p)
  else if p < 16 then s.fillZero (spaceBase (p - 8 + 5)) (4 * (Config.dieGranules + 1))
  else if p < 32 then (List.range 16).foldl (fun s i => s.engSoftReset (16 * (p - 16) + i)) s
  else if p < 48 then
    let b := p - 32
    let s := s.fillZero (imemAddr (16 * b) 0) (16 * 0x38000)
    (List.range 16).foldl (fun s i =>
      let k := 16 * b + i
      ((s.engSoftReset k).engUnload k).setSl k fun x => { x with ctx := [], ctx0 := [] }) s
  else if p = 49 then s.fillZero (spaceBase 2 + 72 * 2 ^ 20 + 8192) (2 * 2 ^ 20)
  else if p = 50 then (List.range 16).foldl (fun s x => s.tdcTo 0 (256 + x)) s
  else if 51 ≤ p ∧ p ≤ 54 then
    let mine (a : Nat) : Bool := decide (a < dumpBase) && a / 8 % 4 == p - 51
    { s with mem := s.mem.filter (fun c => !mine c.1), poison := s.poison.filter (fun c => !mine c.1)
             hist := { s.hist with slots := [] } }
  else s

/-- The consequence of a mismatch (21 R503). -/
def State.partitionBad (s : State) (p : Nat) : State :=
  if p < 16 then s.faultDie (p % 8) 0x2014
  else if p < 48 then
    let b := p % 16
    let s := s.logFault 0x2610 7 b
    let s := { s with flt := { s.flt with bankHeld := if s.flt.bankHeld.contains p then s.flt.bankHeld else s.flt.bankHeld ++ [p] } }
    (List.range 16).foldl (fun s i => s.engQuarantine (16 * b + i) 0) s
  else if p < 51 ∨ p = 55 then s.logFault 0x1010 5 0
  else s.logFault 0x1E09 11 (p - 51)

/-- The test of a partition ends (21 R500-R503). -/
def State.partitionDone (s : State) (sig ticks : Nat) : State :=
  let p := s.nat Obj.SELFTEST_RUNNING
  if p = 0xFF then s else
    let ok := sig == s.goldenOf p
    let rec_ := leBytes 8 sig ++ leBytes 8 s.tick ++ leBytes 4 ticks ++ leBytes 1 (if ok then St.OK else St.CHECK) ++ leBytes 3 0
    let s := (s.setBlob Obj.SELFTEST_RESULT rec_ 0 (p + 1)).bumpGen (key Obj.SELFTEST_RESULT 0 (p + 1))
    let s := s.setVal Obj.SELFTEST_RUNNING 0xFF
    let s := s.partitionAfter p
    let s := if ok then { s with flt := { s.flt with bankHeld := s.flt.bankHeld.filter (· != p) } } else s.partitionBad p
    let bad := s.flt.testBad || !ok
    let s := { s with flt := { s.flt with testBad := bad } }
    match nextPartition s.flt.testMask (p + 1) with
    | some q => s.partitionBegin q
    | none =>
      let a := s.flt.testAction
      ({ s with flt := { s.flt with testMask := 0, testAction := 0, testBad := false } } : State).actionDone a (if bad then St.CHECK else St.OK)

/-- `SELFTEST_PARTITION_DONE` (21 R501). -/
def execSelftestPartitionDone (signature : BitVec 64) (ticks : Nat) (s : State) : Out := .next (s.partitionDone signature.toNat ticks)

/-- The effect of an accepted write of `SELFTEST_START` (21 R500). -/
def State.writeSelftest (s : State) (mask action : Nat) : State :=
  let s := { s with flt := { s.flt with testMask := mask, testAction := action, testBad := false } }
  match nextPartition mask 0 with
  | some p => s.partitionBegin p
  | none => ({ s with flt := { s.flt with testAction := 0 } } : State).actionDone action St.OK

end Sys2Proof.Machine
end

