-- ==== Sys2Proof/Machine/Clocks.lean ====
section
/-! DEFINITION. Clocks, Kloif time and clock-domain crossings (02 R44-R57, R536). -/

namespace Sys2Proof.Machine

/-- The state with the clocks changed. -/
def State.setClk (s : State) (f : Clk → Clk) : State := { s with clk := f s.clk }

/-! ### The reference and the concentrator PLL (02 R45, R46) -/

/-- The permitted frequency of a code in kHz (02 R45). -/
def refKhzOf (code : Nat) : Nat := match code with | 1 => 10000 | 2 => 100000 | 3 => 128000 | _ => 0

/-- The frequency adopted for a measurement, 0 where none lies within ±10 %. Assumption log 39, DEDUCED. -/
def adoptRef (khz : Nat) : Nat :=
  ([1, 2, 3].find? fun c => decide (9 * refKhzOf c ≤ 10 * khz ∧ 10 * khz ≤ 11 * refKhzOf c)).getD 0

/-- A measurement of `REFCLK` fails: the fault, and no frequency (02 R45). -/
def State.refFails (s : State) : State := (s.setVal Obj.REFCLK_FREQ 0).logFault 0x1003 0 0

/-- Whether the concentrator PLL is still to lock in BOOT: once it has, the adopted frequency is kept, in holdover as well (02 R45). -/
def State.seeksRef (s : State) : Bool :=
  s.boot.step != 0 && s.mode == Mode.BOOT && !s.on Obj.PLL_LOCK 8 && !s.clk.holdover

/-- `REFCLK_MEASURE` (02 R45). Assumption log 39, DEDUCED. -/
def execRefclkMeasure (ref : RefClock) (s : State) : Out :=
  .next (
    if !s.seeksRef then s else
      let s := s.setClk fun c => { c with refKhz := ref.khz, refPpm := ref.ppm }
      if adoptRef ref.khz = 0 then s.refFails else s.setVal Obj.REFCLK_FREQ (adoptRef ref.khz))

/-- The PLL locks to a reference within ±200 ppm of the adopted frequency, which the measurement against the boot oscillator cannot tell, and
to no other; Kloif time counts from 0 at the next boundary (02 R45, R49). Assumption log 39, DEDUCED. -/
def State.cdPllLock (s : State) : State :=
  if !s.seeksRef || !s.on Obj.REFCLK_FREQ || decide (200 < s.clk.refPpm.natAbs) then s else
    (s.setVal Obj.PLL_LOCK 1 8).setClk fun c => { c with nextTick := some 0 }

/-- `CD_PLL_LOCK` (02 R49). -/
def execCdPllLock (s : State) : Out := .next s.cdPllLock

/-- `PLL_LOCK_TIMEOUT` (02 R45): no lock within 10 ms counts as a failed measurement. -/
def execPllLockTimeout (s : State) : Out := .next (if s.seeksRef && s.on Obj.REFCLK_FREQ then s.refFails else s)

/-- `TIME_STATE` leaves `LOCKED` (02 R52, R53). -/
def State.timeHoldover (s : State) : State :=
  if s.val Obj.TIME_STATE != 1 then s else
    let s := (s.setVal Obj.TIME_STATE 2).setInfo fun i => { i with unlocked := true }
    let s := s.setClk fun c => { c with relockRun := 0 }
    s.raise 0x0003 0 0 (leBytes 1 2)

/-- `HOLDOVER` is left once the PLL is locked and enough edges in a row were in window (02 R52). -/
def State.timeRelock (s : State) : State :=
  if s.val Obj.TIME_STATE = 2 ∧ s.clk.holdover = false ∧ s.nat Obj.PPS_RELOCK_COUNT ≤ s.clk.relockRun then
    s.setVal Obj.TIME_STATE 1
  else s

/-- The concentrator PLL enters holdover (02 R46). -/
def State.refLoss (s : State) : State :=
  if s.clk.holdover then s.setClk fun c => { c with slewing := false }
  else if !s.on Obj.PLL_LOCK 8 then s
  else
    let s := (s.setVal Obj.PLL_LOCK 0 8).inc Obj.PLL_UNLOCK_COUNT 8
    let s := s.setClk fun c => { c with holdover := true }
    ((s.dllDrop 8 true).logFault 0x1004 5 0).timeHoldover

/-- `REFCLK_LOSS` (02 R46). -/
def execRefclkLoss (s : State) : Out := .next s.refLoss

/-- `REFCLK_RETURN` (02 R46): one within ±200 ppm of the adopted frequency is re-acquired by slewing. -/
def execRefclkReturn (ppm : Int) (s : State) : Out :=
  .next (if s.clk.holdover && decide (ppm.natAbs ≤ 200) then s.setClk fun c => { c with slewing := true } else s)

/-- `PLL_SLEW_DONE` (02 R46): the holdover ends. -/
def execPllSlewDone (s : State) : Out :=
  .next (
    if !s.clk.slewing then s else
      ((s.setClk fun c => { c with slewing := false, holdover := false }).setVal Obj.PLL_LOCK 1 8).timeRelock)

/-! ### Reader-die PLLs (02 R47; 14 R310) -/

/-- Every input of a die carries `TIME_UNLOCKED` for the current tick (02 R53). -/
def State.dieUnlocked (s : State) (d : Nat) : State :=
  (List.range 32).foldl (fun s i => s.mark (32 * d + i) Flag.timeUnlocked) s

/-- A reader-die PLL loses lock (02 R47). -/
def State.pllUnlock (s : State) (d : Nat) : State :=
  if !s.on Obj.PLL_LOCK d then s else
    let s := ((s.setVal Obj.PLL_LOCK 0 d).inc Obj.PLL_UNLOCK_COUNT d).dllDrop d true
    (s.setClk fun c => { c with pllLost := smPut 0 c.pllLost d (c.ord + 1) }).dieUnlocked d

/-- `READER_PLL_UNLOCK` (02 R47). -/
def execReaderPllUnlock (d : Rd) (s : State) : Out := .next (s.pllUnlock d)

/-- A reader-die PLL locks again: its region pipelines restart at the next boundary (02 R47; 05 R120). -/
def State.pllRelock (s : State) (d : Nat) : State :=
  if s.on Obj.PLL_LOCK d || smGet 0 s.clk.pllLost d = 0 then s else
    let s := (s.setVal Obj.PLL_LOCK 1 d).setClk fun c => { c with pllLost := smPut 0 c.pllLost d 0 }
    let s := s.dieUnlocked d
    [2 * d, 2 * d + 1].foldl (fun s g => s.setRg g fun x => { x with restartDue := true }) s

/-- `READER_PLL_RELOCK` (02 R47). -/
def execReaderPllRelock (d : Rd) (s : State) : Out := .next (s.pllRelock d)

/-- The boundary since which a die's PLL is awaited: a loss of lock, or the die's soft reset. -/
def State.pllAwaited (s : State) (d : Nat) : Option Nat :=
  if s.on Obj.PLL_LOCK d || s.dieOut d then none
  else if smGet 0 s.clk.pllLost d ≠ 0 then some (smGet 0 s.clk.pllLost d - 1)
  else if smGet 0 s.cont.resetting d ≠ 0 then some (smGet 0 s.cont.resetting d - 1)
  else none

/-- A PLL that did not lock again within 256 ticks: the die is isolated (02 R47; 20 R476). -/
def State.pllTimeout (s : State) (d wait : Nat) : State :=
  match s.pllAwaited d with
  | some o => if o + wait ≤ s.clk.ord then s.faultDie d 0x2010 else s
  | none => s

/-- `READER_PLL_RELOCK_TIMEOUT` (02 R47). -/
def execReaderPllRelockTimeout (d : Rd) (s : State) : Out := .next (s.pllTimeout d 256)

/-- `READER_PLL_LOCK` (14 R310; 20 R476): the PLL of a die that starts up or is under soft reset locks. -/
def execReaderPllLock (d : Rd) (s : State) : Out :=
  .next (
    if s.on Obj.PLL_LOCK d || s.dieOff d || smGet 0 s.clk.pllLost d.val != 0 || s.boot.step == 0 || !(s.on Obj.PLL_LOCK 8 || s.clk.holdover) then s
    else s.setVal Obj.PLL_LOCK 1 d)

/-! ### Time set and the pulse per second (02 R50-R53) -/

/-- A second in TU. -/
def secondTu : Nat := 131072000000

/-- The effect of an accepted write of `TIME_SET`: armed, and a pending mode request cancelled (02 R50; 20 R484). -/
def State.writeTimeSet (s : State) (v : Nat) : State :=
  let s := (s.setVal Obj.TIME_SET v).setClk fun c => { c with armed := some v, armedOrd := c.ord }
  s.modeFail St.MODE true

/-- The armed time set is given up after 2 s (02 R50). -/
def State.timeSetExpire (s : State) : State :=
  if s.clk.armed.isNone || decide (s.clk.ord < s.clk.armedOrd + 500000) then s
  else (s.setClk fun c => { c with armed := none }).raise 0x0002 0 0 []

/-- `TIME_SET_TIMEOUT` (02 R50). Assumption log 13, DESIGN CHOICE. -/
def execTimeSetTimeout (s : State) : Out := .next s.timeSetExpire

/-- A second judged without an edge in window (02 R51, R52). Assumption log 38, DEDUCED. -/
def State.ppsBad (s : State) (second : Nat) : State :=
  let s := (s.inc Obj.PPS_MISSING_COUNT).setClk fun c => { c with ppsSecond := some second, relockRun := 0 }
  s.timeHoldover

/-- Whether a second has been judged already (02 R51): the last second judged is it or a later one. -/
def State.ppsJudged (s : State) (second : Nat) : Bool :=
  match s.clk.ppsSecond with
  | some k => decide (second ≤ k)
  | none => false

/-- An edge of a second while time is `LOCKED` or `HOLDOVER` (02 R51, R52). Assumption log 38, DEDUCED. -/
def State.ppsJudge (s : State) (stamp : Nat) : State :=
  let second := (2 * stamp + secondTu) / (2 * secondTu)
  if s.ppsJudged second then s else
    let off : Int := stamp - second * secondTu
    let fits := decide (-(2 ^ 31) ≤ off ∧ off < 2 ^ 31)
    let (v, s) := if fits then (off, s) else let q := s.free (2 ^ 32); (ofTwos 32 q.1, q.2)
    let s := s.setVal Obj.PPS_OFFSET v
    if off.natAbs ≤ s.nat Obj.PPS_WINDOW then
      let run := if s.val Obj.TIME_STATE = 2 then s.clk.relockRun + 1 else 0
      (s.setClk fun c => { c with ppsSecond := some second, relockRun := run }).timeRelock
    else s.ppsBad second

/-- The stamp of a `PPS` edge (02 R50; 14 R309). -/
def State.ppsStamp (s : State) (e : TdcEdge) : Nat :=
  let p := leNat (slice (s.blob Obj.TDC_CAL_TABLE 272) (2 * e.code.val) 2)
  (divAway ((256 * (s.tick * 2 ^ 19 + e.period.val * 64) + p : Nat) : Int) 256).toNat

/-- A `PPS` edge (02 R50, R51). -/
def State.ppsEdge (s : State) (e : TdcEdge) : State :=
  if !s.on Obj.PPS_ENABLE || !Mode.ppsTdc s.mode || (s.val Obj.PPS_EDGE == 1) == e.rising then s else
    let stamp := s.ppsStamp e
    match s.clk.armed with
    | some v =>
      let s := if s.mode = Mode.CALIBRATE then s else s.tdcEdge 272 e
      (s.setClk fun c => { c with armed := none, nextTick := some (v / 2 ^ 19), short := true }).setInfo fun i => { i with unlocked := true }
    | none =>
      if s.val Obj.TIME_STATE = 0 then s else
        let s := if s.mode = Mode.CALIBRATE then s else s.tdcEdge 272 e
        s.ppsJudge stamp

/-- `PPS_EDGE` (02 R51). -/
def execPpsEdge (e : TdcEdge) (s : State) : Out := .next (s.ppsEdge e)

/-- No edge came by the start of the second plus the window; `now` is a time not yet passed (02 R51). -/
def State.ppsMissing (s : State) (now : Nat) : State :=
  let second := s.tick / 250000
  if s.val Obj.TIME_STATE = 0 || !s.on Obj.PPS_ENABLE || s.ppsJudged second ||
      decide (now ≤ second * secondTu + s.nat Obj.PPS_WINDOW) then s
  else s.ppsBad second

/-- `PPS_MISSING` (02 R51): the time comes within the current tick. -/
def execPpsMissing (s : State) : Out := .next (s.ppsMissing ((s.tick + 1) * 2 ^ 19))

/-- The effect of an accepted write of `PPS_ENABLE` (02 R52). -/
def State.writePpsEnable (s : State) (v : Int) : State :=
  let s := s.setVal Obj.PPS_ENABLE v
  if v = 0 then (s.setClk fun c => { c with relockRun := 0 }).timeHoldover else s

/-- The boundary that a time set gives (02 R50): the tick is that of the value set, and the first on the new count, so it is not
`TIME_UNLOCKED` by the state before (02 R53). -/
def State.timeSetDone (s : State) : State :=
  let old := ((s.infoAt 1).tick + 1) * 2 ^ 19
  let s := (s.trigStep old (s.tick * 2 ^ 19)).ctrlStep old (s.tick * 2 ^ 19)
  let s := s.setClk fun c => { c with ppsSecond := some (c.tick / 250000), relockRun := 0, short := false }
  let s := s.setInfo fun i => { i with unlocked := false }
  let s := (s.setVal Obj.TIME_STATE 1).raise 0x0001 0 0 (leBytes 9 (s.tick * 2 ^ 19))
  (List.range 16).foldl (fun s g => if s.regionRuns g then s.regionRestart g else s) s

/-- The first tick a region's coder table applies to, as ticks are numbered now (16 R378). -/
def State.coderTabSince (s : State) (g : Nat) : Nat :=
  match (s.tab 9 g).swapOrd with
  | some o => s.tick - (s.clk.ord - o)
  | none => 0

/-- The bookkeeping of a second (02 R51; 10 R228; 16 R377, R378; 17 R414). Assumption log 14, DESIGN CHOICE. -/
def State.secondDo (s : State) : State :=
  match s.clk.secondDue with
  | none => s
  | some t =>
    let s := s.setClk fun c => { c with secondDue := none }
    let s := (s.deadStore (t * 2 ^ 19)).queueStatus
    let s := (List.range 16).foldl (fun s g => s.queueCoderTab g (s.coderTabSince g)) s
    { s with sdp := { s.sdp with sessions := s.sdp.sessions.map fun x => { x with sentThisSecond := 0 } } }

/-- `SECOND_BOUNDARY` (02 R51). -/
def execSecondBoundary (s : State) : Out := .next s.secondDo

/-! ### Crossings (02 R55-R57, R536) -/

/-- The number of a crossing (02 R536). -/
def crossingNumber : Crossing → Nat
  | .reader d => 0x1000 + d
  | .lane l => 0x2000 + l
  | .dram st => 0x3000 + st
  | .concentrator c => 0x4000 + c
  | .fieldNet => 0x5000

/-- A source clock has stopped (02 R56). -/
def State.clockStopped (s : State) (c : Crossing) : State :=
  let s := s.setVal Obj.CDC_LAST_STOPPED (crossingNumber c)
  match c with
  | .reader d => s.faultDie d 0x2011
  | .lane l => if Lane.TRAIN ≤ s.laneState l ∧ s.laneState l ≤ Lane.ACTIVE then s.laneTo l Lane.DETECT else s
  | .dram st => s.fatal 0x3031 11 st
  | .concentrator _ => s.fatal 0x3030 5 0
  | .fieldNet => s.setVal Obj.NET_LINK_STATE 0

/-- `CLOCK_STOPPED` (02 R56). -/
def execClockStopped (c : Crossing) (s : State) : Out := .next (if s.boot.step = 0 then s else s.clockStopped c)

/-- A crossing's two sides have met (02 R57); a reader die's only once its PLL is locked (20 R478). The crossings of the engines are
those of the engine clock (02 R536). -/
def State.handshake (s : State) (c : Crossing) : State :=
  match c with
  | .reader d =>
    if smGet 0 s.cont.resetting d.val = 0 || !s.on Obj.PLL_LOCK d then s
    else s.setCont fun x => { x with shaken := if x.shaken.contains d.val then x.shaken else x.shaken ++ [d.val] }
  | .concentrator 0 =>
    { s.setClk fun k => { k with flushing := k.flushing.filter (· != .concentrator 0) } with
      engs := smEach {} (fun _ (x : Eng) => { x with shaking := false }) s.engs }
  | c => s.setClk fun k => { k with flushing := k.flushing.filter (· != c) }

/-- `CDC_HANDSHAKE_DONE` (02 R57). -/
def execCdcHandshakeDone (c : Crossing) (s : State) : Out := .next (s.handshake c)

end Sys2Proof.Machine
end

