-- ==== Sys2Proof/Machine/Crypto.lean ====
section
/-! DEFINITION. The functions of published standards that the images and the dictionary protocol use (00 R9): SHA-256 and SHA-512
(FIPS 180-4), HMAC-SHA-256 (RFC 2104) and the verification of a pure Ed25519 signature (RFC 8032). -/

namespace Sys2Proof.Machine

/-! ### SHA-256 and SHA-512 (FIPS 180-4) -/

/-- A big-endian number. -/
def beNat (l : List Byte) : Nat := l.foldl (fun a b => a * 256 + b.toNat) 0

/-- A number in big-endian bytes. -/
def beBytes (n v : Nat) : List Byte := (leBytes n v).reverse

/-- One of the two hashes: the bytes of a word, the amounts of its four sigma functions (FIPS 180-4, 4.1), the round constants and
the initial value. -/
structure Sha where
  word  : Nat
  big0  : Nat × Nat × Nat
  big1  : Nat × Nat × Nat
  small0 : Nat × Nat × Nat
  small1 : Nat × Nat × Nat
  k     : List Nat
  init  : List Nat
deriving DecidableEq, Repr

/-- The modulus of a word. -/
def Sha.modulus (h : Sha) : Nat := 2 ^ (8 * h.word)

/-- A word rotated right. -/
def Sha.rotr (h : Sha) (x n : Nat) : Nat := (x >>> n) ||| (x <<< (8 * h.word - n)) % h.modulus

/-- Three rotations, added bit by bit. -/
def Sha.big (h : Sha) (r : Nat × Nat × Nat) (x : Nat) : Nat := h.rotr x r.1 ^^^ h.rotr x r.2.1 ^^^ h.rotr x r.2.2

/-- Two rotations and a shift, added bit by bit. -/
def Sha.small (h : Sha) (r : Nat × Nat × Nat) (x : Nat) : Nat := h.rotr x r.1 ^^^ h.rotr x r.2.1 ^^^ (x >>> r.2.2)

/-- The message schedule, last word first: `n` words more. -/
def Sha.schedule (h : Sha) : Nat → List Nat → List Nat
  | 0, w => w
  | n + 1, w => h.schedule n
      ((h.small h.small1 (nth 0 w 1) + nth 0 w 6 + h.small h.small0 (nth 0 w 14) + nth 0 w 15) % h.modulus :: w)

/-- One round on the eight working variables. -/
def Sha.round (h : Sha) (v : List Nat) (kw : Nat) : List Nat :=
  match v with
  | [a, b, c, d, e, f, g, x] =>
    let ch := (e &&& f) ^^^ ((h.modulus - 1 - e) &&& g)
    let maj := (a &&& b) ^^^ (a &&& c) ^^^ (b &&& c)
    let t1 := x + h.big h.big1 e + ch + kw
    [(t1 + h.big h.big0 a + maj) % h.modulus, a, b, c, (d + t1) % h.modulus, e, f, g]
  | _ => v

/-- The hash value after one block. -/
def Sha.block (h : Sha) (v : List Nat) (m : List Byte) : List Nat :=
  let w := (h.schedule (h.k.length - 16) ((chunks h.word 16 m).map beNat).reverse).reverse
  let u := ((h.k.zip w).map fun p => p.1 + p.2).foldl h.round v
  (v.zip u).map fun p => (p.1 + p.2) % h.modulus

/-- The message padded to whole blocks of 16 words: a one bit, zeros, and the length in bits in two words. -/
def Sha.pad (h : Sha) (m : List Byte) : List Byte :=
  let b := 16 * h.word
  let tail := 2 * h.word
  let z := (b - (m.length + 1 + tail) % b) % b
  m ++ [0x80] ++ List.replicate z 0 ++ beBytes tail (8 * m.length)

/-- The hash of a message. -/
def Sha.hash (h : Sha) (m : List Byte) : List Byte :=
  let p := h.pad m
  ((chunks (16 * h.word) (p.length / (16 * h.word)) p).foldl h.block h.init).flatMap (beBytes h.word)

/-- The constants of SHA-256: the fractions of the cube roots of the first 64 primes. -/
def sha256K : List Nat :=
  [0x428a2f98, 0x71374491, 0xb5c0fbcf, 0xe9b5dba5, 0x3956c25b, 0x59f111f1, 0x923f82a4, 0xab1c5ed5] ++
  [0xd807aa98, 0x12835b01, 0x243185be, 0x550c7dc3, 0x72be5d74, 0x80deb1fe, 0x9bdc06a7, 0xc19bf174] ++
  [0xe49b69c1, 0xefbe4786, 0x0fc19dc6, 0x240ca1cc, 0x2de92c6f, 0x4a7484aa, 0x5cb0a9dc, 0x76f988da] ++
  [0x983e5152, 0xa831c66d, 0xb00327c8, 0xbf597fc7, 0xc6e00bf3, 0xd5a79147, 0x06ca6351, 0x14292967] ++
  [0x27b70a85, 0x2e1b2138, 0x4d2c6dfc, 0x53380d13, 0x650a7354, 0x766a0abb, 0x81c2c92e, 0x92722c85] ++
  [0xa2bfe8a1, 0xa81a664b, 0xc24b8b70, 0xc76c51a3, 0xd192e819, 0xd6990624, 0xf40e3585, 0x106aa070] ++
  [0x19a4c116, 0x1e376c08, 0x2748774c, 0x34b0bcb5, 0x391c0cb3, 0x4ed8aa4a, 0x5b9cca4f, 0x682e6ff3] ++
  [0x748f82ee, 0x78a5636f, 0x84c87814, 0x8cc70208, 0x90befffa, 0xa4506ceb, 0xbef9a3f7, 0xc67178f2]

/-- The constants of SHA-512: the fractions of the cube roots of the first 80 primes. -/
def sha512K : List Nat :=
  [0x428a2f98d728ae22, 0x7137449123ef65cd, 0xb5c0fbcfec4d3b2f, 0xe9b5dba58189dbbc, 0x3956c25bf348b538] ++
  [0x59f111f1b605d019, 0x923f82a4af194f9b, 0xab1c5ed5da6d8118, 0xd807aa98a3030242, 0x12835b0145706fbe] ++
  [0x243185be4ee4b28c, 0x550c7dc3d5ffb4e2, 0x72be5d74f27b896f, 0x80deb1fe3b1696b1, 0x9bdc06a725c71235] ++
  [0xc19bf174cf692694, 0xe49b69c19ef14ad2, 0xefbe4786384f25e3, 0x0fc19dc68b8cd5b5, 0x240ca1cc77ac9c65] ++
  [0x2de92c6f592b0275, 0x4a7484aa6ea6e483, 0x5cb0a9dcbd41fbd4, 0x76f988da831153b5, 0x983e5152ee66dfab] ++
  [0xa831c66d2db43210, 0xb00327c898fb213f, 0xbf597fc7beef0ee4, 0xc6e00bf33da88fc2, 0xd5a79147930aa725] ++
  [0x06ca6351e003826f, 0x142929670a0e6e70, 0x27b70a8546d22ffc, 0x2e1b21385c26c926, 0x4d2c6dfc5ac42aed] ++
  [0x53380d139d95b3df, 0x650a73548baf63de, 0x766a0abb3c77b2a8, 0x81c2c92e47edaee6, 0x92722c851482353b] ++
  [0xa2bfe8a14cf10364, 0xa81a664bbc423001, 0xc24b8b70d0f89791, 0xc76c51a30654be30, 0xd192e819d6ef5218] ++
  [0xd69906245565a910, 0xf40e35855771202a, 0x106aa07032bbd1b8, 0x19a4c116b8d2d0c8, 0x1e376c085141ab53] ++
  [0x2748774cdf8eeb99, 0x34b0bcb5e19b48a8, 0x391c0cb3c5c95a63, 0x4ed8aa4ae3418acb, 0x5b9cca4f7763e373] ++
  [0x682e6ff3d6b2b8a3, 0x748f82ee5defb2fc, 0x78a5636f43172f60, 0x84c87814a1f0ab72, 0x8cc702081a6439ec] ++
  [0x90befffa23631e28, 0xa4506cebde82bde9, 0xbef9a3f7b2c67915, 0xc67178f2e372532b, 0xca273eceea26619c] ++
  [0xd186b8c721c0c207, 0xeada7dd6cde0eb1e, 0xf57d4f7fee6ed178, 0x06f067aa72176fba, 0x0a637dc5a2c898a6] ++
  [0x113f9804bef90dae, 0x1b710b35131c471b, 0x28db77f523047d84, 0x32caab7b40c72493, 0x3c9ebe0a15c9bebc] ++
  [0x431d67c49c100d4c, 0x4cc5d4becb3e42b6, 0x597f299cfc657e2a, 0x5fcb6fab3ad6faec, 0x6c44198c4a475817]

/-- SHA-256. -/
def sha256Of : Sha :=
  { word := 4, big0 := (2, 13, 22), big1 := (6, 11, 25), small0 := (7, 18, 3), small1 := (17, 19, 10), k := sha256K
    init := [0x6a09e667, 0xbb67ae85, 0x3c6ef372, 0xa54ff53a, 0x510e527f, 0x9b05688c, 0x1f83d9ab, 0x5be0cd19] }

/-- SHA-512. -/
def sha512Of : Sha :=
  { word := 8, big0 := (28, 34, 39), big1 := (14, 18, 41), small0 := (1, 8, 7), small1 := (19, 61, 6), k := sha512K
    init := [0x6a09e667f3bcc908, 0xbb67ae8584caa73b, 0x3c6ef372fe94f82b, 0xa54ff53a5f1d36f1] ++
  [0x510e527fade682d1, 0x9b05688c2b3e6c1f, 0x1f83d9abfb41bd6b, 0x5be0cd19137e2179] }

/-- SHA-256 of a message, 32 bytes (00 R9). -/
def sha256 (m : List Byte) : List Byte := sha256Of.hash m

/-- SHA-512 of a message, 64 bytes (00 R9). -/
def sha512 (m : List Byte) : List Byte := sha512Of.hash m

/-! ### HMAC-SHA-256 (RFC 2104) -/

/-- HMAC-SHA-256 of a message under a key, 32 bytes (00 R9). -/
def hmac (key m : List Byte) : List Byte :=
  let k := if 64 < key.length then sha256 key else key
  let k := k ++ List.replicate (64 - k.length) 0
  sha256 (k.map (· ^^^ 0x5C) ++ sha256 (k.map (· ^^^ 0x36) ++ m))

/-! ### Ed25519 (RFC 8032) -/

/-- The prime of the field. -/
def edP : Nat := 2 ^ 255 - 19

/-- The order of the base point. -/
def edL : Nat := 2 ^ 252 + 27742317777372353535851937790883648493

/-- The constant of the curve. -/
def edD : Nat := 37095705934669439343138083508754565189542113879843219016388785533085940283555

/-- A power in the field, by the exponent's bits from the top; `n` is their number. -/
def edPow (x e n : Nat) : Nat :=
  (List.range n).reverse.foldl (fun a i => let q := a * a % edP; if e.testBit i then q * x % edP else q) 1

/-- A point in extended coordinates: X, Y, Z and T = XY/Z. -/
structure EdPoint where
  x : Nat
  y : Nat
  z : Nat
  t : Nat
deriving DecidableEq, Repr

/-- The sum of two points (RFC 8032, 5.1.4). -/
def EdPoint.add (u v : EdPoint) : EdPoint :=
  let sub (a b : Nat) : Nat := (a + edP - b % edP) % edP
  let a := sub u.y u.x * sub v.y v.x % edP
  let b := (u.y + u.x) * (v.y + v.x) % edP
  let c := u.t * 2 * edD * v.t % edP
  let d := u.z * 2 * v.z % edP
  let e := sub b a
  let f := sub d c
  let g := (d + c) % edP
  let h := (b + a) % edP
  { x := e * f % edP, y := g * h % edP, z := f * g % edP, t := e * h % edP }

/-- A multiple of a point, by the scalar's 256 bits from the top. -/
def EdPoint.mul (p : EdPoint) (k : Nat) : EdPoint :=
  (List.range 256).reverse.foldl (fun a i => let q := a.add a; if k.testBit i then q.add p else q) { x := 0, y := 1, z := 1, t := 0 }

/-- Whether two points are the same. -/
def EdPoint.same (u v : EdPoint) : Bool := u.x * v.z % edP == v.x * u.z % edP && u.y * v.z % edP == v.y * u.z % edP

/-- A point from its 32 bytes (RFC 8032, 5.1.3). -/
def edDecode (l : List Byte) : Option EdPoint :=
  let v := leNat l
  let y := v % 2 ^ 255
  let sign := v / 2 ^ 255 % 2
  if edP ≤ y then none else
    let u := (y * y + edP - 1) % edP
    let w := (edD * (y * y) + 1) % edP
    let r := u * edPow w 3 2 * edPow (u * edPow w 7 3 % edP) ((edP - 5) / 8) 252 % edP
    let x := if w * r * r % edP = u then some r
      else if w * r * r % edP = (edP - u) % edP then some (r * edPow 2 ((edP - 1) / 4) 253 % edP)
      else none
    match x with
    | none => none
    | some x =>
      if x = 0 ∧ sign = 1 then none else
        let x := if x % 2 = sign then x else edP - x
        some { x, y, z := 1, t := x * y % edP }

/-- The base point. -/
def edBase : EdPoint :=
  let x := 15112221349535400772501151409588531511454012693041857206046113283949847762202
  let y := 46316835694926478169428394003475163141307993866256225615783033603165251855960
  { x, y, z := 1, t := x * y % edP }

/-- Whether a pure Ed25519 signature of a message verifies under a public key (00 R9; RFC 8032, 5.1.7). -/
def ed25519 (key m sig : List Byte) : Bool :=
  let s := leNat (slice sig 32 32)
  match edDecode key, edDecode (slice sig 0 32) with
  | some a, some r =>
    let k := leNat (sha512 (slice sig 0 32 ++ key ++ m)) % edL
    key.length == 32 && sig.length == 64 && decide (s < edL) && ((edBase.mul s).mul 8).same ((r.add (a.mul k)).mul 8)
  | _, _ => false

end Sys2Proof.Machine
end

