-- ==== Sys2Proof/Machine/Images.lean ====
section
/-! DEFINITION. Images, fuses, the application's supervision, engine loads, spill copies and the services of engines
(08 R189-R193; 19). -/

namespace Sys2Proof.Machine

/-! ### Slots and images (19 R449-R454) -/

/-- The offset of a slot in the MRAM (19 R449). -/
def slotOffset (slot : Nat) : Nat :=
  match slot with | 0 => 0 | 1 => 0x20000 | 2 => 0xD0000 | 3 => 0x4D1000 | n => 0x8D2000 + (n - 4) * 0x31000

/-- The bytes of a slot. -/
def slotBytes (slot : Nat) : Nat := if slot < 2 then 0x20000 else if slot < 4 then 4100 * 1024 else 0x31000

/-- The address of a byte of a slot. -/
def slotAddr (slot off : Nat) : Nat := spaceBase 1 + slotOffset slot + off

/-- A field of the header of the image in a slot, as stored (19 R451). -/
def State.imgField (s : State) (slot off n : Nat) : Nat := leNat (s.bytes (slotAddr slot off) n)

/-- The `KIND` of the images of a slot (19 R453). -/
def slotKind (slot : Nat) : Nat := if slot < 2 then 1 else if slot < 4 then 2 else 3

/-- `TEXT_LEN`. -/
def State.imgText (s : State) (slot : Nat) : Nat := s.imgField slot 0x10 4

/-- `DATA_LEN`. -/
def State.imgData (s : State) (slot : Nat) : Nat := s.imgField slot 0x14 4

/-- The body of the image in a slot (19 R450). -/
def State.imgBody (s : State) (slot : Nat) : List Byte := s.bytes (slotAddr slot 4096) (s.imgText slot + s.imgData slot)

/-- Step 1 of 19 R454. -/
def State.imgShape (s : State) (slot : Nat) : Bool :=
  s.imgField slot 0 4 == 0x49464C4B && s.imgField slot 4 1 == slotKind slot && s.imgField slot 6 2 == 0 &&
    s.imgField slot 0x24 28 == 0 && s.imgField slot 0xA0 32 == 0

/-- Step 2: the limits of 19 R453, and the image within its slot. -/
def State.imgFits (s : State) (slot : Nat) : Bool :=
  let t := s.imgText slot
  let d := s.imgData slot
  let lim := match slotKind slot with
    | 1 => decide (t ≤ 98304) && d == 0
    | 2 => decide (t + d ≤ 4 * 2 ^ 20)
    | _ => decide (t ≤ 65536 ∧ d ≤ 131072 ∧ s.imgField slot 0x18 4 < t / 4 ∧ s.imgField slot 0x1C 4 < t / 4)
  lim && decide (4 ≤ t) && t % 4 == 0 && d % 4 == 0 && decide (4096 + t + d ≤ slotBytes slot)

/-- The fuse hash of a key (19 R455). -/
def State.keyHash (s : State) (k : Nat) : List Byte :=
  if k = 0 then s.blob Obj.FUSE_VENDOR_HASH else s.blob Obj.FUSE_OWNER_KEY 0 k

/-- Step 3: the key permitted, its hash burnt, and not revoked. -/
def State.imgKeyOk (s : State) (slot : Nat) : Bool :=
  let k := s.imgField slot 5 1
  (if slotKind slot = 1 then k == 0 else decide (k ≤ 4)) &&
    slice (sha256 (s.bytes (slotAddr slot 0x40) 32)) 0 32 == slice (s.keyHash k) 0 32 &&
    (k == 0 || !s.on Obj.FUSE_OWNER_REVOKE 0 k)

/-- Steps 5: the signature (19 R452). -/
def State.imgSigned (s : State) (slot : Nat) : Bool :=
  ed25519 (s.bytes (slotAddr slot 0x40) 32) (sha512 (s.bytes (slotAddr slot 0) 0x60 ++ s.imgBody slot))
    (s.bytes (slotAddr slot 0x60) 64)

/-- The first failing step of 19 R454 with its status, `none` when all pass. -/
def State.imgVerify (s : State) (slot : Nat) : Option (Nat × Nat) :=
  if !s.imgShape slot then some (1, St.RANGE)
  else if !s.imgFits slot then some (2, St.LENGTH)
  else if !s.imgKeyOk slot then some (3, St.TRUST)
  else if crc32c (s.imgBody slot) ≠ s.imgField slot 0x20 4 then some (4, St.CHECK)
  else if !s.imgSigned slot then some (5, St.TRUST)
  else if slotKind slot = 1 && decide (s.imgField slot 0x0C 4 < s.nat Obj.ROLLBACK_FUSE) then some (6, St.TRUST)
  else none

/-- `IMAGE_STATE` values (19 R466). -/
def imgEMPTY : Int := 0
/-- `WRITING`. -/
def imgWRITING : Int := 1
/-- `WRITTEN`. -/
def imgWRITTEN : Int := 2
/-- `VALID`. -/
def imgVALID : Int := 3
/-- `INVALID`. -/
def imgINVALID : Int := 4

/-- `IMAGE_STATE` of a slot. -/
def State.imgState (s : State) (slot : Nat) : Int := s.val Obj.IMAGE_STATE 0 (slot + 1)

/-- The state with `IMAGE_STATE` of a slot set. -/
def State.setImgState (s : State) (slot : Nat) (v : Int) : State := s.setVal Obj.IMAGE_STATE v 0 (slot + 1)

/-- Whether the image in a slot may be started: it passes 19 R454, and no upload of it stands unverified (19 R465). -/
def State.slotPasses (s : State) (slot : Nat) : Bool :=
  s.imgState slot != imgWRITING && s.imgState slot != imgWRITTEN && (s.imgVerify slot).isNone

/-- A slot has failed verification at a start: a `VALID` one is `INVALID`. Assumption log 62, DEDUCED. -/
def State.slotFails (s : State) (slot : Nat) : State := if s.imgState slot = imgVALID then s.setImgState slot imgINVALID else s

/-- Whether a slot runs, or is being started (19 R465, R466). -/
def State.slotRuns (s : State) (slot : Nat) : Bool :=
  (decide (slot < 2) && s.nat Obj.KERNEL_SLOT_RUNNING == slot) ||
    (decide (2 ≤ slot ∧ slot < 4) && (s.nat Obj.APP_SLOT_RUNNING == slot || s.app.starting == some slot))

/-- Whether a load from a program slot is in progress (19 R465). -/
def State.slotLoads (s : State) (slot : Nat) : Bool := decide (4 ≤ slot) && s.engs.any fun e => e.2.load == some (slot - 4)

/-- The effect of an accepted `IMAGE_VERIFY` (19 R465): a long action. -/
def State.writeImageVerify (s : State) (slot action : Nat) : State :=
  { s with acts := { s.acts with verifies := s.acts.verifies ++ [(slot, action)] } }

/-- A verification ends (19 R454, R465). -/
def State.imageVerified (s : State) (slot : Nat) : State :=
  match s.acts.verifies.find? fun v => v.1 == slot with
  | none => s
  | some v =>
    let s := { s with acts := { s.acts with verifies := s.acts.verifies.erase v } }
    match s.imgVerify slot with
    | none => (s.setImgState slot imgVALID).actionDone v.2 St.OK
    | some f => (s.setImgState slot imgINVALID).actionDone v.2 f.2

/-- `IMAGE_VERIFY_DONE` (19 R454). -/
def execImageVerifyDone (slot : Fin 68) (s : State) : Out := .next (s.imageVerified slot)

/-- The effect of an accepted `IMAGE_ERASE` (19 R466). -/
def State.writeImageErase (s : State) (slot : Nat) : State := (s.fillZero (slotAddr slot 0) (slotBytes slot)).setImgState slot imgEMPTY

/-! ### Fuses (19 R455, R456) -/

/-- A fuse burn starts: a long action. -/
def State.burnStart (s : State) (item num : Nat) (bytes : List Byte) (action : Nat) : State :=
  { s with acts := { s.acts with burn := some (item, num, bytes, action) } }

/-- The rollback level of the running kernel; the recovery kernel adds nothing to the fuses. -/
def State.kernelLevel (s : State) : Nat :=
  let k := s.nat Obj.KERNEL_SLOT_RUNNING
  if k < 2 then s.imgField k 0x0C 4 else 0

/-- The rollback counter rises; a kernel slot below it becomes `INVALID` (19 R456). -/
def State.rollbackBurnt (s : State) : State :=
  let lvl := Nat.max (s.nat Obj.ROLLBACK_FUSE) (Nat.min 64 s.kernelLevel)
  let s := s.setVal Obj.ROLLBACK_FUSE lvl
  [0, 1].foldl (fun s k => if s.imgState k != imgEMPTY && decide (s.imgField k 0x0C 4 < lvl) then s.setImgState k imgINVALID else s) s

/-- The burn ends (19 R455, R456). -/
def State.burnDone (s : State) : State :=
  match s.acts.burn with
  | none => s
  | some (item, num, bytes, action) =>
    let s := { s with acts := { s.acts with burn := none } }
    let s := match item with
      | 1 => s.setBlob Obj.FUSE_OWNER_KEY bytes 0 num
      | 2 => s.setVal Obj.FUSE_OWNER_REVOKE 1 0 num
      | _ => s.rollbackBurnt
    s.actionDone action St.OK

/-- `FUSE_BURN_DONE` (19 R455). -/
def execFuseBurnDone (s : State) : Out := .next s.burnDone

/-! ### The application's start (19 R460) -/

/-- The state with the application's supervision changed. -/
def State.setApp (s : State) (f : App → App) : State := { s with app := f s.app }

/-- Whether the application runs. -/
def State.appRuns (s : State) : Bool := s.val Obj.APP_STATE == 2 || s.val Obj.APP_STATE == 3

/-- The start of a slot begins. -/
def State.appBegin (s : State) (slot : Nat) : State :=
  ((s.setVal Obj.APP_STATE 1).setVal Obj.APP_SLOT_RUNNING 0xFF).setApp fun a => { a with starting := some slot }

/-- A slot has failed to start, or on trial (19 R460): logged, and the other slot is started, unless it has failed as well. A
fallback makes the other slot preferred and ends the trial. Assumption log 62, DEDUCED. -/
def State.appFailed (s : State) (slot : Nat) : State :=
  let other := 5 - slot
  let s := s.setApp fun a => { a with
    failed := if a.failed.contains slot then a.failed else a.failed ++ [slot], starting := none }
  if s.app.failed.contains other then (s.setVal Obj.APP_STATE 0).setVal Obj.APP_SLOT_RUNNING 0xFF
  else
    let s := (s.logFault 0x1F04 0 0 (leBytes 1 slot)).raise 0xF002 0 0 (leBytes 1 slot ++ leBytes 1 4)
    ({ s with boot := { s.boot with aPref := other, aTrial := false } } : State).appBegin other

/-- The application's body is copied and it starts, or its slot fails (19 R460). -/
def State.appStarted (s : State) : State :=
  match s.app.starting with
  | none => s
  | some slot =>
    if !s.slotPasses slot then (s.slotFails slot).appFailed slot
    else
      let s := s.copyMem (slotAddr slot 4096) appBase (s.imgText slot + s.imgData slot)
      let trial := s.boot.aTrial && s.boot.aPref == slot
      let s := ((s.setVal Obj.APP_STATE (if trial then 2 else 3)).setVal Obj.APP_SLOT_RUNNING slot).setVal Obj.APP_VERSION
        (s.imgField slot 8 4)
      s.setApp fun a => { a with starting := none, failed := [], startOrd := s.clk.ord, kickOrd := s.clk.ord }

/-- `APP_START_DONE` (19 R460). -/
def execAppStartDone (s : State) : Out := .next s.appStarted

/-! ### Engine commands and loads (08 R192, R193) -/

/-- The effect of an accepted `ENG_CMD` `LOAD` (08 R193): the image is verified before the engine is touched, and its copy is queued behind
those commanded before. -/
def State.writeEngLoad (s : State) (k : Nat) : State :=
  let p := s.nat Obj.ENG_PROGRAM k
  match s.imgVerify (4 + p) with
  | some f => s.raise 0x6003 6 k (leBytes 1 (if f.1 = 2 then St.LENGTH else St.TRUST))
  | none => { s.setEng k (fun x => { x with load := some p }) with engLoads := (s.engLoads.filter fun j => j != k) ++ [k] }

/-- The effect of an accepted `ENG_CMD` (08 R185, R192). -/
def State.writeEngCmd (s : State) (k : Nat) (v : Int) : State :=
  if v = 1 then s.writeEngLoad k
  else if v = 2 then s.engRestart k
  else if v = 3 then (if s.engState k = engRUNNING then s.engQuarantine k 0 else s)
  else s.engUnload k

/-- A load accepted leaves the engine `LOADING` from the next boundary (08 R192). -/
def State.engLoadBegin (s : State) (k : Nat) : State :=
  if (s.eng k).load.isNone || s.engState k == engLOADING then s
  else (s.setEngState k engLOADING).setEng k fun x => { x.clearStaged with active := false, yielded := false, waitTo := none, initNext := false }

/-- Whether the copy of an engine's image may complete: the engine is `LOADING`, and no load commanded before it waits (08 R192, R193). -/
def State.engCopying (s : State) (k : Nat) : Bool := s.engState k == engLOADING && s.engLoads.head? == some k

/-- A verified image is copied into the engine's memories, one engine at a time in order of command (08 R193). Assumption log 47, DEDUCED. -/
def State.engLoaded (s : State) (k : Nat) : State :=
  match (if s.engCopying k then (s.eng k).load else none) with
  | none => s
  | some p =>
    let s := { s with engLoads := s.engLoads.tail }
    let slot := 4 + p
    let t := s.imgText slot
    let d := s.imgData slot
    let s := (s.fillZero (imemAddr k 0) 0x10000).copyMem (slotAddr slot 4096) (imemAddr k 0) t
    let init := s.bytes (slotAddr slot (4096 + t)) d
    let s := (s.setEng k fun x => { x with
      load := none, initData := init, initAt := s.imgField slot 0x18 4, tickAt := s.imgField slot 0x1C 4 }).engSoftReset k
    let crc := crc32c (s.bytes (imemAddr k 0) t)
    let s := (s.setVal Obj.ENG_LOADED_CRC crc k).raise 0x6002 6 k (leBytes 4 crc)
    if Mode.engines s.mode then (s.setEngState k engRUNNING).setEng k fun x => { x with initNext := true }
    else s.setEngState k engREADY

/-- `ENG_LOAD_COPY_DONE` (08 R193). -/
def execEngLoadCopyDone (k : Se) (s : State) : Out := .next (s.engLoaded k)

/-! ### Service requests of engines (08 R190, R191) -/

/-- Whether a message is a service request (08 R189). -/
def isRequest (m : List Word) : Bool := decide (0x80 ≤ msgKind m ∧ msgKind m ≤ 0x8F)

/-- The request that the kernel serves next: the oldest in the outbound queue, once no spill copy of an earlier one waits (08 R191). -/
def State.engRequest (s : State) (k : Nat) : Option (List Word) :=
  if (s.eng k).spills.isEmpty then (s.eng k).outq.find? isRequest else none

/-- A served request leaves the outbound queue. Assumption log 48, DEDUCED. -/
def State.engTake (s : State) (k : Nat) (m : List Word) : State := s.setEng k fun x => { x with outq := x.outq.erase m }

/-- Requests of kinds that no service has are answered with `NO_OBJECT` as they come to be served (08 R190). -/
def State.engUnlisted (s : State) (k : Nat) : State :=
  (s.eng k).outq.foldl (fun s _ => match s.engRequest k with
    | none => s
    | some m => if msgKind m ≤ 0x82 then s else (s.engTake k m).engReply k (msgSeq m) St.NO_OBJECT) s

/-- The message of a row. -/
def msgList (m : Msg) : List Word := (List.range 8).map fun i => nth 0 m.words i

/-- The status of a `SUPP_PARAM` request, and the field's object (08 R190). -/
def State.suppParamStatus (s : State) (k : Nat) (p : List Byte) : Nat × Option ObjDef :=
  let idx := leNat (slice p 0 2)
  let v := leNat (slice p 2 4)
  if s.nat Obj.ENG_BANK_OWNER (k / 16) ≠ k % 16 then (St.ACCESS, none)
  else if idx < 0x4000 ∨ 0x4009 < idx then (St.RANGE, none)
  else match objAt idx with
  | none => (St.RANGE, none)
  | some o =>
    if (v : Int) < o.lo ∨ o.hi < (v : Int) ∨ (idx = 0x4009 ∧ v &&& 0x7E ≠ 0x7E) then (St.RANGE, none)
    else if s.shadowBusy 3 (k / 16) then (St.BUSY, none)
    else (St.OK, some o)

/-- `SUPP_PARAM`, of the engine's next request (08 R190). Assumption log 48, DEDUCED. -/
def State.suppParam (s : State) (k : Nat) (m : List Word) : State :=
  if s.engRequest k ≠ some m ∨ msgKind m ≠ 0x80 then s else
  let p := msgBytes m
  let r := s.suppParamStatus k p
  let s := s.engTake k m
  let s := match r.2 with
    | none => s
    | some o =>
      let s := s.setVal o (leNat (slice p 2 4)) (k / 16)
      if leNat (slice p 6 1) = 1 then s.commitTab 3 (k / 16) 0 else s
  (s.engReply k (msgSeq m) r.1).engUnlisted k

/-- `SUPP_PARAM` (08 R190). -/
def execSuppParam (k : Se) (req : Msg) (s : State) : Out := .next (s.suppParam k (msgList req))

/-- A spill request, the engine's next: its copy waits for a hand-out, or it is refused with `RANGE` (08 R190, R191). -/
def State.spillRequest (s : State) (k : Nat) (write : Bool) (m : List Word) : State :=
  if s.engRequest k ≠ some m ∨ msgKind m ≠ (if write then 0x81 else 0x82) then s else
  let p := msgBytes m
  let a := leNat (slice p 0 4)
  let o := leNat (slice p 4 4)
  let n := leNat (slice p 8 4)
  let s := s.engTake k m
  if n % 8 ≠ 0 ∨ n < 8 ∨ 4096 < n ∨ 0x20000 < a + n ∨ 2 ^ 20 < o + n then (s.engReply k (msgSeq m) St.RANGE).engUnlisted k
  else s.setEng k fun x => { x with spills := x.spills ++ [{ write, addr := a, offset := o, len := n, seq := msgSeq m }] }

/-- `SPILL_WRITE` (08 R190). -/
def execSpillWrite (k : Se) (req : Msg) (s : State) : Out := .next (s.spillRequest k true (msgList req))

/-- `SPILL_READ` (08 R190). -/
def execSpillRead (k : Se) (req : Msg) (s : State) : Out := .next (s.spillRequest k false (msgList req))

/-- The address of an engine's spill area (08 R190; 19 R460; assumption log 24, DESIGN CHOICE). -/
def spillAddr (k off : Nat) : Nat := appBase + 768 * 2 ^ 20 + k * 2 ^ 20 + off

/-- The oldest spill copy of an engine is made, in a hand-out phase, and its reply follows (08 R191). -/
def State.spillCopied (s : State) (k : Nat) : State :=
  match (if s.clk.pastCutoff then (s.eng k).spills else []) with
  | [] => s
  | x :: r =>
    let s := s.setEng k fun y => { y with spills := r }
    let s := if x.write then s.copyMem (dmemAddr k x.addr) (spillAddr k x.offset) x.len
      else s.copyMem (spillAddr k x.offset) (dmemAddr k x.addr) x.len
    (s.engReply k x.seq St.OK).engUnlisted k

/-- `SPILL_COPY_DONE` (08 R191). -/
def execSpillCopyDone (k : Se) (s : State) : Out := .next (s.spillCopied k)

end Sys2Proof.Machine
end

