-- ==== Sys2Proof/Machine/Boot.lean ====
section
/-! DEFINITION. Power-up, the resets of the module, the choice of the kernel and its trial (19 R457-R459; 20 R468-R475). -/

namespace Sys2Proof.Machine

/-- The state with start-up and the boot record changed. -/
def State.setBoot (s : State) (f : Boot → Boot) : State := { s with boot := f s.boot }

/-! ### Module-wide resets (20 R472) -/

/-- The indexes of the objects held in MRAM or fuses (17 R422; 20 R487; 15 R359; 19 R466; 21 R509). -/
def keptIdx : List Nat :=
  [0x0002, 0x0004, 0x0021, 0x1054, 0x1056, 0x1057, 0x9820, 0x9821, 0x9822, 0x9022, 0xB002, 0xB004, 0xB005, 0xB006, 0xB011,
   0xB040, 0xB041, 0xB084, 0xB085]

/-- A save that was under way leaves its slot with a CRC that does not match (17 R418; 20 R473). Assumption log 61, DEDUCED. -/
def State.cutSave (s : State) : State :=
  match s.sdp.saving with
  | none => s
  | some (slot, _, x) =>
    { s with sdp := { s.sdp with saving := none, sets := smUpd x s.sdp.sets slot fun _ => { x with valid := false } } }

/-- The elapsed ticks of the hour of automatic resets (20 R474). -/
def State.hourNow (s : State) : Option Nat := s.boot.hour.map fun n => n + (s.clk.ord - s.boot.hourOrd)

/-- The start-up unit after a reset of a kind with its cause: the boot record stays. -/
def State.bootAfter (s : State) (kind cause : Nat) (prev : Int) : Boot :=
  { kind, cause, prev, hour := if kind = 2 then s.hourNow else none
    kPref := s.boot.kPref, kTrial := s.boot.kTrial, kTried := s.boot.kTried, aPref := s.boot.aPref, aTrial := s.boot.aTrial }

/-- What of a dump survives a reset of a kind (20 R472; 21 R507): the DRAM dump a dump-preserving one, the MRAM copy every one. -/
def State.dumpAfter (s : State) (kind : Nat) : Faults :=
  let f := s.flt
  { dumpAcked := f.dumpAcked, dumpTick := f.dumpTick, dumpMode := f.dumpMode, dumpSeq := f.dumpSeq
    dumpDram := f.dumpDram && kind == 2, dumpCopy := f.dumpCopy
    dumpPart := f.dumpPart || (f.dumping && !f.dumpDram && kind == 2) }

/-- A module-wide reset: 0 cold, 1 warm, 2 dump-preserving (20 R472). What MRAM and fuses hold stays; every other object and
all other state is as after reset, and the module waits for start-up to begin. -/
def State.moduleReset (s : State) (kind cause : Nat) (prev : Int) : State :=
  let s := s.cutSave
  let kept := keptIdx
  let count : Nat := if kind = 0 then 0 else (s.nat Obj.RESET_COUNT + 1) % 2 ^ 32
  let auto := if kind = 2 then s.val Obj.HALT_AUTO_COUNT else 0
  let t : State := {
    vals := smKeep (fun k => kept.contains (keyIdx k)) s.vals
    blobs := smKeep (fun k => kept.contains (keyIdx k)) s.blobs
    sdp := { sets := s.sdp.sets }
    mem := s.mem
    poison := s.poison
    flt := s.dumpAfter kind
    boot := s.bootAfter kind cause prev
    freeCtr := s.freeCtr
    pending := s.pending }
  (t.setVal Obj.RESET_COUNT count).setVal Obj.HALT_AUTO_COUNT auto

/-- A reset the kernel itself makes: the pending counts of the fault log are written first (21 R498). -/
def State.kernelReset (s : State) (kind cause : Nat) : State := s.flushSpans.moduleReset kind cause s.mode

/-! ### Power and `RESET_N` (20 R468, R473) -/

/-- `PWR_GOOD_RISE` (20 R468): a cold reset. -/
def execPwrGoodRise (s : State) : Out := .next ((s.moduleReset 0 0 s.boot.prev).setBoot fun b => { b with power := true, low := false })

/-- What a fall of `PWR_GOOD` or a recognised low of `RESET_N` does (20 R473): feeds off, lanes idle, every datapath stopped. Assumption log 63, DEDUCED. -/
def State.stopAll (s : State) : State :=
  let s := s.cutSave.feedsOff
  let prev := s.mode
  let s := s.setVal Obj.MODE_NOW Mode.BOOT
  let s := (List.range 48).foldl (fun s l => if s.laneState l = Lane.OFF then s else s.laneTo l Lane.OFF) s
  s.setBoot fun b => { b with prev }

/-- `PWR_GOOD_FALL` (20 R473). -/
def execPwrGoodFall (s : State) : Out :=
  .next (
    if !s.boot.power then s else
      let s := if s.boot.low then s else s.stopAll
      s.setBoot fun b => { b with power := false, low := false, step := 0 })

/-- Whether a low period of `RESET_N` is recognised (20 R468), from 2 µs to 10 µs a free choice. Assumption log 37, DESIGN CHOICE. -/
def State.lowSeen (s : State) (ns : Nat) : Bool × State :=
  if ns < 2000 then (false, s)
  else if 10000 ≤ ns then (true, s)
  else let q := s.free 2; (q.1 == 1, q.2)

/-- `RESET_N_LOW` (20 R468, R473). -/
def execResetNLow (lowNs : Nat) (s : State) : Out :=
  .next (
    if s.boot.step = 0 || !s.boot.power || s.boot.low then s else
      let q := s.lowSeen lowNs
      if q.1 then q.2.stopAll.setBoot fun b => { b with low := true } else q.2)

/-- `RESET_N_RELEASE` (20 R472): dump-preserving in HALT with a dump held, warm otherwise. -/
def execResetNRelease (s : State) : Out :=
  .next (
    if !s.boot.low then s
    else if s.boot.prev = Mode.HALT then s.moduleReset (if s.val Obj.DUMP_STATE = 2 then 2 else 1) 5 s.boot.prev
    else s.moduleReset 1 1 s.boot.prev)

/-! ### Start-up (20 R468, R469) -/

/-- `START_UP_BEGIN` (20 R468, R469; 22 R527): the ID straps are sampled and step 1 begins. -/
def execStartUpBegin (straps : BitVec 12) (s : State) : Out :=
  .next (
    if s.boot.step ≠ 0 || !s.boot.power then s else
      let s := s.setBoot fun b => { b with step := 1 }
      (s.setVal Obj.MODULE_NUMBER straps.toNat).setVal Obj.NET_IP_ADDR (0x0A281000 + straps.toNat : Nat))

/-- A fill that fails is a fatal fault (18 R425). -/
def State.fillFails (s : State) (f : Option (Fin 4)) : State :=
  match f with
  | some st => s.fatal 0x3E05 11 st
  | none => s

/-- `ROM_BOOT_DONE` (20 R469): the fill controllers are started. -/
def execRomBootDone (fillFailure : Option (Fin 4)) (s : State) : Out :=
  .next (if s.boot.step ≠ 1 ∨ s.mode ≠ Mode.BOOT then s else (s.setBoot fun b => { b with step := 2 }).fillFails fillFailure)

/-- `FUSE_READ_DONE` (20 R469). -/
def execFuseReadDone (s : State) : Out :=
  .next (if s.boot.step ≠ 2 ∨ s.mode ≠ Mode.BOOT then s else s.setBoot fun b => { b with fuses := true })

/-- `MEMORY_FILL_DONE` (18 R424, R425). -/
def execMemoryFillDone (ticks : Nat) (fillFailure : Option (Fin 4)) (s : State) : Out :=
  .next (
    if s.boot.step ≠ 2 || s.boot.filled || s.mode != Mode.BOOT then s
    else if fillFailure.isSome then s.fillFails fillFailure
    else ((s.memoryFill s.boot.kind).setVal Obj.MEM_FILL_TIME (ticks % 2 ^ 32 : Nat)).setBoot fun b => { b with filled := true })

/-- The ROM's look at the trial flags (19 R457 step 1). -/
def State.kernelTrialStep (s : State) : State :=
  if !s.boot.kTrial then s
  else if s.boot.kTried then
    (s.setImgState s.boot.kPref imgINVALID).setBoot fun b => { b with
      kPref := 1 - b.kPref, kTrial := false, kTried := false, fellBack := true }
  else s.setBoot fun b => { b with kTried := true }

/-- A kernel slot runs. -/
def State.kernelRuns (s : State) (slot : Nat) : State :=
  ((s.setVal Obj.KERNEL_SLOT_RUNNING slot).setVal Obj.KERNEL_VERSION (s.imgField slot 8 4)).setBoot fun b =>
    { b with step := 5, onTrial := b.kTrial }

/-- The recovery kernel runs (19 R458); the spec gives no version for it (assumption log 5, DESIGN CHOICE). -/
def State.recoveryRuns (s : State) : State :=
  let q := s.free (2 ^ 32)
  ((q.2.setVal Obj.KERNEL_SLOT_RUNNING 0xFF).setVal Obj.KERNEL_VERSION q.1).setBoot fun b => { b with step := 5, onTrial := false }

/-- The kernel chosen and verified (19 R457). -/
def State.kernelChoose (s : State) : State :=
  let s := s.kernelTrialStep
  let p := s.boot.kPref
  if s.slotPasses p then s.kernelRuns p
  else
    let s := s.slotFails p
    if s.slotPasses (1 - p) then
      ((s.setBoot fun b => { b with kPref := 1 - p, kTrial := false, kTried := false, fellBack := true }).kernelRuns (1 - p))
    else (s.slotFails (1 - p)).recoveryRuns

/-- `KERNEL_VERIFY_DONE` (20 R469 step 4; 19 R457): once fuses are read, memory is filled and the PLL of CD is locked. -/
def execKernelVerifyDone (s : State) : Out :=
  .next (
    if s.boot.step ≠ 2 || s.mode != Mode.BOOT || !s.boot.fuses || !s.boot.filled || !s.on Obj.PLL_LOCK 8 then s else s.kernelChoose)

/-- A fallback of the kernel is logged at SAFE entry (19 R457), unless the trial's limit was what logged it (19 R459). -/
def State.fallbackReport (s : State) : State :=
  if s.boot.fellBack && s.boot.cause != 6 then
    (s.logFault 0x1F05 0 0 (leBytes 1 (1 - s.boot.kPref))).raise 0xF002 0 0 (leBytes 1 (1 - s.boot.kPref) ++ leBytes 1 5)
  else s

/-- The kernel starts the application (20 R469 step 6; 19 R460); the recovery kernel runs none. -/
def State.appLaunch (s : State) : State :=
  if s.nat Obj.KERNEL_SLOT_RUNNING = 0xFF then s else (s.setApp fun a => { a with failed := [] }).appBegin s.boot.aPref

/-- SAFE is entered from BOOT (20 R469 step 5, R475; 15 R358; 21 R507); `restore` is the boot restore of 17 R419. -/
def State.safeEnter (s : State) (bootTicks : Nat) (restore : State → State) : State :=
  if s.boot.step ≠ 5 || s.mode != Mode.BOOT then s else
    let s := s.setBoot fun b => { b with
      step := 6, safeOrd := s.clk.ord, hour := b.hour.map (fun n => n + bootTicks), hourOrd := s.clk.ord }
    let s := s.changeMode Mode.SAFE
    let s := ((s.setVal Obj.RESET_CAUSE s.boot.cause).setVal Obj.RESET_PREV_MODE s.boot.prev).setVal Obj.BOOT_TIME (bootTicks % 2 ^ 32 : Nat)
    let s := s.raise 0x0007 0 0 (leInt 1 (s.val Obj.RESET_CAUSE) ++ leInt 1 s.boot.prev ++ leInt 4 (s.val Obj.BOOT_TIME))
    (restore s.fallbackReport.dumpCheck.lanesCheck).appLaunch

/-! ### HALT (20 R474) -/

/-- `HALT_AUTO_RESET` (20 R474). -/
def execHaltAutoReset (s : State) : Out :=
  .next (
    let n := s.nat Obj.HALT_AUTO_RESET
    let c := s.val Obj.HALT_AUTO_COUNT
    if s.mode != Mode.HALT || n == 0 || decide (3 ≤ c) || decide (s.clk.ord < s.boot.haltOrd + n) then s else
      let s := if c = 0 then s.setBoot fun b => { b with hour := some 0, hourOrd := s.clk.ord } else s
      (s.setVal Obj.HALT_AUTO_COUNT (c + 1)).kernelReset 2 4)

/-- `HALT_AUTO_HOUR_END` (20 R474). Assumption log 63, DEDUCED. -/
def execHaltAutoHourEnd (s : State) : Out :=
  .next (
    match s.hourNow with
    | some n => if 900000000 ≤ n then (s.setVal Obj.HALT_AUTO_COUNT 0).setBoot fun b => { b with hour := none } else s
    | none => s)

/-! ### The kernel's trial and activation (19 R459, R465) -/

/-- The effect of an accepted `KERNEL_CONFIRM` (19 R459). -/
def State.writeKernelConfirm (s : State) : State :=
  if !s.boot.onTrial then s else
    (s.setBoot fun b => { b with kTrial := false, kTried := false, onTrial := false }).raise 0xF001 0 0
      (leInt 1 (s.val Obj.KERNEL_SLOT_RUNNING))

/-- `KERNEL_TRIAL_TIMEOUT` (19 R459). -/
def execKernelTrialTimeout (s : State) : Out :=
  .next (
    let k := s.nat Obj.KERNEL_SLOT_RUNNING
    if !s.boot.onTrial || decide (s.clk.ord < s.boot.safeOrd + s.nat Obj.IMAGE_TRIAL_LIMIT) then s else
      let s := (s.setImgState k imgINVALID).logFault 0x1F05 0 0 (leBytes 1 k)
      (s.raise 0xF002 0 0 (leBytes 1 k ++ leBytes 1 5)).kernelReset 1 6)

/-- The effect of an accepted `IMAGE_ACTIVATE` (19 R465): a kernel slot runs after a warm reset, an application slot from the next
boundary. -/
def State.writeImageActivate (s : State) (slot : Nat) : State :=
  if slot < 2 then (s.setBoot fun b => { b with kPref := slot, kTrial := true, kTried := false }).kernelReset 1 7
  else (s.setBoot fun b => { b with aPref := slot, aTrial := true }).setApp fun a => { a with switchTo := some slot }

end Sys2Proof.Machine
end

