-- ==== Sys2Proof/Machine/Reads.lean ====
section
/-! DEFINITION. What a read of an object gives (17 R390-R392, R406, R409, R410): the values that are computed, the generations,
and the bytes of BLOBs. -/

namespace Sys2Proof.Machine

/-! ### Texts -/

/-- The bytes of an ASCII text. -/
def asciiBytes (t : String) : List Byte := t.toList.map fun c => BitVec.ofNat 8 c.toNat

/-- The codes and names of every event (17 R416; 18 R446; 19 R467; 20 R488; 21 R510). -/
def eventNames : List (Nat × String) :=
  [(0x0001, "TIME_SET_DONE"), (0x0002, "TIME_SET_TIMEOUT"), (0x0003, "TIME_UNLOCKED"), (0x0004, "TABLE_SWAP_FAILED"),
   (0x0005, "MODE_CHANGED"), (0x0006, "MODE_CHANGE_FAILED"), (0x0007, "RESET_REPORT"), (0x0008, "DIE_ISOLATED"),
   (0x0009, "CH_QUARANTINED"), (0x1001, "CLAMP_EPISODE"), (0x1002, "FEED_FAULT"), (0x2001, "HK_URGENT_DONE"),
   (0x4001, "SUPP_RATE_REDUCED"), (0x4002, "SUPP_RATE_RESTORED"), (0x6001, "ENG_QUARANTINED"), (0x6002, "ENG_LOADED"),
   (0x6003, "ENG_LOAD_FAILED"), (0x7001, "DOMINO_DELAY_CHANGED"), (0x7002, "DOMINO_TIME_ERR"), (0xA001, "SPEC_SEQ_RESTART"),
   (0xC001, "LANE_DOWN"), (0xC002, "LANE_UP"), (0xD001, "ACTION_DONE"), (0xD002, "EVENTS_LOST"),
   (0xE001, "ECC_BUCKET_OVERFLOW"), (0xE002, "ECC_UNCORRECTABLE"), (0xE003, "SCRUB_SLOW"), (0xF001, "IMAGE_CONFIRMED"),
   (0xF002, "IMAGE_FALLBACK"), (0xF003, "APP_RESTARTED"), (0xF004, "FAULT_LOGGED"), (0xF005, "DUMP_WRITTEN")]

/-- `EVENT_CATALOGUE` (17 R416, R422), in the order of the codes (assumption log 7, DESIGN CHOICE). -/
def eventCatalogue : List Byte := eventNames.flatMap fun e => leBytes 2 e.1 ++ leBytes 2 0 ++ slice (asciiBytes e.2) 0 32

/-- `SET_INFO` of a slot (17 R417, R422). -/
def State.setInfoBytes (s : State) (slot : Nat) : List Byte :=
  match s.sdp.sets.find? fun e => e.1 == slot with
  | none => List.replicate 32 0
  | some e =>
    leBytes 1 (if e.2.valid then 1 else 0) ++ leBytes 1 0 ++ leBytes 2 e.2.layout ++ leBytes 4 e.2.size ++ leBytes 8 e.2.tick ++
      leBytes 4 e.2.crc ++ slice e.2.name 0 12

/-- `NET_MAC` (17 R422), first byte sent first. -/
def State.netMac (s : State) : List Byte :=
  let n := s.nat Obj.SERIAL
  [0x02, 0x4B, 0x4C, BitVec.ofNat 8 (n / 65536), BitVec.ofNat 8 (n / 256), BitVec.ofNat 8 n]

/-- `SUPP_CTX` of the selected context, as of the boundary (06 R152). -/
def State.ctxBytes (s : State) (k : Nat) : List Byte :=
  leBytes 16 (smGet {} (s.sl k).ctx0 (s.nat Obj.SUPP_CTX_SELECT k)).word

/-! ### Values (17 R390-R392) -/

/-- The bytes that a read of an object returns, of every object but the dump. Assumption log 47, DEDUCED. -/
def State.readBytes (s : State) (o : ObjDef) (e sub : Nat) : List Byte :=
  let u (n v : Nat) : List Byte := leBytes n v
  match o.idx with
  | 0x0000 => asciiBytes "Berzimen Microsystems"
  | 0x0001 => asciiBytes "KLF-2560"
  | 0x0010 => u 4 (match s.sdp.ring with | [] => 0 | x :: _ => x.seq)
  | 0x0011 => u 4 (match s.sdp.ring.getLast? with | none => 0 | some x => x.seq)
  | 0x0012 => eventCatalogue
  | 0x0020 => s.setInfoBytes (sub - 1)
  | 0x1010 => u 8 s.tick
  | 0x1020 => u 9 s.timeNow
  | 0x3012 => u 4 (crc32c (s.liveBlob Obj.WIN_SHADOW e))
  | 0x3044 => s.liveBlob Obj.REQ_GAIN_SHADOW e
  | 0x3045 => leInt 1 (s.liveVal Obj.REQ_SHIFT e)
  | 0x4031 => s.ctxBytes e
  | 0x4035 => u 4 (s.stateTally (sub - 1))
  | 0x4824 => leInt 8 (s.beamProbe e)
  | 0x5013 => s.bytes (dmemAddr e (s.nat Obj.ENG_DATA_SELECT e)) 64
  | 0x680C => s.slotEntry
  | 0x7002 => s.liveBlob Obj.CODER_TAB_SHADOW e
  | 0x7811 => (smGet {} s.spec.cands0 (s.nat Obj.SPEC_CAND_SELECT)).entry
  | 0x9800 => s.netMac
  | 0x9810 => u 1 s.sdp.sessions.length
  | 0xA023 => s.cvuContext (sub - 1)
  | 0xB012 => s.bytes (slotAddr (sub - 1) 0) 192
  | 0xB043 => s.bytes (faultLogAddr (s.nat Obj.FAULT_LOG_SELECT)) 128
  | 0xB062 => u 8 (s.goldenOf (sub - 1))
  | _ => if o.ty = .blob ∨ o.ty = .str then s.blob o e sub else encodeVal o.ty (s.val o e sub)

/-- The number of bytes of an object as it reads. -/
def State.readLen (s : State) (o : ObjDef) (e sub : Nat) : Nat :=
  if o.idx = 0xB081 then (if s.val Obj.DUMP_STATE = 2 then 2 ^ 28 else 0)
  else if o.idx = 0xB082 then 2 ^ 23
  else (s.readBytes o e sub).length

/-- `n` bytes of an object from an offset. -/
def State.readSlice (s : State) (o : ObjDef) (e sub off n : Nat) : List Byte :=
  let dump (base total : Nat) : List Byte := (List.range n).map fun i => s.dumpReadByte base total (off + i)
  if o.idx = 0xB081 then dump dumpBase (2 ^ 28)
  else if o.idx = 0xB082 then (if s.flt.dumpCopy then dump dumpCopyBase (2 ^ 23) else s.bytes (dumpCopyBase + off) n)
  else slice (s.readBytes o e sub) off n

/-! ### Generations (17 R409) -/

/-- The generation of a result object (04 R101; 14 R327; 18 R443; 21 R501). -/
def State.genOf (s : State) (o : ObjDef) (e sub : Nat) : Nat :=
  if o.idx = 0x2810 then leNat (slice (s.blob o e sub) 6 2)
  else if o.idx = 0x8033 then leNat (slice (s.blob o e sub) 8 2)
  else smGet 0 s.sdp.gens (key o e sub)

/-- Whether a result object has no new result to give (17 R409; 14 R329). -/
def State.notReady (s : State) (o : ObjDef) (e sub : Nat) : Bool :=
  s.genOf o e sub == 0 || (o.idx == 0x8033 && (s.tdcOf e).notReady)

/-! ### The object of an address (17 R395 steps 1 and 2) -/

/-- Whether an index belongs to the application (17 R420; 19 R464). -/
def appIndex (i : Nat) : Bool := decide (0xC000 ≤ i ∧ i < 0xF000)

/-- Whether the kernel that runs serves an index (19 R458). -/
def State.indexServed (s : State) (i : Nat) : Bool :=
  s.nat Obj.KERNEL_SLOT_RUNNING != 0xFF || decide (i < 0x1000 ∨ (0x9800 ≤ i ∧ i < 0xA000) ∨ (0xB000 ≤ i ∧ i < 0xC000))

/-- The object and element an address names, or the status of the step that fails. -/
def State.resolve (s : State) (a : ObjAddr) : Except Nat (ObjDef × Nat) :=
  if 0xF000 ≤ a.index ∨ appIndex a.index = true ∨ s.indexServed a.index = false then .error St.NO_OBJECT else
    match objAt a.index with
    | none => .error St.NO_OBJECT
    | some o =>
      match elemOf o.scope a.sub a.kind a.num with
      | none => .error St.NO_SUB
      | some e => if subOk o a.sub a.kind a.num then .ok (o, e) else .error St.NO_SUB

/-- A read item (17 R406, R409): its status, the generation of a result object, and the value. -/
structure ReadItem where
  status : Nat
  gen    : Option Nat := none
  value  : List Byte := []
deriving DecidableEq, Repr

/-- What a `READ` of one address finds (17 R395, R406, R409); a value beyond 256 bytes is read by `READ_SEG` alone. -/
def State.readItem (s : State) (a : ObjAddr) : ReadItem :=
  match s.resolve a with
  | .error st => { status := st }
  | .ok (o, e) =>
    if o.access = .wo then { status := St.ACCESS }
    else if 256 < s.readLen o e a.sub then { status := St.LENGTH }
    else if o.result then
      { status := if s.notReady o e a.sub then St.NOT_READY else St.OK, gen := some (s.genOf o e a.sub)
        value := s.readBytes o e a.sub }
    else { status := St.OK, value := s.readBytes o e a.sub }

/-- The 64-bit word of an address as its bytes (17 R390). -/
def addrBytes (a : ObjAddr) : List Byte := leBytes 8 (addrWord a)

/-- The address that 8 bytes spell (17 R390). With reserved bits set it names no element: its scope kind is taken as a
reserved one (assumption log 30, DEDUCED). -/
def addrOf (l : List Byte) : ObjAddr :=
  let w := leNat l
  { index := w / 2 ^ 48 % 2 ^ 16, sub := w / 2 ^ 40 % 256
    kind := if w % 2 ^ 16 = 0 then w / 2 ^ 32 % 256 else 255, num := w / 2 ^ 16 % 2 ^ 16 }

end Sys2Proof.Machine
end

