-- ==== Sys2Proof/Machine/Constraints.lean ====
section
/-! DEFINITION. The checks of a write (17 R395, R538): the steps in their order, the constraints of the objects, and the checks of
a commit of a swapped table. -/

namespace Sys2Proof.Machine

/-! ### The values a `WRITE` leaves (17 R538) -/

/-- The values that the items of a `WRITE` will leave, by key, the later item first. -/
structure View where
  vals  : List (Nat × Int) := []
  blobs : List (Nat × List Byte) := []
deriving DecidableEq, Repr

/-- The value of an object once every item is applied: the one written, else the one last accepted. -/
def State.viewVal (s : State) (v : View) (o : ObjDef) (e : Nat := 0) (sub : Nat := o.subLo) : Int :=
  match v.vals.find? fun x => x.1 == key o e sub with
  | some x => x.2
  | none =>
    if o.idx = 0x9010 then (match s.fr.rateDown with | some r => r | none => s.val o e sub)
    else if o.idx = 0x9011 then (match s.fr.rateCasc with | some r => r | none => s.val o e sub)
    else s.accepted o e sub

/-- The same as a natural number. -/
def State.viewNat (s : State) (v : View) (o : ObjDef) (e : Nat := 0) (sub : Nat := o.subLo) : Nat := (s.viewVal v o e sub).toNat

/-- The bytes of a BLOB once every item is applied. -/
def State.viewBlob (s : State) (v : View) (o : ObjDef) (e : Nat := 0) (sub : Nat := o.subLo) : List Byte :=
  match v.blobs.find? fun x => x.1 == key o e sub with
  | some x => x.2
  | none =>
    match s.staged.reverse.find? fun w => w.key == key o e sub with
    | some w => w.blob
    | none => s.blob o e sub

/-- The geometry of the window tests of a write: that of the run, or outside a run that of the next one as the write leaves its settings
(11 R253; 17 R538). -/
def State.geometryOf (s : State) (v : View) : List Nat × Nat :=
  if s.hist.on then (s.hist.inputs, s.hist.bits) else
    ((List.range 256).filter fun n => maskHas (s.viewBlob v Obj.HIST_INPUT_MASK) n && s.inService n, s.viewNat v Obj.HIST_BITS)

/-! ### The contents of a table under its check value (02 R39) -/

/-- A value's bytes in the size of its type, under the view. -/
def State.viewBytes (s : State) (v : View) (o : ObjDef) (e sub : Nat) : List Byte := encodeVal o.ty (s.viewVal v o e sub)

/-- The bytes over which a table instance's check value is computed: 05 R132; 07 R169; 10 R216, R240; 11 R264; 12 R276;
16 R380. -/
def State.tabBytes (s : State) (v : View) (id e : Nat) : List Byte :=
  let each (o : ObjDef) (n : Nat) : List Byte := (List.range n).flatMap fun i => s.viewBytes v o i o.subLo
  let subs (o : ObjDef) (n : Nat) : List Byte := (List.range n).flatMap fun i => s.viewBytes v o 0 (i + 1)
  match id with
  | 1 => s.viewBlob v Obj.WIN_SHADOW e
  | 2 => (List.range 16).flatMap fun i =>
      s.viewBytes v Obj.REQ_SHIFT (16 * e + i) 0 ++ s.viewBlob v Obj.REQ_GAIN_SHADOW (16 * e + i)
  | 4 => s.viewBytes v Obj.BEAM_EPOCH e 0 ++ s.viewBlob v Obj.BEAM_DELAY_SHADOW e
  | 5 => s.viewBlob v Obj.BEAM_APOD_SHADOW e
  | 6 => subs Obj.BEAM_SCALE 32 ++ s.viewBytes v Obj.BEAM_NU_OFFSET 0 0 ++ s.viewBytes v Obj.BEAM_SIDEBAND 0 0 ++
      s.viewBytes v Obj.BEAM_EXCLUDE_MASK 0 0
  | 7 => s.viewBlob v Obj.TRIG_FILTER_SHADOW e
  | 8 => each Obj.COIN_CL_K 64 ++ each Obj.COIN_CL_WINDOW 1 ++ each Obj.COIN_RG_K 16 ++ each Obj.COIN_RG_WINDOW 1 ++
      each Obj.COIN_DIE_LOGIC 8 ++ each Obj.COIN_DIE_WINDOW 1 ++ each Obj.COIN_MOD_SOURCES 1 ++ each Obj.COIN_MOD_K 1 ++
      each Obj.COIN_MOD_WINDOW 1
  | 9 => s.viewBlob v Obj.CODER_TAB_SHADOW e
  | 10 => (List.range 8).flatMap fun i =>
      s.viewBytes v Obj.REC_PRE 0 (i + 1) ++ s.viewBytes v Obj.REC_POST 0 (i + 1) ++ s.viewBlob v Obj.REC_INPUT_MASK 0 (i + 1)
  | 11 => s.viewBytes v Obj.BEAM_ENABLE 0 0 ++ s.viewBytes v Obj.BEAM_WIDE 0 0 ++ subs Obj.BEAM_BANKS 32 ++
      s.viewBytes v Obj.LINK_ALLOC_SPECTRA 0 0 ++ s.viewBytes v Obj.LINK_ALLOC_SUPP 0 0 ++ s.viewBytes v Obj.LINK_ALLOC_REC 0 0 ++
      s.viewBytes v Obj.LINK_ALLOC_HIT 0 0 ++ s.viewBytes v Obj.LINK_ALLOC_CASCADE 0 0
  | _ => []

/-- The expected check value of an instance under the view, `none` when none was written since its last swap. -/
def State.tabCrc (s : State) (v : View) (id e : Nat) : Option Nat :=
  let o : Option ObjDef := match id with
    | 1 => some Obj.WIN_SHADOW_CRC | 2 => some Obj.REQ_SHADOW_CRC | 4 => some Obj.BEAM_DELAY_CRC | 5 => some Obj.BEAM_APOD_CRC
    | 6 => some Obj.BEAM_MISC_CRC | 7 => some Obj.TRIG_FILTER_CRC | 8 => some Obj.COIN_CRC | 9 => some Obj.CODER_TAB_CRC
    | 10 => some Obj.REC_CRC | 11 => some Obj.LINK_MIX_CRC | _ => none
  match o with
  | none => none
  | some o =>
    match v.vals.find? fun x => x.1 == key o e 0 with
    | some x => some x.2.toNat
    | none => (s.tab id e).crc

/-- The inputs of `SPEC_INPUT_MASK`. -/
def maskCount (b : List Byte) : Nat := ((List.range 256).filter (maskHas b)).length

/-- Whether the spectra rate of 05 R127 with a period and a mask is within an allocation in Mb/s. -/
def specFits (m : Nat) (mask : List Byte) (alloc : Nat) : Bool := decide (64 * 2048 * maskCount mask * 250000 ≤ alloc * 1000000 * m)

/-- The planning capacity at a commit (16 R380), in Mb/s. -/
def State.planMbps (s : State) (v : View) : Nat :=
  let n := ((List.range 32).filter fun l => bitOf (s.viewNat v Obj.LINK_DOWN_MASK) l).length
  96 * n * Lane.payload (s.viewNat v Obj.LINK_RATE_DOWN) / 100

/-- The cost of the mix under the view (07 R167; 16 R380). -/
def State.mixMbps (s : State) (v : View) : Nat :=
  mixBeamCost (s.viewNat v Obj.BEAM_ENABLE) (s.viewNat v Obj.BEAM_WIDE) (fun b => s.viewNat v Obj.BEAM_BANKS 0 (b + 1)) (fun _ => false) +
    s.viewNat v Obj.LINK_ALLOC_SPECTRA + s.viewNat v Obj.LINK_ALLOC_SUPP + s.viewNat v Obj.LINK_ALLOC_REC +
    s.viewNat v Obj.LINK_ALLOC_HIT + s.viewNat v Obj.LINK_ALLOC_CASCADE

/-- Whether a table's contents keep the rules a commit holds them to: 05 R119; 10 R216; 12 R276; 16 R380. -/
def State.tabContentsOk (s : State) (v : View) (id e : Nat) : Bool :=
  match id with
  | 1 => decide (0 < windowW (s.viewBlob v Obj.WIN_SHADOW e))
  | 7 => trigTableOk (s.viewBlob v Obj.TRIG_FILTER_SHADOW e)
  | 9 => coderSetOk (s.viewBlob v Obj.CODER_TAB_SHADOW e) && decide ((nth 0 (s.viewBlob v Obj.CODER_TAB_SHADOW e) 0).toNat ≤ 1)
  | 11 => decide (s.mixMbps v ≤ s.planMbps v) &&
      specFits (s.viewNat v Obj.SPEC_INT_TICKS) (s.viewBlob v Obj.SPEC_INPUT_MASK) (s.viewNat v Obj.LINK_ALLOC_SPECTRA)
  | _ => true

/-- Why a commit is refused: its target (02 R39), its contents, its check value. The contents are judged before the check value
(assumption log 31, DESIGN CHOICE). -/
def State.commitRefusal (s : State) (v : View) (id e target : Nat) : Nat :=
  if target ≠ 0 ∧ target ≤ s.tick then St.RANGE
  else if s.tabContentsOk v id e = false then St.RANGE
  else if tabHasCrc id = true ∧ s.tabCrc v id e ≠ some (crc32c (s.tabBytes v id e)) then St.CHECK
  else St.OK

/-! ### Items -/

/-- A write item that has passed steps 1 to 6. -/
structure DItem where
  addr : ObjAddr
  o    : ObjDef
  e    : Nat
  val  : Int
  raw  : List Byte
deriving DecidableEq, Repr

/-- The key of an item. -/
def DItem.key (d : DItem) : Nat := Sys2Proof.Machine.key d.o d.e d.addr.sub

/-- What the items of a `WRITE` leave. -/
def viewOf (l : List DItem) : View :=
  { vals := (l.filter fun d => d.o.ty != .blob).reverse.map fun d => (d.key, d.val)
    blobs := (l.filter fun d => d.o.ty == .blob).reverse.map fun d => (d.key, d.raw) }

/-- Whether a mode is one of a list. -/
def modeIn (m : Int) (l : List Int) : Bool := l.contains m

/-- Whether the mode allows a write (17 R392, R393; 02 R50; 01 R16, R21; 21 R496, R497, R500; 15 R333; 19 R455, R456). -/
def State.modeAllows (s : State) (o : ObjDef) (raw : List Byte) : Bool :=
  let m := s.mode
  if m = Mode.HALT then false else
    match o.idx with
    | 0x1021 => modeIn m [1, 2]
    | 0x1081 => if raw = [1] then modeIn m [1, 2, 3, 4, 5, 6, 7, 8, 9] else modeIn m [1, 2]
    | 0x1088 => if raw = [1] then modeIn m [1, 2, 3, 4, 5, 6, 7, 8, 9, 10] else modeIn m [1, 2]
    | 0x9010 | 0x9011 => modeIn m [1, 2]
    | 0xB003 => !s.boot.onTrial
    | 0xB005 | 0xB006 => m == 1
    | 0xB060 => m == 10
    | _ => true

/-- The element of a soft reset: scope kind and number (17 R390; 20 R487). -/
def resetElem (e : Nat) : Nat × Nat :=
  if e < 256 then (1, e) else if e < 320 then (2, e - 256) else if e < 336 then (3, e - 320) else (4, e - 336)

/-- Whether the scoped element is out of service, where step 5 refuses that (17 R395). Assumption log 60, DEDUCED. -/
def State.elemOutFor (s : State) (o : ObjDef) (a : ObjAddr) (e : Nat) : Bool :=
  if o.idx = 0x1050 then
    let r := resetElem e
    s.dieOut (resetDie r.1 r.2) || (r.1 == 1 && s.val Obj.CH_STATE r.2 != 0)
  else if o.idx = 0x2806 then decide (e < 8) && s.dieOut e
  else a.kind == 1 && o.idx != 0x1088 && !s.inService e

/-- Whether bytes are a value of an object's type (17 R391). -/
def typeOk (o : ObjDef) (raw : List Byte) : Bool :=
  match o.ty with
  | .bool => raw == [0] || raw == [1]
  | .blob | .str => decide (o.size ≠ 0) && raw.length == o.size
  | t => raw.length == t.bits / 8

/-- Steps 1 to 6 of 17 R395 for a write by a role; `app` when the application writes (19 R463). -/
def State.decodeItem (s : State) (role : Nat) (app : Bool) (w : WItem) : Except Nat DItem :=
  match s.resolve w.addr with
  | .error st => .error st
  | .ok (o, e) =>
    if o.access = .ro ∨ role < o.role ∨ (o.idx = 0x1015 ∧ w.addr.sub = 1) ∨ (app = true ∧ 0x9800 ≤ o.idx ∧ o.idx < 0xA000) then
      .error St.ACCESS
    else if s.modeAllows o w.value = false then .error St.MODE
    else if s.elemOutFor o w.addr e = true then .error St.QUARANTINED
    else if typeOk o w.value = false then .error St.TYPE
    else .ok { addr := w.addr, o, e, val := if o.ty = .blob ∨ o.ty = .str then 0 else decodeVal o.ty w.value, raw := w.value }

/-! ### Step 7: constraints (17 R395, R538; the object tables' ranges) -/

/-- `RANGE` when a condition fails. -/
def need (b : Bool) : Nat := if b then St.OK else St.RANGE

/-- Whether a mask is contiguous from /8 to /30 (17 R422). -/
def netMaskOk (m : Nat) : Bool := (List.range 31).any fun n => decide (8 ≤ n) && m == 2 ^ 32 - 2 ^ (32 - n)

/-- Whether an address is a unicast one (17 R422; assumption log 32, DESIGN CHOICE). -/
def unicastIp (a : Nat) : Bool := decide (1 ≤ a / 2 ^ 24 ∧ a / 2 ^ 24 ≤ 223) && a / 2 ^ 24 != 127

/-- Whether the gateway is none or in the network (17 R422, R538). -/
def State.gatewayOk (s : State) (v : View) : Bool :=
  let g := s.viewNat v Obj.NET_GATEWAY
  let m := s.viewNat v Obj.NET_IP_MASK
  g == 0 || g &&& m == s.viewNat v Obj.NET_IP_ADDR &&& m

/-- The constraints of the common, module and front-end objects (0x0000–0x2FFF). -/
def State.constraint0 (s : State) (v : View) (d : DItem) : Nat :=
  let n := d.val.toNat
  let e := d.e
  let sub := d.addr.sub
  match d.o.idx with
  | 0x0021 => need (decide (n < 8) || n == 255)
  | 0x1001 => (s.modeRefusal n s.clk.pastCutoff false).getD St.OK
  | 0x1007 => need (n != 2)
  | 0x1015 => s.commitRefusal v (sub - 1) e n
  | 0x1018 =>
    let id := sub - 1
    let cross (j : Nat) : Bool := bitOf n j && decide (tabKind id ≠ 0 ∧ tabKind j ≠ 0 ∧ tabKind j ≠ tabKind id)
    need (n % 2 == 0 && decide (n < 4096) && (id != 0 || n == 0) && !(List.range 12).any cross)
  | 0x1021 => need (n % secondTu == 0)
  | 0x1056 => need (n == 0 || decide (2500000 ≤ n))
  | 0x2001 | 0x2002 => need (decide (4 * s.viewVal v Obj.RANGE_RELEASE e < s.viewVal v Obj.RANGE_ATTACK e))
  | 0x2031 | 0x2032 => need (decide (s.viewVal v Obj.FEED_OPEN_LIMIT e < s.viewVal v Obj.FEED_LIMIT e))
  | 0x2042 => need ([1, 2, 4, 8, 16, 32, 64].contains n)
  | 0x2800 => need (hkEntryOk e n)
  | 0x2806 => need (hkSourceOk e n && !hkIsGroup e n)
  | 0x2807 => need (decide (n < 2 ^ 24) && decide ((n >>> 19) % 16 ≤ 8) && decide ((n >>> 16) % 8 ≤ 4))
  | _ => St.OK

/-- The constraints of the channelizer, contexts, beams and engines (0x3000–0x5FFF). -/
def State.constraint1 (s : State) (v : View) (d : DItem) : Nat :=
  let n := d.val.toNat
  match d.o.idx with
  | 0x3013 => need (n == 4 || n == 16)
  | 0x3020 | 0x3022 =>
    need (specFits (s.viewNat v Obj.SPEC_INT_TICKS) (s.viewBlob v Obj.SPEC_INPUT_MASK) (s.alloc 1))
  | 0x4009 => need (n &&& 0x7E == 0x7E)
  | 0x4031 =>
    let w := leNat d.raw
    need (Ctx.writeOk (smGet {} (s.sl d.e).ctx0 (s.viewNat v Obj.SUPP_CTX_SELECT d.e)) w && decide ((Ctx.ofWord w).baseline ≤ maxBaseline))
  | 0x4032 => need (ctxCmdOk n)
  | 0x4805 => need (n / 64 % 1024 == 0)
  | 0x5011 => need (decide (msgKind [BitVec.ofNat 32 (leNat (slice d.raw 0 4))] ≤ 0x7F))
  | 0x5012 => need (n % 64 == 0)
  | _ => St.OK

/-- The constraints of triggers, records, timing and links (0x6000–0x97FF). -/
def State.constraint2 (s : State) (v : View) (d : DItem) : Nat :=
  let n := d.val.toNat
  let sub := d.addr.sub
  let g := s.geometryOf v
  let p := s.viewNat v Obj.REC_PRE 0 sub
  let q := s.viewNat v Obj.REC_POST 0 sub
  let mask := s.viewBlob v Obj.REC_INPUT_MASK 0 sub
  match d.o.idx with
  | 0x6006 => need (n &&& 0x79 == n)
  | 0x6053 => need (decide (n < 48) || n == 255)
  | 0x6800 => need ([3, 4, 6, 8].contains n)
  | 0x6801 => need (d.raw.any fun b => b != 0)
  | 0x6810 | 0x6811 => need (windowOk g.1 g.2 (p + q) mask)
  | 0x6812 => need (decide ((g.1.filter fun i => maskHas mask i).length * (p + q) * 512 * g.2 ≤ 2 ^ 32))
  | 0x8007 => need (n / 16 % 8 == 0)
  | 0x8008 => need (n != d.e)
  | 0x8009 | 0x800A => need (decide (s.viewVal v Obj.TDC_WIN_LO d.e < s.viewVal v Obj.TDC_WIN_HI d.e))
  | 0x9022 => need ((List.range 16).all fun i => let w := leNat (slice d.raw (4 * i) 4); decide (w < 2 ^ 24) && w % 4096 == 0)
  | _ => St.OK

/-- Whether an owner key signed the image that the application runs from (19 R455). -/
def State.keyInUse (s : State) (k : Nat) : Bool :=
  let slot := s.nat Obj.APP_SLOT_RUNNING
  decide (2 ≤ slot ∧ slot < 4) && s.imgField slot 5 1 == k

/-- The constraints of the field network, check-value units, images and fuses (0x9800–0xBFFF). -/
def State.constraint3 (s : State) (v : View) (d : DItem) : Nat :=
  let n := d.val.toNat
  let sub := d.addr.sub
  match d.o.idx with
  | 0x9801 => need (unicastIp n && s.gatewayOk v)
  | 0x9802 => need (netMaskOk n && s.gatewayOk v)
  | 0x9803 => need (s.gatewayOk v)
  | 0xA020 => (s.cvuRefusal (sub - 1) (BitVec.ofNat 256 (leNat d.raw))).getD St.OK
  | 0xA023 => (s.cvuContextRefusal (sub - 1) d.raw).getD St.OK
  | 0xB005 => need (s.blob Obj.FUSE_OWNER_KEY 0 sub == List.replicate 32 0)
  | 0xB006 => need (!s.on Obj.FUSE_OWNER_REVOKE 0 sub && !s.keyInUse sub)
  | 0xB015 => need (s.imgState (sub - 1) == imgVALID)
  | _ => St.OK

/-- Step 7 for an item of a `WRITE` of `count` items (17 R395, R408). -/
def State.rangeStep (s : State) (v : View) (count : Nat) (d : DItem) : Nat :=
  if d.o.ty ≠ .blob ∧ d.o.ty ≠ .f32 ∧ (d.val < d.o.lo ∨ d.o.hi < d.val) then St.RANGE
  else if d.o.ty = .f32 ∧ f32Bad d.val.toNat = true then St.RANGE
  else if d.o.long = true ∧ 1 < count then St.RANGE
  else if d.o.idx < 0x3000 then s.constraint0 v d
  else if d.o.idx < 0x6000 then s.constraint1 v d
  else if d.o.idx < 0x9800 then s.constraint2 v d
  else s.constraint3 v d

/-! ### Step 8 -/

/-- Whether the self-test partition that runs tests an element of a die (20 R477). -/
def State.dieTested (s : State) (d : Nat) : Bool :=
  let p := s.nat Obj.SELFTEST_RUNNING
  p == d || p == 8 + d

/-- Step 8: the object is not free to take the write; `before` are the items of the `WRITE` ahead of it (02 R42; 04 R104; 08 R194; 19 R465;
20 R477; 21 R500). -/
def State.busyStep (s : State) (before : List DItem) (d : DItem) : Bool :=
  let sub := d.addr.sub
  let ahead := before.filter fun b => b.key == d.key
  match d.o.idx with
  | 0x1050 => let r := resetElem d.e; s.dieTested (resetDie r.1 r.2)
  | 0x2806 =>
    let q := (s.hk d.e).queue.map (·.source) ++ ahead.map (·.val.toNat)
    !q.contains d.val.toNat && decide (4 ≤ q.eraseDups.length)
  | 0x5011 => decide (32 ≤ (s.eng d.e).inq.length + (s.eng d.e).arriving.length + ahead.length)
  | 0xB003 | 0xB005 | 0xB006 => s.acts.burn.isSome
  | 0xB010 | 0xB014 => s.slotRuns (sub - 1) || s.slotLoads (sub - 1)
  | 0xB060 => s.nat Obj.SELFTEST_RUNNING != 0xFF
  | _ =>
    match shadowOf d.o.idx d.e with
    | some t => s.shadowBusy t.1 t.2
    | none => false

/-- The status of an item that has passed steps 1 to 6. Assumption log 59, DEDUCED. -/
def State.lateSteps (s : State) (v : View) (count : Nat) (before : List DItem) (d : DItem) : Nat :=
  let st := s.rangeStep v count d
  if st ≠ St.OK then st else if s.busyStep before d then St.BUSY else St.OK

/-- The first failing item of the module's own items of a `WRITE` with its status: items are taken in order, each through the
steps of 17 R395. Assumption log 59, DEDUCED. -/
def State.firstFailing (s : State) (v : View) (count : Nat) : Nat → List DItem → List (Except Nat DItem) → Option (Nat × Nat)
  | _, _, [] => none
  | i, _, .error st :: _ => some (i, st)
  | i, before, .ok d :: r =>
    let st := s.lateSteps v count before d
    if st ≠ St.OK then some (i, st) else s.firstFailing v count (i + 1) (before ++ [d]) r

end Sys2Proof.Machine
end

