-- ==== Sys2Proof/Machine/Writes.lean ====
section
/-! DEFINITION. The effects of accepted writes (17 R407, R408), the commands that are a write of one object, saved sets (17 R417-R419),
and SAFE entry. -/

namespace Sys2Proof.Machine

/-! ### One item -/

/-- The indexes of the settings that wait for the next boundary (03 R90; 05 R133; 10 R240; 14 R330; 02 R535). -/
def waitsForBoundary (i : Nat) : Bool :=
  decide ((0x2000 ≤ i ∧ i ≤ 0x2003) ∨ (0x2020 ≤ i ∧ i ≤ 0x2022) ∨ (0x2030 ≤ i ∧ i ≤ 0x2032) ∨ (0x2040 ≤ i ∧ i ≤ 0x2044) ∨
    i = 0x2050 ∨ i = 0x3003 ∨ i = 0x3004 ∨ i = 0x3013 ∨ (0x3020 ≤ i ∧ i ≤ 0x3022) ∨ (0x6000 ≤ i ∧ i ≤ 0x6007) ∨
    (0x8000 ≤ i ∧ i ≤ 0x800A) ∨ i = 0x8014 ∨ (0x8030 ≤ i ∧ i ≤ 0x8032) ∨ i = 0x1018)

/-- A value stored as it is written, or kept for the boundary. -/
def State.storeItem (s : State) (d : DItem) : State :=
  let sub := d.addr.sub
  if waitsForBoundary d.o.idx then
    { s with staged := s.staged ++ [{ key := d.key, value := d.val, blob := if d.o.ty = .blob then d.raw else [] }] }
  else
    let s := if d.o.ty = .blob then s.setBlob d.o d.raw d.e sub else s.setVal d.o d.val d.e sub
    s.cfgWritten d.key

/-- Closes the sessions that `p` names; the values they build are dropped with them (17 R405, R411). -/
def State.closeSessions (s : State) (p : Session → Bool) : State :=
  let gone := (s.sdp.sessions.filter p).map (·.num)
  { s with sdp := { s.sdp with
      sessions := s.sdp.sessions.filter fun x => !p x
      partials := s.sdp.partials.filter fun x => !gone.contains x.session } }

/-- The effect of one accepted item; `action` is the number of the long action it starts (17 R408). -/
def State.applyItem (s : State) (action : Nat) (d : DItem) : State :=
  let e := d.e
  let n := d.val.toNat
  let sub := d.addr.sub
  match d.o.idx with
  | 0x0023 => { s with sdp := { s.sdp with sets := smKeep (fun k => k != sub - 1) s.sdp.sets } }
  | 0x1001 => s.modeAccept n action s.clk.pastCutoff
  | 0x1003 => s.modeFail St.OK false
  | 0x1015 => s.commitTab (sub - 1) e n
  | 0x1021 => s.writeTimeSet n
  | 0x1028 => (s.writePpsEnable d.val).cfgWritten d.key
  | 0x1050 => let r := resetElem e; s.setCont fun x => { x with softs := x.softs ++ [(r.1, r.2, action)] }
  | 0x1051 => s.kernelReset n (n + 1)
  | 0x1081 => s.writeDieIsolate e d.val
  | 0x1088 => s.writeChQuarantine e d.val
  | 0x2011 => s.writeClampSource e n
  | 0x2803 => s.writeHkCommit e
  | 0x2806 => s.writeHkUrgent e n
  | 0x3001 => s.setRg e fun x => { x with copyWaits := true, buildWaits := true, askOrd := s.clk.ord }
  | 0x3002 => s.setRg e fun x => { x with buildWaits := true, askOrd := s.clk.ord }
  | 0x4031 => { s with ctxQueue := s.ctxQueue ++ [.set e (s.nat Obj.SUPP_CTX_SELECT e) (Ctx.ofWord (leNat d.raw))] }
  | 0x4032 => { s with ctxQueue := s.ctxQueue ++ [.cmd e n] }
  | 0x5001 => s.writeEngCmd e d.val
  | 0x5011 => s.engArrive e ((List.range 8).map fun i => BitVec.ofNat 32 (leNat (slice d.raw (4 * i) 4)))
  | 0x9002 => s.writeLaneCmd e d.val
  | 0x9010 => s.writeLinkRate false n
  | 0x9011 => s.writeLinkRate true n
  | 0x9012 | 0x9013 => (s.storeItem d).lanesCheck
  | 0x6050 | 0x6052 | 0x6053 => (s.storeItem d).domLinks
  | 0x9820 | 0x9821 | 0x9822 => (s.storeItem d).closeSessions fun x => x.slot == sub - 1
  | 0xA020 => s.cvuQueue (sub - 1) (BitVec.ofNat 256 (leNat d.raw)) action
  | 0xA023 => s.writeCvuContext (sub - 1) d.raw
  | 0xB001 => s.writeKernelConfirm
  | 0xB003 => s.burnStart 3 0 [] action
  | 0xB005 => s.burnStart 1 sub d.raw action
  | 0xB006 => s.burnStart 2 sub [] action
  | 0xB013 => s.writeImageVerify (sub - 1) action
  | 0xB014 => s.writeImageErase (sub - 1)
  | 0xB015 => s.writeImageActivate (sub - 1)
  | 0xB060 => s.writeSelftest n action
  | 0xB083 => { s with flt := { s.flt with dumpAcked := true } }
  | i =>
    match crcObjOf i e with
    | some t => s.setTab t.1 t.2 fun x => { x with crc := some n }
    | none => s.storeItem d

/-- Whether an item resets the module; such items take effect last. -/
def DItem.resets (d : DItem) : Bool := d.o.idx == 0x1051 || (d.o.idx == 0xB015 && decide (d.addr.sub ≤ 2))

/-- Every item of an accepted `WRITE` applied in order. -/
def State.applyItems (s : State) (action : Nat) (l : List DItem) : State :=
  ((l.filter fun d => !d.resets) ++ l.filter DItem.resets).foldl (fun s d => s.applyItem action d) s

/-- The items that pass steps 1 to 6. -/
def passed : List (Except Nat DItem) → List DItem
  | [] => []
  | .ok d :: r => d :: passed r
  | .error _ :: r => passed r

/-- The refusal of a mode request is kept in `MODE_LAST_REFUSAL` (20 R487). -/
def State.noteRefusal (s : State) (l : List (Except Nat DItem)) (i st : Nat) : State :=
  match l[i]? with
  | some (.ok d) => if d.o.idx = 0x1001 then s.modeRecord (reqMode d.val.toNat) st else s
  | _ => s

/-- A `WRITE` of objects of the module, served as a whole (17 R407): the status, the failing item, the action, and the state. -/
def State.writeItems (s : State) (role : Nat) (app : Bool) (items : List WItem) : (Nat × Nat × Nat) × State :=
  let ds := items.map (s.decodeItem role app)
  let l := passed ds
  match s.firstFailing (viewOf l) items.length 0 [] ds with
  | some (i, st) => ((st, i, 0), s.noteRefusal ds i st)
  | none =>
    let q := if l.any fun d => d.o.long then s.newAction else (0, s)
    ((St.OK, 0xFF, q.1), q.2.applyItems q.1 l)

/-- Whether the module serves requests: not before SAFE is reached (20 R469, R477). -/
def State.serves (s : State) : Bool := s.mode != Mode.BOOT && !s.boot.low && s.boot.power

/-- A command that is the write of one object by a role: answered in `Sdp.answer`. -/
def State.rowWrite (s : State) (role : Nat) (addr : ObjAddr) (value : List Byte) : State :=
  if !s.serves then s else
    let r := s.writeItems role false [{ addr, value }]
    r.2.answer { status := r.1.1, item := r.1.2.1, action := r.1.2.2 }

/-- An address by its index, sub and scope. -/
def objAddr (index : Nat) (sub kind num : Nat) : ObjAddr := { index, sub, kind, num }

/-- The scope of a table instance's objects (02 R37). -/
def tabAddr (index table elem : Nat) : ObjAddr := objAddr index (table + 1) (tabKind table) (if tabKind table = 0 then 0 else elem)

/-! ### Commands: tick, time, tables, modes, resets -/

/-- `TIME_SET` (02 R50). -/
def execTimeSet (r : Role) (value : Nat) (s : State) : Out := .next (s.rowWrite r.code (objAddr 0x1021 0 0 0) (leBytes 9 value))

/-- `TABLE_SWAP_REQUEST` (02 R39). -/
def execTableSwapRequest (r : Role) (table : Fin 12) (elem target : Nat) (s : State) : Out :=
  .next (s.rowWrite r.code (tabAddr 0x1015 table elem) (leBytes 8 target))

/-- `MODE_REQUEST` (20 R482, R483); `afterCutoff` says that it comes after the cut-off of the tick. -/
def execModeRequest (r : Role) (value : BitVec 64) (afterCutoff : Bool) (s : State) : Out :=
  .next (
    let past := s.clk.pastCutoff
    let s := { s with clk := { s.clk with pastCutoff := past || afterCutoff } }
    let s := s.rowWrite r.code (objAddr 0x1001 0 0 0) (leBytes 8 value.toNat)
    { s with clk := { s.clk with pastCutoff := past } })

/-- `MODE_CANCEL` (20 R484). -/
def execModeCancel (r : Role) (s : State) : Out := .next (s.rowWrite r.code (objAddr 0x1003 0 0 0) [1])

/-- The scope kind and number of an element of `SOFT_RESET`. -/
def resetScope : ResetElem → Nat × Nat
  | .channel n => (1, n) | .cluster c => (2, c) | .region g => (3, g) | .die d => (4, d)

/-- `SOFT_RESET` (20 R476, R477). -/
def execSoftReset (r : Role) (e : ResetElem) (s : State) : Out :=
  .next (s.rowWrite r.code (objAddr 0x1050 0 (resetScope e).1 (resetScope e).2) [1])

/-- `RESET_CMD_WARM` (20 R472). -/
def execResetCmdWarm (r : Role) (s : State) : Out := .next (s.rowWrite r.code (objAddr 0x1051 0 0 0) [1])

/-- `RESET_CMD_DUMP_PRESERVING` (20 R472). -/
def execResetCmdDumpPreserving (r : Role) (s : State) : Out := .next (s.rowWrite r.code (objAddr 0x1051 0 0 0) [2])

/-- `DIE_ISOLATE` (01 R16). -/
def execDieIsolate (r : Role) (d : Rd) (s : State) : Out := .next (s.rowWrite r.code (objAddr 0x1081 0 4 d) [1])

/-- `DIE_RELEASE` (01 R21). -/
def execDieRelease (r : Role) (d : Rd) (s : State) : Out := .next (s.rowWrite r.code (objAddr 0x1081 0 4 d) [0])

/-- `CH_QUARANTINE` (21 R496). -/
def execChQuarantine (r : Role) (n : Ch) (s : State) : Out := .next (s.rowWrite r.code (objAddr 0x1088 0 1 n) [1])

/-- `CH_RELEASE` (21 R497). -/
def execChRelease (r : Role) (n : Ch) (s : State) : Out := .next (s.rowWrite r.code (objAddr 0x1088 0 1 n) [0])

/-! ### Commands: front end, housekeeping, linearizer, contexts, engines -/

/-- `CLAMP_SOURCE_CLEAR` (03 R72). -/
def execClampSourceClear (r : Role) (c : Cl) (bits : Nat) (s : State) : Out :=
  .next (s.rowWrite r.code (objAddr 0x2011 0 2 c) (leBytes 1 bits))

/-- `FEED_ENABLE` (03 R81). -/
def execFeedEnable (r : Role) (n : Ch) (value : Nat) (s : State) : Out :=
  .next (s.rowWrite r.code (objAddr 0x2030 0 1 n) (leBytes 1 value))

/-- `HK_SEQ_COMMIT` (04 R97). -/
def execHkSeqCommit (r : Role) (h : Hk) (s : State) : Out := .next (s.rowWrite r.code (objAddr 0x2803 0 10 h) [1])

/-- `HK_URGENT_REQUEST` (04 R102). -/
def execHkUrgentRequest (r : Role) (h : Hk) (source : Nat) (s : State) : Out :=
  .next (s.rowWrite r.code (objAddr 0x2806 0 10 h) (leBytes 1 source))

/-- `LIN_COEFF_COMMIT` (05 R115). -/
def execLinCoeffCommit (r : Role) (g : Rg) (s : State) : Out := .next (s.rowWrite r.code (objAddr 0x3001 0 3 g) [1])

/-- `LIN_REBUILD` (05 R116). -/
def execLinRebuild (r : Role) (g : Rg) (s : State) : Out := .next (s.rowWrite r.code (objAddr 0x3002 0 3 g) [1])

/-- `SUPP_CTX_WRITE` (06 R152). -/
def execSuppCtxWrite (r : Role) (k : Se) (value : BitVec 128) (s : State) : Out :=
  .next (s.rowWrite r.code (objAddr 0x4031 0 6 k) (leBytes 16 value.toNat))

/-- A write of `SUPP_CTX_CMD`; the row names no role, so the highest is taken (assumption log 2, DESIGN CHOICE). -/
def State.ctxRow (s : State) (n cmd arg first last : Nat) : State :=
  s.rowWrite Role.owner.code (objAddr 0x4032 0 1 n) (leBytes 8 (ctxCmdWord cmd arg first last))

/-- `CTX_HOLD` (06 R153). -/
def execCtxHold (n : Ch) (first last : Fin 2048) (s : State) : Out := .next (s.ctxRow n 1 0 first last)

/-- `CTX_RELEASE` (06 R153). -/
def execCtxRelease (n : Ch) (first last : Fin 2048) (s : State) : Out := .next (s.ctxRow n 2 0 first last)

/-- `CTX_MASK` (06 R153). -/
def execCtxMask (n : Ch) (first last : Fin 2048) (s : State) : Out := .next (s.ctxRow n 3 0 first last)

/-- `CTX_UNMASK` (06 R153). -/
def execCtxUnmask (n : Ch) (first last : Fin 2048) (s : State) : Out := .next (s.ctxRow n 4 0 first last)

/-- `CTX_RESEED` (06 R153). -/
def execCtxReseed (n : Ch) (first last : Fin 2048) (s : State) : Out := .next (s.ctxRow n 5 0 first last)

/-- `CTX_SET_K` (06 R153). -/
def execCtxSetK (n : Ch) (first last : Fin 2048) (k : BitVec 8) (s : State) : Out := .next (s.ctxRow n 6 k.toNat first last)

/-- `ENG_LOAD` (08 R193). -/
def execEngLoad (r : Role) (k : Se) (s : State) : Out := .next (s.rowWrite r.code (objAddr 0x5001 0 6 k) [1])

/-- `ENG_RESTART` (08 R185). -/
def execEngRestart (r : Role) (k : Se) (s : State) : Out := .next (s.rowWrite r.code (objAddr 0x5001 0 6 k) [2])

/-- `ENG_QUARANTINE_CMD` (08 R192). -/
def execEngQuarantineCmd (r : Role) (k : Se) (s : State) : Out := .next (s.rowWrite r.code (objAddr 0x5001 0 6 k) [3])

/-- `ENG_UNLOAD` (08 R192). -/
def execEngUnload (r : Role) (k : Se) (s : State) : Out := .next (s.rowWrite r.code (objAddr 0x5001 0 6 k) [4])

/-- `ENG_MSG_IN` (08 R194). -/
def execEngMsgIn (r : Role) (k : Se) (m : Msg) (s : State) : Out :=
  .next (s.rowWrite r.code (objAddr 0x5011 0 6 k) (msgBytes8 m))
where
  msgBytes8 (m : Msg) : List Byte := (msgList m).flatMap fun w => leBytes 4 w.toNat

/-! ### Commands: lanes, check-value units, images, self-test, keys -/

/-- `LANE_RESET` (15 R340). -/
def execLaneReset (r : Role) (l : Ln) (s : State) : Out := .next (s.rowWrite r.code (objAddr 0x9002 0 8 l) [1])

/-- `LANE_DISABLE` (15 R340). -/
def execLaneDisable (r : Role) (l : Ln) (s : State) : Out := .next (s.rowWrite r.code (objAddr 0x9002 0 8 l) [2])

/-- `LANE_ENABLE` (15 R359). -/
def execLaneEnable (r : Role) (l : Ln) (s : State) : Out := .next (s.rowWrite r.code (objAddr 0x9002 0 8 l) [3])

/-- `LINK_RATE_WRITE` (15 R333). -/
def execLinkRateWrite (r : Role) (cascade : Bool) (rate : Nat) (s : State) : Out :=
  .next (s.rowWrite r.code (objAddr (if cascade then 0x9011 else 0x9010) 0 0 0) (leBytes 1 rate))

/-- `CVU_SUBMIT` (18 R439, R440). -/
def execCvuSubmit (r : Role) (u : Fin 4) (desc : BitVec 256) (s : State) : Out :=
  .next (s.rowWrite r.code (objAddr 0xA020 (u + 1) 0 0) (leBytes 32 desc.toNat))

/-- `CVU_CONTEXT_WRITE` (18 R442). -/
def execCvuContextWrite (r : Role) (u : Fin 4) (value : BitVec 96) (s : State) : Out :=
  .next (s.rowWrite r.code (objAddr 0xA023 (u + 1) 0 0) (leBytes 12 value.toNat))

/-- `KERNEL_CONFIRM` (19 R459). -/
def execKernelConfirm (r : Role) (s : State) : Out := .next (s.rowWrite r.code (objAddr 0xB001 0 0 0) [1])

/-- `ROLLBACK_COMMIT` (19 R456). -/
def execRollbackCommit (r : Role) (s : State) : Out := .next (s.rowWrite r.code (objAddr 0xB003 0 0 0) [1])

/-- `FUSE_OWNER_KEY` (19 R455). -/
def execFuseOwnerKey (r : Role) (key : Fin 4) (hash : List Byte) (s : State) : Out :=
  .next (s.rowWrite r.code (objAddr 0xB005 (key + 1) 0 0) hash)

/-- `FUSE_OWNER_REVOKE` (19 R455). -/
def execFuseOwnerRevoke (r : Role) (key : Fin 4) (s : State) : Out := .next (s.rowWrite r.code (objAddr 0xB006 (key + 1) 0 0) [1])

/-- `IMAGE_VERIFY` (19 R465). -/
def execImageVerify (r : Role) (slot : Fin 68) (s : State) : Out := .next (s.rowWrite r.code (objAddr 0xB013 (slot + 1) 0 0) [1])

/-- `IMAGE_ERASE` (19 R466). -/
def execImageErase (r : Role) (slot : Fin 68) (s : State) : Out := .next (s.rowWrite r.code (objAddr 0xB014 (slot + 1) 0 0) [1])

/-- `IMAGE_ACTIVATE` (19 R465). -/
def execImageActivate (r : Role) (slot : Fin 4) (s : State) : Out := .next (s.rowWrite r.code (objAddr 0xB015 (slot + 1) 0 0) [1])

/-- `SELFTEST_START` (21 R500). -/
def execSelftestStart (r : Role) (mask : BitVec 64) (s : State) : Out :=
  .next (s.rowWrite r.code (objAddr 0xB060 0 0 0) (leBytes 8 mask.toNat))

/-- `DUMP_ACK` (21 R508). -/
def execDumpAck (r : Role) (s : State) : Out := .next (s.rowWrite r.code (objAddr 0xB083 0 0 0) [1])

/-- The index of a key slot's part. -/
def keyIndex : KeyPart → Nat
  | .pubKey => 0x9820 | .secret => 0x9821 | .slotRole => 0x9822

/-- `KEY_SLOT_WRITE` (17 R405). -/
def execKeySlotWrite (r : Role) (slot : Fin 8) (what : KeyPart) (value : List Byte) (s : State) : Out :=
  .next (s.rowWrite r.code (objAddr (keyIndex what) (slot + 1) 0 0) value)

/-- `SET_ERASE` (17 R422). -/
def execSetErase (r : Role) (slot : Fin 8) (s : State) : Out := .next (s.rowWrite r.code (objAddr 0x0023 (slot + 1) 0 0) [1])

/-! ### Saved sets (17 R417-R419) -/

/-- The objects that a saved set leaves out although they can be written (17 R417). -/
def unsavedIdx : List Nat :=
  [0x1021, 0x2011, 0x4025, 0x5005, 0x6807, 0x7807, 0xA012, 0xA013, 0x4031, 0xA023, 0x1081, 0x1088]

/-- Whether a saved set holds an object (17 R417). -/
def savedObj (o : ObjDef) : Bool :=
  (o.access == .rw || o.access == .rwm) && decide (o.size ≤ 256) && !unsavedIdx.contains o.idx &&
    !decide ((0x9800 ≤ o.idx ∧ o.idx < 0xA000) ∨ 0xB000 ≤ o.idx)

/-- Whether a saved set holds the value of a key. -/
def savedKey (k : Nat) : Bool := match objAt (keyIdx k) with | some o => savedObj o | none => false

/-- The values in force of the settings a set holds: of a swapped table its live fields (17 R417; assumption log 33, DEDUCED). -/
def State.savedVals (s : State) : SMap Int :=
  let tab (k : Nat) : Bool := (shadowOf (keyIdx k) (keyElem k)).isSome
  smKeep savedKey (smCopy tab s.live (smKeep (fun k => !tab k) s.vals))

/-- The same of the BLOBs. -/
def State.savedBlobs (s : State) : SMap (List Byte) :=
  let tab (k : Nat) : Bool := (shadowOf (keyIdx k) (keyElem k)).isSome
  smKeep savedKey (smCopy tab s.liveBlobs (smKeep (fun k => !tab k) s.blobs))

/-- A save begins: the values of this tick are captured, the length and check value of the stored set being free (17 R417;
assumption log 5, DESIGN CHOICE). -/
def State.saveBegin (s : State) (slot action : Nat) (name : List Byte) : State :=
  let a := s.free (2 ^ 18)
  let b := a.2.free (2 ^ 32)
  let x : SavedSet := { layout := s.nat Obj.DICT_LAYOUT, tick := s.tick, name, vals := s.savedVals, blobs := s.savedBlobs
                        size := a.1, crc := b.1, valid := true }
  { b.2 with sdp := { b.2.sdp with saving := some (slot, action, x) } }

/-- `SET_SAVE_DONE` (17 R417): the set is in its slot, its CRC written last. -/
def execSetSaveDone (s : State) : Out :=
  .next (match s.sdp.saving with
    | none => s
    | some (slot, action, x) =>
      let put (m : SMap SavedSet) : SMap SavedSet := (smKeep (fun k => decide (k < slot)) m) ++ (slot, x) :: smKeep (fun k => decide (slot < k)) m
      ({ s with sdp := { s.sdp with saving := none, sets := put s.sdp.sets } } : State).actionDone action St.OK)

/-- The tables that hold fields of a saved set (17 R417, R418). -/
def savedTabs : List (Nat × Nat) := allTabs.filter fun t => [2, 3, 4, 6, 8, 9, 10, 11].contains t.1

/-- A field of a table instance that a saved set holds. -/
def tabField (t : Nat × Nat) : Nat :=
  match t.1 with
  | 2 => key Obj.REQ_SHIFT (16 * t.2) 0 | 3 => key Obj.SUPP_H t.2 0 | 4 => key Obj.BEAM_EPOCH t.2 0 | 6 => key Obj.BEAM_SCALE 0 1
  | 8 => key Obj.COIN_CL_K 0 0 | 9 => key Obj.CODER_TAB_SHADOW t.2 0 | 10 => key Obj.REC_PRE 0 1 | _ => key Obj.BEAM_ENABLE 0 0

/-- The scope kind of an element of an object's scope. -/
def scopeAddr (sc : Scope) (sub e : Nat) : Nat × Nat :=
  match sc with
  | .none => (0, 0) | .ch => (1, e) | .cl => (2, e) | .rg => (3, e) | .rd => (4, e) | .se => (6, e) | .bk => (7, e) | .ln => (8, e)
  | .rdCd => if e = 8 then (5, 0) else (4, e)
  | .tdc => if e < 256 then (1, e) else (9, e - 256)
  | .hk => (10, e)
  | .domain => if e < 4 then (11, e) else if e = 4 then (5, 0) else (4, e - 5)
  | .table => match sub with | 1 | 2 | 3 | 8 | 10 => (3, e) | 4 | 5 | 6 => (7, e) | _ => (0, 0)
  | .softReset => resetElem e

/-- The item that writes a key's value of a set. -/
def setItem (x : SavedSet) (k : Nat) : Option WItem :=
  match objAt (keyIdx k) with
  | none => none
  | some o =>
    let sub := keySub k
    let e := keyElem k
    let a := scopeAddr o.scope sub e
    some { addr := objAddr o.idx sub a.1 a.2
           value := if o.ty = .blob then smGet (dfltBlob o) x.blobs k else encodeVal o.ty (smGet (dfltVal o e sub) x.vals k) }

/-- The keys a restore writes: those the set or the module holds beside their defaults, one of every input out of service, and one of
every table that is busy, in the order of the keys. Assumption log 61, DEDUCED. -/
def State.restoreKeys (s : State) (x : SavedSet) : List Nat :=
  let held := (s.vals.map (·.1) ++ s.blobs.map (·.1) ++ s.staged.map (·.key)).filter savedKey
  let out := ((List.range 256).filter fun n => !s.inService n).map fun n => key Obj.RANGE_MODE n 0
  let busy := (savedTabs.filter fun t => s.shadowBusy t.1 t.2).map tabField
  ((x.vals.map (·.1) ++ x.blobs.map (·.1) ++ held ++ out ++ busy).mergeSort fun a b => decide (a ≤ b)).eraseDups

/-- A restore of a slot: its status, and the state it leaves (17 R418). -/
def State.restoreSet (s : State) (slot : Nat) : Nat × State :=
  match s.sdp.sets.find? fun e => e.1 == slot with
  | none => (St.NO_OBJECT, s)
  | some (_, x) =>
    if !x.valid then (St.CHECK, s)
    else if x.layout ≠ s.nat Obj.DICT_LAYOUT then (St.RANGE, s)
    else
      let ds := ((s.restoreKeys x).filterMap (setItem x)).map (s.decodeItem Role.owner.code false)
      let l := passed ds
      let v := viewOf l
      match s.firstFailing v 1 0 [] ds with
      | some (_, st) => (st, s)
      | none =>
        if !savedTabs.all fun t => s.tabContentsOk v t.1 t.2 then (St.RANGE, s)
        else (St.OK, savedTabs.foldl (fun s t => s.commitTab t.1 t.2 0) (s.applyItems 0 l))

/-- `SET_RESTORE_DONE` (17 R418). -/
def execSetRestoreDone (s : State) : Out :=
  .next (match s.sdp.restoring with
    | none => s
    | some (slot, action) =>
      let r := ({ s with sdp := { s.sdp with restoring := none } } : State).restoreSet slot
      r.2.actionDone action r.1)

/-- The boot restore (17 R419). -/
def State.bootRestore (s : State) : State :=
  let slot := s.nat Obj.SET_BOOT
  if 8 ≤ slot then s else
    let r := s.restoreSet slot
    r.2.setVal Obj.SET_BOOT_RESULT r.1

/-- `SAFE_ENTRY` (20 R469). -/
def execSafeEntry (bootTicks : Nat) (s : State) : Out := .next (s.safeEnter bootTicks State.bootRestore)

end Sys2Proof.Machine
end

