-- ==== Sys2Proof/Machine/Sdp.lean ====
section
/-! DEFINITION. The Sniman dictionary protocol (17 R396-R414): messages, sessions, requests and their responses, the requests that the
application answers (19 R464), and events. -/

namespace Sys2Proof.Machine

/-! ### Messages (17 R399, R403) -/

/-- A request as received: its source, the 16 bytes of its header, what the header says, its body and its `MAC`. -/
structure Req where
  src     : Source
  hdr     : List Byte
  session : Nat
  reqId   : BitVec 32
  resp    : Bool
  lenOk   : Bool
  op      : Nat
  body    : List Byte
  mac     : BitVec 64
deriving DecidableEq, Repr

/-- The 16 bytes of a header (17 R399). -/
def hdrBytes (tick reqId len session status : Nat) (resp : Bool) (op : Nat) : List Byte :=
  leBytes 4 tick ++ leBytes 4 reqId ++ leBytes 2 len ++ leBytes 2 session ++ leBytes 1 status ++
    leBytes 1 (if resp then 128 else 0) ++ leBytes 1 op ++ leBytes 1 1

/-- The first 8 bytes of the HMAC under a session's key (17 R403). -/
def macBytes (k : List Byte) (hdr body : List Byte) : List Byte := slice (hmac k (hdr ++ pad4 body)) 0 8

/-- The key of a session (17 R402). -/
def State.sessionKey (s : State) (x : Session) : List Byte :=
  hmac (s.blob Obj.KEY_SECRET 0 (x.slot + 1)) (x.nonceM ++ x.nonceC ++ leBytes 2 x.num)

/-- The request that a row spells: its header with the body's length (17 R399). -/
def rowReq (h : SdpHdr) (op : Nat) (body : List Byte) : Req :=
  { src := h.src, hdr := hdrBytes 0 h.reqId.toNat body.length h.session 0 h.resp op, session := h.session, reqId := h.reqId
    resp := h.resp, lenOk := h.lengthOk, op, body, mac := h.mac }

/-- A message handed to its source: over VC0 as an `SDP` frame of the downlink (17 R397). -/
def State.sdpSend (s : State) (src : Source) (bytes : List Byte) : State :=
  match src with
  | .udp _ _ => s
  | .vc0 _ => s.queueFrame 0 0 4 bytes

/-- The bytes of a response (17 R399). -/
def Reply.bytes (r : Reply) : List Byte :=
  hdrBytes r.tick r.reqId.toNat r.body.length r.session r.status true r.opcode ++ pad4 r.body ++ r.mac

/-- A response leaves (17 R398). -/
def State.sendReply (s : State) (src : Source) (r : Reply) : State :=
  ({ s with sdp := { s.sdp with reply := some r } } : State).sdpSend src r.bytes

/-- The state with a session changed. -/
def State.setSession (s : State) (num : Nat) (f : Session → Session) : State :=
  { s with sdp := { s.sdp with sessions := s.sdp.sessions.map fun x => if x.num = num then f x else x } }

/-- The session of a number. -/
def State.session (s : State) (num : Nat) : Option Session := s.sdp.sessions.find? fun x => x.num == num

/-- A response without a session's key: `HELLO` and requests that no open session takes (17 R403, R405). -/
def State.plainReply (s : State) (q : Req) (session status : Nat) (body : List Byte) : State :=
  s.sendReply q.src { opcode := q.op, status, session, reqId := q.reqId, tick := s.tick % 2 ^ 32, body, mac := List.replicate 8 0 }

/-- A response under a session's key `k`, kept with its request among the session's last 8 (17 R403, R404). -/
def State.keyedReply (s : State) (k : List Byte) (src : Source) (session op : Nat) (reqId : BitVec 32) (mac : BitVec 64) (status : Nat)
    (body : List Byte) : State :=
  let tick := s.tick % 2 ^ 32
  let m := macBytes k (hdrBytes tick reqId.toNat body.length session status true op) body
  let r : Reply := { opcode := op, status, session, reqId, tick, body, mac := m }
  (s.setSession session fun x => { x with kept := ((reqId, mac, r) :: x.kept).take 8 }).sendReply src r

/-! ### Request bodies (17 R400) -/

/-- The object addresses of a `READ`. -/
def bodyAddrs (b : List Byte) : List ObjAddr := (List.range (b.length / 8)).map fun i => addrOf (slice b (8 * i) 8)

/-- The items of a `WRITE`, `none` where the lengths do not match. -/
def bodyItems : Nat → List Byte → Option (List WItem)
  | 0, b => if b.isEmpty then some [] else none
  | n + 1, b =>
    if b.isEmpty then some [] else
      let len := leNat (slice b 8 2)
      let all := 12 + (len + 3) / 4 * 4
      if b.length < all then none else
        match bodyItems n (b.drop all) with
        | none => none
        | some r => some ({ addr := addrOf (slice b 0 8), value := slice b 12 len } :: r)

/-- Whether a body has the length of its opcode. -/
def bodyOk (op : Nat) (b : List Byte) : Bool :=
  let n := b.length
  match op with
  | 0x01 => n == 20
  | 0x02 => n == 64
  | 0x03 => n == 0
  | 0x04 => decide (8 ≤ n ∧ n ≤ 128) && n % 8 == 0
  | 0x05 => match bodyItems 16 b with | some l => !l.isEmpty | none => false
  | 0x06 => n == 16
  | 0x07 => decide (16 ≤ n) && n == 16 + (leNat (slice b 12 2) + 3) / 4 * 4
  | 0x08 => n == 8
  | 0x09 => n == 4
  | 0x0B => n == 8
  | 0x0C => n == 16
  | 0x0D => n == 4
  | 0x0E => decide (n ≤ 64)
  | _ => true

/-- The bytes of an item of a `WRITE`. -/
def itemBytes (w : WItem) : List Byte := addrBytes w.addr ++ leBytes 2 w.value.length ++ leBytes 2 0 ++ pad4 w.value

/-! ### `READ` (17 R406, R409) -/

/-- The header and value of a read item; `again` is `READ_AGAIN`. -/
def readItemBytes (r : ReadItem) (again : Bool) : List Byte :=
  let flags := (if r.gen.isSome then 64 else 0) + (if again then 128 else 0)
  leBytes 2 0 ++ leBytes 2 (r.gen.getD 0) ++ leBytes 2 r.value.length ++ leBytes 1 flags ++ leBytes 1 r.status ++ pad4 r.value

/-- The 64-bit word under which a session remembers an object and scope. -/
def rememberKey (a : ObjAddr) : Nat := addrWord a

/-- Read items taken in order: those whose values would take the response beyond 1,440 bytes get `LENGTH`, and results are
remembered (17 R406, R409). `used` are the bytes taken by the headers and the values before. Assumption log 58, DEDUCED. -/
def layItems (used : Nat) (seen : List (Nat × Nat)) : List (ObjAddr × ReadItem) → List (ReadItem × Bool) × List (Nat × Nat)
  | [] => ([], seen)
  | (a, r) :: rest =>
    let size := (r.value.length + 3) / 4 * 4
    if 1440 < used + size then
      let y := layItems used seen rest
      (({ status := St.LENGTH }, false) :: y.1, y.2)
    else
      match r.gen with
      | none => let y := layItems (used + size) seen rest; ((r, false) :: y.1, y.2)
      | some g =>
        let k := rememberKey a
        let again := r.status == St.OK && (seen.find? fun e => e.1 == k) == some (k, g)
        let y := layItems (used + size) (((k, g) :: seen.filter fun e => e.1 != k).take 256) rest
        ((r, again) :: y.1, y.2)

/-- The status of a `READ` response (17 R406). -/
def readStatus (l : List ReadItem) : Nat :=
  if l.any fun r => r.status == St.OK || r.status == St.NOT_READY then St.OK
  else match l with | [] => St.OK | r :: _ => r.status

/-- What an item that the application answered reads as; a value beyond 256 bytes is `LENGTH`. -/
def appItem (g : Nat × List Byte) : ReadItem :=
  if g.1 ≠ St.OK then { status := g.1 } else if 256 < g.2.length then { status := St.LENGTH } else { status := St.OK, value := g.2 }

/-- Every item of a `READ`, those of the application from `got` (item, status, value); one that is not there does not exist (19
R464). Assumption log 58, DEDUCED. -/
def State.readAll (s : State) (addrs : List ObjAddr) (got : List (Nat × Nat × List Byte)) : List (ObjAddr × ReadItem) :=
  ((List.range addrs.length).zip addrs).map fun p =>
    (p.2, if appIndex p.2.index then
        (match got.find? fun g => g.1 == p.1 with | some g => appItem g.2 | none => { status := St.NO_OBJECT })
      else s.readItem p.2)

/-- A `READ` served for a session: the status, the body, and the state with what the session remembers. -/
def State.serveRead (s : State) (num : Nat) (addrs : List ObjAddr) (got : List (Nat × Nat × List Byte)) : (Nat × List Byte) × State :=
  let seen := match s.session num with | some x => x.remembered | none => []
  let y := layItems (8 * addrs.length) seen (s.readAll addrs got)
  ((readStatus (y.1.map (·.1)), y.1.flatMap fun r => readItemBytes r.1 r.2), s.setSession num fun x => { x with remembered := y.2 })

/-! ### Requests that the application answers (19 R464) -/

/-- Whether the application runs. -/
def State.appAnswers (s : State) : Bool := s.appRuns

/-- The status of a write item of the application's range after steps 3 and 4 of 17 R395, `OK` when it is to be forwarded. -/
def State.appItemStatus (s : State) (role : Nat) (w : WItem) : Nat :=
  if !s.appAnswers || !s.indexServed w.addr.index then St.NO_OBJECT
  else if role < Nat.max 1 (Config.appRole (s.nat Obj.APP_SLOT_RUNNING) w.addr.index) then St.ACCESS
  else if s.mode = Mode.HALT then St.MODE
  else St.OK

/-- The module's own items of a `WRITE`, with the places they have in it. -/
def ownItems (items : List WItem) : List (Nat × WItem) :=
  ((List.range items.length).zip items).filter fun p => !appIndex p.2.addr.index

/-- The first failing item of a `WRITE` before anything is forwarded. -/
def State.firstRefused (s : State) (role : Nat) (app : Bool) (items : List WItem) : Option (Nat × Nat) :=
  let ds := items.map (s.decodeItem role app)
  let v := viewOf (passed ds)
  let own := match s.firstFailing v items.length 0 [] ((ds.zip items).filterMap fun p => if appIndex p.2.addr.index then none else some p.1) with
    | none => none
    | some (i, st) => ((ownItems items)[i]?).map fun p => (p.1, st)
  let apps := ((List.range items.length).zip items).filterMap fun p =>
    let st := s.appItemStatus role p.2
    if appIndex p.2.addr.index && st != St.OK then some (p.1, st) else none
  match own, apps with
  | none, [] => none
  | some a, [] => some a
  | none, b :: _ => some b
  | some a, b :: _ => some (if a.1 < b.1 then a else b)

/-- A `READ_SEG`: its status and body. -/
def State.readSeg (s : State) (b : List Byte) : Nat × List Byte :=
  let a := addrOf (slice b 0 8)
  let off := leNat (slice b 8 4)
  let n := leNat (slice b 12 2)
  match s.resolve a with
  | .error st => (st, [])
  | .ok (o, e) =>
    if o.access = .wo then (St.ACCESS, [])
    else if o.ty ≠ .blob then (St.TYPE, [])
    else
      let total := s.readLen o e a.sub
      if n = 0 ∨ 1024 < n ∨ total < off then (St.RANGE, []) else
        let k := Nat.min n (total - off)
        let gen := if o.result then s.genOf o e a.sub else 0
        (St.OK, leBytes 4 total ++ leBytes 2 gen ++ leBytes 1 (if off + k = total then 1 else 0) ++ leBytes 1 0 ++
          pad4 (s.readSlice o e a.sub off k))

/-- Whether a read of an index waits for the end of the tick's hand-out: `ENG_DATA_VIEW` shows data memory as of then (08 R194). -/
def State.readWaits (s : State) (i : Nat) : Bool := i == 0x5013 && s.clk.counting

/-- A request joins those outstanding; with more than 8 of them, none has a time guaranteed (17 R412). -/
def State.addJob (s : State) (j : Job) : State :=
  let jobs := s.sdp.jobs ++ [{ j with born := s.clk.ord }]
  let many := decide (8 < (jobs.filter fun j => j.hdr.isSome).length)
  { s with sdp := { s.sdp with jobs := if many then jobs.map fun j => { j with many := true } else jobs } }

/-- A job is taken up: its items of the application's range are forwarded under new request numbers. -/
def State.openJob (s : State) (hdr : Option SdpHdr) (role : Nat) (writes : Bool) (items : List WItem) : State :=
  let held := !writes && items.any fun w => s.readWaits w.addr.index
  let apps := ((List.range items.length).zip items).filter fun p =>
    appIndex p.2.addr.index && (writes || (s.appAnswers && s.indexServed p.2.addr.index))
  let n := s.sdp.nextForward
  let waits := ((List.range apps.length).zip apps).map fun p => (n + p.1, p.2.1, s.clk.ord)
  let s := s.addJob { hdr, role, writes, items, waits, held }
  { s with sdp := { s.sdp with nextForward := n + apps.length } }

/-- The outcome of a `WRITE` whose application items are answered: the first item refused, or every item of the module applied. -/
def State.closeWrite (s : State) (role : Nat) (app : Bool) (items : List WItem) (got : List (Nat × Nat × List Byte)) :
    (Nat × Nat × Nat) × State :=
  match (got.filter fun g => g.2.1 != St.OK).mergeSort fun a b => decide (a.1 ≤ b.1) with
  | g :: _ => ((g.2.1, g.1, 0), s)
  | [] =>
    let own := ownItems items
    let r := s.writeItems role app (own.map (·.2))
    if r.1.1 = St.OK then r else ((r.1.1, ((own[r.1.2.1]?).map (·.1)).getD r.1.2.1, 0), r.2)

/-- The body of a `WRITE` response. -/
def writeBody (r : Nat × Nat × Nat) : List Byte := leBytes 1 r.2.1 ++ leBytes 3 0 ++ leBytes 4 r.2.2

/-- A response handed over more than 250 ticks after its request, with no more than 8 outstanding meanwhile, is late (17 R412). -/
def State.lateResponse (s : State) (j : Job) : State :=
  if !j.many && decide (j.born + 250 < s.clk.ord) then s.inc Obj.SDP_LATE_RESPONSE_COUNT else s

/-- A job whose items are all answered ends with its response. -/
def State.finishJob (s : State) (j : Job) : State :=
  match j.hdr with
  | none =>
    if j.writes then
      let r := s.closeWrite j.role false j.items j.got
      r.2.answer { status := r.1.1, item := r.1.2.1, action := r.1.2.2 }
    else
      match s.readAll (j.items.map (·.addr)) j.got with
      | [] => s
      | p :: _ => s.answer { status := p.2.status, data := p.2.value }
  | some h =>
    match s.session h.session with
    | none => s
    | some x =>
      let k := s.sessionKey x
      let s := s.lateResponse j
      if j.writes then
        let r := s.closeWrite j.role false j.items j.got
        r.2.keyedReply k h.src h.session 0x05 h.reqId h.mac r.1.1 (writeBody r.1)
      else match j.seg with
      | some b => let r := s.readSeg b; s.keyedReply k h.src h.session 0x06 h.reqId h.mac r.1 r.2
      | none =>
        let r := s.serveRead h.session (j.items.map (·.addr)) j.got
        r.2.keyedReply k h.src h.session 0x04 h.reqId h.mac r.1.1 r.1.2

/-- Every job that waits for nothing more ends, in order of arrival (17 R412). -/
def State.settleJobs (s : State) : State :=
  let ends (j : Job) : Bool := j.waits.isEmpty && !j.held
  let done := s.sdp.jobs.filter ends
  done.foldl State.finishJob { s with sdp := { s.sdp with jobs := s.sdp.jobs.filter fun j => !ends j } }

/-- At the end of the hand-out the reads that waited for it are answered (08 R194). -/
def State.viewsServe (s : State) : State :=
  if s.sdp.jobs.any fun j => j.held then
    ({ s with sdp := { s.sdp with jobs := s.sdp.jobs.map fun j => { j with held := false } } } : State).settleJobs
  else s

/-- The answer to forwarded requests that `p` names. -/
def State.answerForwards (s : State) (p : Nat × Nat × Nat → Bool) (status : Nat) (value : List Byte) : State :=
  let one (j : Job) : Job :=
    { j with waits := j.waits.filter (fun w => !p w), got := j.got ++ (j.waits.filter p).map fun w => (w.2.1, status, value) }
  ({ s with sdp := { s.sdp with jobs := s.sdp.jobs.map one } } : State).settleJobs

/-! ### Segments (17 R410, R411) -/

/-- The partial value of a key that is being built. -/
def State.partialOf (s : State) (k : Nat) : Option Partial := s.sdp.partials.find? fun x => x.key == k && !x.timedOut

/-- The partial value of a key discarded. -/
def State.dropPartial (s : State) (k : Nat) : State :=
  { s with sdp := { s.sdp with partials := s.sdp.partials.filter fun x => x.key != k || x.timedOut } }

/-- The size a value built in segments must have: of an image upload any up to its slot (19 R465, R466). -/
def segLimit (o : ObjDef) (sub : Nat) : Nat := if o.idx = 0xB010 then slotBytes (sub - 1) else o.size

/-- A segment accepted, not the last: kept, or of an image written to its slot (19 R465). -/
def State.segStore (s : State) (o : ObjDef) (a : ObjAddr) (k num off : Nat) (data : List Byte) : State :=
  let old := match s.partialOf k with | some p => p.data | none => []
  let s := if o.idx = 0xB010 then
      (s.putBytes (slotAddr (a.sub - 1) off) data).setImgState (a.sub - 1) imgWRITING
    else s
  let p : Partial := { key := k, addr := a, session := num, data := if o.idx = 0xB010 then [] else old ++ data
                       done := off + data.length, since := s.clk.ord }
  let s := s.dropPartial k
  { s with sdp := { s.sdp with partials := s.sdp.partials ++ [p] } }

/-- The last segment: the whole value as one write (17 R411). -/
def State.segFinish (s : State) (role : Nat) (o : ObjDef) (a : ObjAddr) (k : Nat) : Nat × State :=
  match s.partialOf k with
  | none => (St.RANGE, s)
  | some p =>
    let s := s.dropPartial k
    if o.idx = 0xB010 then (St.OK, s.setImgState (a.sub - 1) imgWRITTEN)
    else
      let r := s.writeItems role false [{ addr := a, value := p.data }]
      (r.1.1, r.2)

/-- A `WRITE_SEG` of a session with a role (17 R411). -/
def State.writeSeg (s : State) (num role : Nat) (b : List Byte) : Nat × State :=
  let a := addrOf (slice b 0 8)
  let off := leNat (slice b 8 4)
  let n := leNat (slice b 12 2)
  let last := bitOf (leNat (slice b 14 2)) 0
  match s.resolve a with
  | .error st => (st, s)
  | .ok (o, e) =>
    let k := key o e a.sub
    if o.access = .ro ∨ role < o.role then (St.ACCESS, s)
    else if s.modeAllows o [] = false then (St.MODE, s)
    else if s.elemOutFor o a e = true then (St.QUARANTINED, s)
    else if o.ty ≠ .blob then (St.TYPE, s)
    else if (s.sdp.partials.any fun p => p.key == k && !p.timedOut && p.session != num) then (St.BUSY, s)
    else if (s.sdp.partials.any fun p => p.key == k && p.timedOut && p.session == num) then
      (St.TIMEOUT, { s with sdp := { s.sdp with partials := s.sdp.partials.filter fun p => !(p.key == k && p.timedOut && p.session == num) } })
    else if o.idx = 0xB010 ∧ (s.slotRuns (a.sub - 1) || s.slotLoads (a.sub - 1)) = true then (St.BUSY, s)
    else
      let done := match s.partialOf k with | some p => p.done | none => 0
      let stop := off + n
      let lim := segLimit o a.sub
      let fits := if last then (if o.idx = 0xB010 then decide (stop ≤ lim) else stop == lim) else decide (stop < lim)
      if n = 0 ∨ 1024 < n ∨ off ≠ done ∨ fits = false then (St.RANGE, s.dropPartial k) else
        let s := s.segStore o a k num off (slice b 16 n)
        if last then s.segFinish role o a k else (St.OK, s)

/-! ### Subscriptions and events (17 R413, R414) -/

/-- How many elements a scope kind has (00 R5). -/
def kindCount (k : Nat) : Nat :=
  match k with
  | 0 => 1 | 1 => 256 | 2 => 64 | 3 => 16 | 4 => 8 | 5 => 1 | 6 => 256 | 7 => 16 | 8 => 48 | 9 => 16 | 10 => 9 | 11 => 4 | _ => 0

/-- A `SUBSCRIBE`: its status and body. The number of the subscription is a free choice among those not in use. -/
def State.subscribe (s : State) (num : Nat) (b : List Byte) : (Nat × List Byte) × State :=
  let y : EvSub := { code := BitVec.ofNat 16 (leNat (slice b 0 2)), mask := BitVec.ofNat 16 (leNat (slice b 2 2))
                     kind := leNat (slice b 4 1), num := leNat (slice b 6 2) }
  let subs := match s.session num with | some x => x.subs | none => []
  if 11 < y.kind ∨ (y.num ≠ 0xFFFF ∧ kindCount y.kind ≤ y.num) then ((St.RANGE, []), s)
  else if 8 ≤ subs.length then ((St.BUSY, []), s)
  else
    let free := (List.range 256).filter fun i => !subs.any fun x => x.1 == i
    let q := s.free free.length
    let id := nth 0 free q.1
    ((St.OK, leBytes 1 id ++ leBytes 3 0), q.2.setSession num fun x => { x with subs := x.subs ++ [(id, y)] })

/-- An `UNSUBSCRIBE`. -/
def State.unsubscribe (s : State) (num : Nat) (b : List Byte) : Nat × State :=
  let id := leNat (slice b 0 1)
  let subs := match s.session num with | some x => x.subs | none => []
  if subs.any fun x => x.1 == id then (St.OK, s.setSession num fun x => { x with subs := x.subs.filter fun y => y.1 != id })
  else (St.NO_OBJECT, s)

/-- The 32 bytes of an event record (17 R415). -/
def Event.bytes (e : Event) : List Byte :=
  leBytes 4 e.seq ++ leBytes 2 e.code ++ leBytes 1 e.kind ++ leBytes 1 0 ++ leBytes 2 e.num ++ leBytes 2 0 ++ leBytes 8 e.tick ++
    slice e.arg 0 12

/-- Whether a number stands before another modulo 2³² (17 R404, R413). -/
def before32 (a b : Nat) : Bool := decide (ofTwos 32 (b + 2 ^ 32 - a % 2 ^ 32) > 0)

/-- An `EVENT_READ`: its status and body. -/
def State.eventRead (s : State) (b : List Byte) : Nat × List Byte :=
  let first := leNat (slice b 0 4)
  let n := leNat (slice b 4 1)
  if n = 0 ∨ 16 < n then (St.RANGE, [])
  else (St.OK, ((s.sdp.ring.reverse.filter fun e => !before32 e.seq first).take n).flatMap Event.bytes)

/-- The `EVENTS_LOST` record of a session (17 R414). -/
def State.lostRecord (s : State) (l : LostEvents) : Event :=
  { seq := l.oldest, code := 0xD002, kind := 0, num := 0, tick := s.tick, arg := argBytes (leBytes 4 l.count ++ leBytes 4 l.newest) }

/-- An `EVENT` message to a session, within its rate (17 R413, R414). -/
def State.eventSend (s : State) (num : Nat) : State :=
  match s.session num with
  | none => s
  | some x =>
    if !x.isOpen || !s.serves || decide (100 ≤ x.sentThisSecond) || (x.waiting.isEmpty && x.lost.isNone) then s else
      let head := match x.lost with | some l => [s.lostRecord l] | none => []
      let recs := head ++ x.waiting.take (16 - head.length)
      let count := (x.msgCount + 1) % 2 ^ 32
      let body := recs.flatMap Event.bytes
      let hdr := hdrBytes 0 count body.length num 0 false 0x0A
      let m := macBytes (s.sessionKey x) hdr body
      let s := s.setSession num fun x => { x with
        waiting := x.waiting.drop (16 - head.length), lost := none, msgCount := count, sentThisSecond := x.sentThisSecond + 1 }
      ({ s with sdp := { s.sdp with event := some (num, count, recs) } } : State).sdpSend x.src (hdr ++ body ++ m)

/-- `EVENT_SEND` (17 R414). -/
def execEventSend (session : Nat) (s : State) : Out := .next (s.eventSend session)

/-! ### Sessions (17 R401-R405) -/

/-- A free session number: never 0 and never in use. -/
def pickSession (used : List Nat) (v : Nat) : Nat :=
  (used.mergeSort fun a b => decide (a ≤ b)).foldl (fun v u => if u ≤ v then v + 1 else v) v

/-- A `HELLO` (17 R401). -/
def State.hello (s : State) (q : Req) : State :=
  let role := leNat (slice q.body 0 1)
  let slot := leNat (slice q.body 1 1)
  if s.sdp.banned.any fun b => b.1 == q.src && decide (s.clk.ord < b.2) then s
  else if q.resp || !q.lenOk || !bodyOk 1 q.body then s.plainReply q 0 St.LENGTH []
  else if 32 ≤ s.sdp.jobs.length then (s.inc Obj.SDP_BUSY_COUNT).plainReply q 0 St.BUSY []
  else if 8 ≤ slot ∨ s.blob Obj.KEY_PUBLIC 0 (slot + 1) = List.replicate 32 0 ∨ s.nat Obj.KEY_ROLE 0 (slot + 1) < role then
    s.plainReply q 0 St.ACCESS []
  else if 8 ≤ s.sdp.sessions.length then s.plainReply q 0 St.BUSY []
  else
    let a := s.free (65535 - s.sdp.sessions.length)
    let b := a.2.freeBytes 32
    let num := pickSession (s.sdp.sessions.map (·.num)) (a.1 + 1)
    let x : Session := { num, src := q.src, slot, role, since := s.clk.ord, nonceM := b.1, nonceC := slice q.body 4 16 }
    let s := { b.2 with sdp := { b.2.sdp with sessions := b.2.sdp.sessions ++ [x] } }
    s.plainReply q 0 St.OK (leBytes 2 num ++ leInt 2 (s.val Obj.MODULE_NUMBER) ++ leBytes 4 0 ++ b.1)

/-- The 58 bytes that an `AUTH` signs (17 R402). -/
def State.authText (s : State) (x : Session) : List Byte :=
  asciiBytes "SDP1" ++ x.nonceM ++ x.nonceC ++ leInt 2 (s.val Obj.MODULE_NUMBER) ++ leBytes 2 x.num ++ leBytes 1 x.role ++ leBytes 1 x.slot

/-- An `AUTH` on a pending session (17 R402). -/
def State.auth (s : State) (x : Session) (q : Req) : State :=
  if q.resp || !q.lenOk || !bodyOk 2 q.body then s.plainReply q q.session St.LENGTH []
  else if ed25519 (s.blob Obj.KEY_PUBLIC 0 (x.slot + 1)) (s.authText x) (slice q.body 0 64) then
    let s := s.setSession x.num fun y => { y with isOpen := true, since := s.clk.ord, lastReq := some q.reqId }
    s.keyedReply (s.sessionKey x) q.src x.num 2 q.reqId q.mac St.OK
      (leBytes 1 x.role ++ leBytes 1 0 ++ leInt 2 (s.val Obj.SDP_IDLE_TIMEOUT))
  else
    let s := (s.closeSessions fun y => y.num == x.num).inc Obj.SDP_AUTH_FAIL_COUNT
    let until_ := s.clk.ord + 250000
    let s := { s with sdp := { s.sdp with banned := (s.sdp.banned.filter fun (b : Source × Nat) => b.1 != q.src) ++ [(q.src, until_)] } }
    s.plainReply q q.session St.TRUST []

/-- The header of a request as a job keeps it. -/
def Req.hdrOf (q : Req) : SdpHdr := { src := q.src, session := q.session, reqId := q.reqId, resp := q.resp, lengthOk := q.lenOk, mac := q.mac }

/-- `SET_SAVE` (17 R417): the status and the action. -/
def State.setSave (s : State) (role : Nat) (b : List Byte) : (Nat × Nat) × State :=
  let slot := leNat (slice b 0 1)
  if role < 2 then ((St.ACCESS, 0), s)
  else if !modeIn s.mode [1, 2, 3, 4, 5, 6, 7, 8, 9, 10] then ((St.MODE, 0), s)
  else if 8 ≤ slot then ((St.RANGE, 0), s)
  else if s.sdp.saving.isSome then ((St.BUSY, 0), s)
  else
    let q := s.newAction
    ((St.OK, q.1), q.2.saveBegin slot q.1 (slice b 4 12))

/-- `SET_RESTORE` (17 R418): the status and the action. -/
def State.setRestore (s : State) (role : Nat) (b : List Byte) : (Nat × Nat) × State :=
  let slot := leNat (slice b 0 1)
  if role < 1 then ((St.ACCESS, 0), s)
  else if s.mode ≠ Mode.SAFE then ((St.MODE, 0), s)
  else if 8 ≤ slot then ((St.RANGE, 0), s)
  else if s.sdp.restoring.isSome then ((St.BUSY, 0), s)
  else
    let q := s.newAction
    ((St.OK, q.1), { q.2 with sdp := { q.2.sdp with restoring := some (slot, q.1) } })

/-- The body of a response that carries an action. -/
def actionBody (r : Nat × Nat) : List Byte := if r.1 = St.OK then leBytes 4 r.2 else []

/-- A request of an open session that is served: the response's status and body, `none` while the application has to answer or the hand-out
has to end (17 R400; 08 R194). Assumption log 67, DEDUCED. -/
def State.serve (s : State) (x : Session) (q : Req) : Option (Nat × List Byte) × State :=
  match q.op with
  | 0x03 => (some (St.OK, []), s.closeSessions fun y => y.num == x.num)
  | 0x04 =>
    let addrs := bodyAddrs q.body
    if (s.appAnswers && addrs.any fun a => appIndex a.index && s.indexServed a.index) || addrs.any (fun a => s.readWaits a.index) then
      (none, s.openJob (some q.hdrOf) x.role false (addrs.map fun a => { addr := a, value := [] }))
    else let r := s.serveRead x.num addrs []; (some r.1, r.2)
  | 0x05 =>
    let items := (bodyItems 16 q.body).getD []
    if items.any fun w => appIndex w.addr.index then
      match s.firstRefused x.role false items with
      | some (i, st) => (some (st, writeBody (st, i, 0)), s)
      | none => (none, s.openJob (some q.hdrOf) x.role true items)
    else let r := s.writeItems x.role false items; (some (r.1.1, writeBody r.1), r.2)
  | 0x06 =>
    if s.readWaits (addrOf (slice q.body 0 8)).index then
      (none, s.addJob { hdr := some q.hdrOf, role := x.role, writes := false, items := [], waits := [], held := true, seg := some q.body })
    else (some (s.readSeg q.body), s)
  | 0x07 => let r := s.writeSeg x.num x.role q.body; (some (r.1, []), r.2)
  | 0x08 => let r := s.subscribe x.num q.body; (some r.1, r.2)
  | 0x09 => let r := s.unsubscribe x.num q.body; (some (r.1, []), r.2)
  | 0x0B => (some (s.eventRead q.body), s)
  | 0x0C => let r := s.setSave x.role q.body; (some (r.1.1, actionBody r.1), r.2)
  | 0x0D => let r := s.setRestore x.role q.body; (some (r.1.1, actionBody r.1), r.2)
  | 0x0E => (some (St.OK, q.body), s)
  | _ => (some (St.NO_OBJECT, []), s)

/-- A request whose `MAC` does not match: discarded, and the sixteenth closes the session (17 R403). -/
def State.macFailed (s : State) (x : Session) : State :=
  let s := (s.inc Obj.SDP_MAC_FAIL_COUNT).setSession x.num fun y => { y with macFails := y.macFails + 1 }
  if 16 ≤ x.macFails + 1 then s.closeSessions fun y => y.num == x.num else s

/-- A request taken up by an open session: in order, checked for its length, and served (17 R400, R404, R412). Assumption log 57, DEDUCED. -/
def State.take (s : State) (x : Session) (k : List Byte) (q : Req) : State :=
  let s := s.setSession x.num fun y => { y with lastReq := some q.reqId, since := s.clk.ord }
  let reply (s : State) (st : Nat) (b : List Byte) : State := s.keyedReply k q.src x.num q.op q.reqId q.mac st b
  if q.resp || !q.lenOk || !bodyOk q.op q.body then reply s St.LENGTH []
  else if 32 ≤ s.sdp.jobs.length then reply (s.inc Obj.SDP_BUSY_COUNT) St.BUSY []
  else
    let r := s.serve x q
    match r.1 with
    | none => r.2
    | some a => reply r.2 a.1 a.2

/-- Whether a request number rises (17 R404). -/
def reqRises (last : Option (BitVec 32)) (n : BitVec 32) : Bool :=
  match last with
  | none => true
  | some l => decide (0 < (n - l).toInt)

/-- A request on a session (17 R398, R402-R405). Assumption log 57, DEDUCED. -/
def State.sessionRequest (s : State) (q : Req) : State :=
  match s.session q.session with
  | none => s.plainReply q q.session St.ACCESS []
  | some x =>
    if x.src ≠ q.src then s.plainReply q q.session St.ACCESS []
    else if !x.isOpen then (if q.op = 2 then s.auth x q else s.plainReply q q.session St.ACCESS [])
    else
      let k := s.sessionKey x
      let again := x.kept.find? fun e => e.1 == q.reqId && e.2.1 == q.mac
      let authAgain := q.op == 2 && (match again with | some e => e.2.2.opcode == 2 | none => false)
      if q.op = 2 ∧ authAgain = false then s.plainReply q q.session St.ACCESS []
      else if authAgain = false ∧ q.mac ≠ BitVec.ofNat 64 (leNat (macBytes k q.hdr q.body)) then s.macFailed x
      else
        match again with
        | some e => (s.setSession x.num fun y => { y with since := s.clk.ord }).sendReply q.src e.2.2
        | none => if reqRises x.lastReq q.reqId then s.take x k q else s.inc Obj.SDP_REPLAY_DROP_COUNT

/-- A request arrives (17 R400). -/
def State.sdpRequest (s : State) (q : Req) : State :=
  if !s.serves then s else if q.op = 1 then s.hello q else s.sessionRequest q

/-- A message of bytes (17 R396, R399): `none` when it is not well-formed. -/
def parseSdp (src : Source) (b : List Byte) : Option Req :=
  let len := leNat (slice b 8 2)
  let padded := (len + 3) / 4 * 4
  if b.length < 24 ∨ 1440 < len ∨ b.length ≠ 16 + padded + 8 ∨ leNat (slice b 15 1) ≠ 1 then none
  else some
    { src, hdr := slice b 0 16, session := leNat (slice b 10 2), reqId := BitVec.ofNat 32 (leNat (slice b 4 4))
      resp := bitOf (leNat (slice b 13 1)) 7, lenOk := true, op := leNat (slice b 14 1), body := slice b 16 len
      mac := BitVec.ofNat 64 (leNat (slice b (16 + padded) 8)) }

/-! ### Commands -/

/-- `HELLO` (17 R401). -/
def execHello (h : SdpHdr) (role slot : Nat) (clientNonce : List Byte) (s : State) : Out :=
  .next (s.sdpRequest (rowReq h 1 (leBytes 1 role ++ leBytes 1 slot ++ leBytes 2 0 ++ slice clientNonce 0 16)))

/-- `AUTH` (17 R402). -/
def execAuth (h : SdpHdr) (signature : List Byte) (s : State) : Out := .next (s.sdpRequest (rowReq h 2 signature))

/-- `CLOSE` (17 R405). -/
def execClose (h : SdpHdr) (s : State) : Out := .next (s.sdpRequest (rowReq h 3 []))

/-- `READ` (17 R406). -/
def execRead (h : SdpHdr) (addrs : List ObjAddr) (s : State) : Out := .next (s.sdpRequest (rowReq h 4 (addrs.flatMap addrBytes)))

/-- `WRITE` (17 R407). -/
def execWrite (h : SdpHdr) (items : List WItem) (s : State) : Out := .next (s.sdpRequest (rowReq h 5 (items.flatMap itemBytes)))

/-- `READ_SEG` (17 R410). -/
def execReadSeg (h : SdpHdr) (addr : ObjAddr) (offset length : Nat) (s : State) : Out :=
  .next (s.sdpRequest (rowReq h 6 (addrBytes addr ++ leBytes 4 offset ++ leBytes 2 length ++ leBytes 2 0)))

/-- `WRITE_SEG` (17 R411). -/
def execWriteSeg (h : SdpHdr) (addr : ObjAddr) (offset : Nat) (data : List Byte) (last : Bool) (s : State) : Out :=
  .next (s.sdpRequest (rowReq h 7 (addrBytes addr ++ leBytes 4 offset ++ leBytes 2 data.length ++ leBytes 2 (if last then 1 else 0) ++ pad4 data)))

/-- `SUBSCRIBE` (17 R413). -/
def execSubscribe (h : SdpHdr) (sub : EvSub) (s : State) : Out :=
  .next (s.sdpRequest (rowReq h 8 (leBytes 2 sub.code.toNat ++ leBytes 2 sub.mask.toNat ++ leBytes 1 sub.kind ++ leBytes 1 0 ++ leBytes 2 sub.num)))

/-- `UNSUBSCRIBE` (17 R413). -/
def execUnsubscribe (h : SdpHdr) (sub : Nat) (s : State) : Out := .next (s.sdpRequest (rowReq h 9 (leBytes 1 sub ++ leBytes 3 0)))

/-- `EVENT_READ` (17 R414). -/
def execEventRead (h : SdpHdr) (first count : Nat) (s : State) : Out :=
  .next (s.sdpRequest (rowReq h 0x0B (leBytes 4 first ++ leBytes 1 count ++ leBytes 3 0)))

/-- `SET_SAVE` (17 R417). -/
def execSetSave (h : SdpHdr) (slot : Nat) (name : List Byte) (s : State) : Out :=
  .next (s.sdpRequest (rowReq h 0x0C (leBytes 1 slot ++ leBytes 3 0 ++ slice name 0 12)))

/-- `SET_RESTORE` (17 R418). -/
def execSetRestore (h : SdpHdr) (slot : Nat) (s : State) : Out :=
  .next (s.sdpRequest (rowReq h 0x0D (leBytes 1 slot ++ leBytes 3 0)))

/-- `PING` (17 R400). -/
def execPing (h : SdpHdr) (data : List Byte) (s : State) : Out := .next (s.sdpRequest (rowReq h 0x0E data))

/-- The opcodes that a client may send (17 R400). -/
def sdpOps : List Nat := [1, 2, 3, 4, 5, 6, 7, 8, 9, 0x0B, 0x0C, 0x0D, 0x0E]

/-- `SDP_UNKNOWN_OPCODE` (17 R400). -/
def execSdpUnknownOpcode (h : SdpHdr) (opcode : BitVec 8) (body : List Byte) (s : State) : Out :=
  .next (if sdpOps.contains opcode.toNat then s else s.sdpRequest (rowReq h opcode.toNat body))

/-- A datagram or frame that is no well-formed message (17 R396). -/
def State.sdpMalformed (s : State) : State := if s.serves then s.inc Obj.SDP_FORMAT_DROP_COUNT else s

/-- `SDP_MALFORMED_DATAGRAM` (17 R396). -/
def execSdpMalformedDatagram (s : State) : Out := .next s.sdpMalformed

/-- `SESSION_AUTH_TIMEOUT` (17 R401). -/
def execSessionAuthTimeout (session : Nat) (s : State) : Out :=
  .next (s.closeSessions fun x => x.num == session && !x.isOpen && decide (x.since + 250000 ≤ s.clk.ord))

/-- `SESSION_IDLE_TIMEOUT` (17 R405). -/
def execSessionIdleTimeout (session : Nat) (s : State) : Out :=
  .next (s.closeSessions fun x => x.num == session && x.isOpen &&
    decide (x.since + 250000 * s.nat Obj.SDP_IDLE_TIMEOUT ≤ s.clk.ord))

/-- `WRITE_SEG_TIMEOUT` (17 R411): the session's next segment is refused with `TIMEOUT`. -/
def execWriteSegTimeout (addr : ObjAddr) (s : State) : Out :=
  .next { s with sdp := { s.sdp with partials := s.sdp.partials.map fun p =>
    if p.addr = addr ∧ p.since + 250000 ≤ s.clk.ord ∧ p.timedOut = false then { p with timedOut := true, data := [], done := 0 } else p } }

/-- `GENERIC_OBJECT_WRITE` (17 R407): the write of any object, the application's included (19 R464). -/
def execGenericObjectWrite (r : Role) (addr : ObjAddr) (value : List Byte) (s : State) : Out :=
  .next (
    if !s.serves then s
    else if !appIndex addr.index then s.rowWrite r.code addr value
    else
      let w : WItem := { addr, value }
      let st := s.appItemStatus r.code w
      if st ≠ St.OK then s.answer { status := st, item := 0 } else s.openJob none r.code true [w])

/-- `NET_LINK_STATE_CHANGE` (17 R422). -/
def execNetLinkStateChange (state : Fin 3) (s : State) : Out := .next (s.setVal Obj.NET_LINK_STATE state.val)

/-- `ARP_REQUEST` (00 R9): one for the module's address is answered with its MAC address, sent to the asker. -/
def execArpRequest (senderIp targetIp : BitVec 32) (senderMac : BitVec 48) (s : State) : Out :=
  .next (
    if !s.serves || targetIp.toNat != s.nat Obj.NET_IP_ADDR then s
    else s.answer { status := St.OK, data :=
      s.netMac ++ (leBytes 4 targetIp.toNat).reverse ++ (leBytes 6 senderMac.toNat).reverse ++ (leBytes 4 senderIp.toNat).reverse })

end Sys2Proof.Machine
end

