-- ==== Sys2Proof/Machine/App.lean ====
section
/-! DEFINITION. The supervisor application: its supervision, and the services it calls (19 R460-R465). -/

namespace Sys2Proof.Machine

/-! ### Supervision (19 R460-R462) -/

/-- The requests forwarded to the application that it will not answer any more get status `NO_OBJECT` (19 R464). -/
def State.appGone (s : State) : State := s.answerForwards (fun _ => true) St.NO_OBJECT []

/-- The application is stopped for a fault and restarted from its slot, within the hour's limit (19 R461, R462). -/
def State.appStop (s : State) (code : Nat) : State :=
  if !s.appRuns then s else
    let slot := s.nat Obj.APP_SLOT_RUNNING
    let s := ((s.logFault (0x1F00 + code) 0 0).setVal Obj.APP_STATE 4).appGone
    let hour := s.tick / 900000000
    let n := if s.app.hour = hour then s.app.restarts else 0
    if n < s.nat Obj.APP_RESTART_LIMIT then
      let s := s.setApp fun a => { a with restarts := n + 1, hour, failed := [] }
      (((s.inc Obj.APP_RESTART_COUNT).raise 0xF003 0 0 (leBytes 1 code))).appBegin slot
    else (s.setApp fun a => { a with failed := [] }).appFailed slot

/-- `APP_ACCESS_FAULT` (19 R461). -/
def execAppAccessFault (s : State) : Out := .next (s.appStop 1)

/-- `APP_BAD_SERVICE` (19 R463): any number that is no service's stops the application. -/
def execAppBadService (number : Nat) (s : State) : Out := .next (if 1 ≤ number ∧ number ≤ 10 then s else s.appStop 1)

/-- `APP_POISON_STOP` (19 R461; 18 R432). -/
def execAppPoisonStop (s : State) : Out := .next (s.appStop 2)

/-- `APP_WATCHDOG_EXPIRE` (19 R461): no `KICK` for `APP_WATCHDOG` ticks. -/
def execAppWatchdogExpire (s : State) : Out :=
  .next (if s.appRuns && decide (s.app.kickOrd + s.nat Obj.APP_WATCHDOG ≤ s.clk.ord) then s.appStop 3 else s)

/-- `APP_TRIAL_TIMEOUT` (19 R460). -/
def execAppTrialTimeout (s : State) : Out :=
  .next (if s.val Obj.APP_STATE == 2 && decide (s.app.startOrd + s.nat Obj.IMAGE_TRIAL_LIMIT ≤ s.clk.ord) then
    let slot := s.nat Obj.APP_SLOT_RUNNING
    (((s.setImgState slot imgINVALID).appGone).setApp fun a => { a with failed := [] }).appFailed slot
  else s)

/-- `APP_KICK` (19 R463). -/
def execAppKick (s : State) : Out :=
  .next (if s.appRuns then (s.setApp fun a => { a with kickOrd := s.clk.ord }).status St.OK else s)

/-- `APP_CONFIRM` (19 R463): the application passes its trial. -/
def execAppConfirm (s : State) : Out :=
  .next (
    if !s.appRuns then s
    else if s.val Obj.APP_STATE ≠ 2 then s.status St.MODE
    else
      let slot := s.nat Obj.APP_SLOT_RUNNING
      let s := (s.setVal Obj.APP_STATE 3).raise 0xF001 0 0 (leBytes 1 slot)
      ({ s with boot := { s.boot with aTrial := false } } : State).status St.OK)

/-- `APP_ENG_SEND` (19 R463). -/
def execAppEngSend (k : Se) (m : Msg) (s : State) : Out :=
  .next (
    if !s.appRuns then s
    else if (s.eng k).inRoom then (s.engArrive k ((List.range 8).map fun i => nth 0 m.words i)).status St.OK
    else s.status St.BUSY)

/-- `APP_ENG_RECV` (19 R463): the oldest message of the outbound queue. -/
def execAppEngRecv (k : Se) (s : State) : Out :=
  .next (
    if !s.appRuns then s else
      match (s.eng k).outq with
      | [] => s.status St.NOT_READY
      | m :: r => (s.setEng k fun x => { x with outq := r }).answer { status := St.OK, data := m.flatMap fun w => leBytes 4 w.toNat })

/-- `APP_CVU` (19 R463; 18 R439, R440). -/
def execAppCvu (u : Fin 4) (desc : BitVec 256) (s : State) : Out :=
  .next (
    if !s.appRuns then s else
      match s.cvuRefusal u desc with
      | some st => s.status st
      | none => (s.cvuQueue u desc 0).status St.OK)

/-- The application data area (19 R449). -/
def appDataBase : Nat := spaceBase 1 + 0x1F12000

/-- `APP_DATA_RW` (19 R463): up to 48 bytes of the data area. -/
def execAppDataRw (offset length : Nat) (write : Bool) (data : List Byte) (s : State) : Out :=
  .next (
    if !s.appRuns then s
    else if 48 < length ∨ 952 * 1024 < offset + length then s.status St.RANGE
    else if write then (s.putBytes (appDataBase + offset) (slice data 0 length)).status St.OK
    else s.answer { status := St.OK, data := s.bytes (appDataBase + offset) length })

/-- `APP_LOG_FAULT` (19 R463). -/
def execAppLogFault (code : Nat) (arg : List Byte) (s : State) : Out :=
  .next (
    if !s.appRuns then s
    else if 0x80 ≤ code ∧ code ≤ 0xFF then (s.logFault (0x1F00 + code) 0 0 arg).status St.OK
    else s.status St.RANGE)

/-- The switch of the application at a boundary (19 R465). -/
def State.appSwitch (s : State) : State :=
  match s.app.switchTo with
  | none => s
  | some slot =>
    if s.nat Obj.KERNEL_SLOT_RUNNING = 0xFF then s.setApp fun a => { a with switchTo := none }
    else (s.appGone.setApp fun a => { a with switchTo := none, failed := [] }).appBegin slot

/-! ### Objects (19 R463, R464) -/

/-- `APP_OBJ_READ` (19 R463): a read with role `ENGINEER`. -/
def execAppObjRead (addr : ObjAddr) (s : State) : Out :=
  .next (
    if !s.appRuns then s
    else if (appIndex addr.index && s.indexServed addr.index) || s.readWaits addr.index then s.openJob none Role.engineer.code false [{ addr, value := [] }]
    else let r := s.readItem addr; s.answer { status := r.status, data := r.value })

/-- `APP_OBJ_WRITE` (19 R463): a write with role `ENGINEER`, not of the range 0x9800. -/
def execAppObjWrite (addr : ObjAddr) (value : List Byte) (s : State) : Out :=
  .next (
    if !s.appRuns then s
    else if appIndex addr.index then
      let st := s.appItemStatus Role.engineer.code { addr, value }
      if st ≠ St.OK then s.answer { status := st, item := 0 } else s.openJob none Role.engineer.code true [{ addr, value }]
    else
      let r := s.writeItems Role.engineer.code true [{ addr, value }]
      r.2.answer { status := r.1.1, item := r.1.2.1, action := r.1.2.2 })

/-- `APP_OBJ_REPLY` (19 R463, R464): the service itself is refused for a request that does not wait. -/
def execAppObjReply (request status : Nat) (value : List Byte) (s : State) : Out :=
  .next (
    if !s.appRuns then s
    else if s.sdp.jobs.any fun j => j.waits.any fun w => w.1 == request then
      (s.status St.OK).answerForwards (fun w => w.1 == request) (status % 256) value
    else s.status St.RANGE)

/-- `APP_REPLY_TIMEOUT` (19 R464): 125 ticks without an answer. -/
def execAppReplyTimeout (request : Nat) (s : State) : Out :=
  .next (s.answerForwards (fun w => w.1 == request && decide (w.2.2 + 125 ≤ s.clk.ord)) St.INTERNAL [])

end Sys2Proof.Machine
end

