-- ==== Sys2Proof/Machine/DominoRx.lean ====
section
/-! DEFINITION. Domino messages received, array triggers, round-trip measurement and the wired input (10 R232-R239). -/

namespace Sys2Proof.Machine

/-- An array trigger at a time, with the modules it counts (10 R225, R235; 13 R293): its matches wait to be confirmed, in
ascending stamp and identifier; without a match it may open a candidate, which drives `TRGO` as any module trigger does (10 R238).
Assumption log 50, DEDUCED. -/
def State.arrayTrigger (s : State) (stamp now modules : Nat) (uncal : Bool) : State :=
  let w := s.nat Obj.ARR_MATCH
  let near (e : Candidate) : Bool := decide (e.stamp ≤ stamp + w ∧ stamp ≤ e.stamp + w)
  let pend := (s.spec.cands.filter fun q => q.2.state == candPENDING && near q.2).mergeSort fun a b =>
    decide (a.2.stamp < b.2.stamp ∨ a.2.stamp = b.2.stamp ∧ a.1 ≤ b.1)
  let done := s.spec.cands.any fun q => q.2.state == candCOMMITTED && near q.2
  if !pend.isEmpty then
    s.setTrig fun t => { t with decisions := t.decisions ++ [{ confirm := true, cands := pend.map fun q => q.1, stamp := none, ord := s.clk.ord }] }
  else if done || !s.on Obj.ARR_FORCE_CAPTURE || !bitOf (s.liveVal Obj.COIN_MOD_SOURCES).toNat 25 then s
  else
    let r := s.candOpen now { member := 25, stamp, level := 7, element := 0, members := Nat.max 1 (Nat.min 8 modules), origin := 0
                              cond := Flag.when (s.infoAt 0).unlocked Flag.timeUnlocked, uncal } true
    if r.1 then r.2.trgoPulse (now / 128) stamp else r.2

/-- A decision for a candidate of this module (10 R235): one for a candidate that is not open is discarded and counted. -/
def State.domDecision (s : State) (confirm : Bool) (m : DomMsg) : State :=
  let e := s.cand m.cand
  if e.state == candPENDING && e.stamp % 2 ^ 40 == m.stamp then
    s.setTrig fun t => { t with decisions := t.decisions ++ [{ confirm, cands := [m.cand], stamp := some m.stamp, ord := s.clk.ord }] }
  else s.inc Obj.DOMINO_LATE_COUNT

/-- `SEQ` of a message received on a lane: a break is counted (10 R232). -/
def State.domSeqCheck (s : State) (l w : Nat) : State :=
  let q := domSeq w
  let s := match smGet none s.trig.rxSeq l with
    | some x => if x = q then s else s.inc Obj.DOMINO_SEQ_GAP_COUNT
    | none => s
  s.setTrig fun t => { t with rxSeq := smPut none t.rxSeq l (some ((q + 1) % 256)) }

/-- The check of a stamp against the estimated departure (10 R237). -/
def State.domTimeCheck (s : State) (l arrival : Nat) (m : DomMsg) : State :=
  let d := s.nat Obj.DOMINO_LINK_DELAY l
  if d = noDelay || !s.domProbes l then s
  else if recover40 arrival m.stamp > (arrival : Int) - d + s.nat Obj.DOMINO_DELAY_TOL then
    (s.inc Obj.DOMINO_TIME_ERR_COUNT).raise 0x7002 8 l (leBytes 1 l)
  else s

/-- What a module does with a good message of types 1-4 and 7, by its role (10 R230, R234, R235). -/
def State.domAct (s : State) (arrival : Nat) (m : DomMsg) : State :=
  let role := s.val Obj.DOMINO_ROLE
  let mine := m.module == s.nat Obj.MODULE_NUMBER
  let record := Mode.record s.mode
  match m.type with
  | 1 =>
    if role == roleROOT && record then
      s.arrReport arrival { module := m.module, cand := m.cand, level := m.level, stamp := (recover40 arrival m.stamp).toNat
                            unlocked := bitOf m.qual 15 }
    else s
  | 2 => if role == roleLEAF && mine && record then s.domDecision true m else s
  | 3 => if role == roleLEAF && mine && record then s.domDecision false m else s
  | 4 => if role != roleROOT && record then s.arrayTrigger (recover40 arrival m.stamp).toNat arrival m.arg false else s
  | _ => s

/-- Whether a leaf passes a message on, and upwards (10 R230, R233, R235). -/
def State.domPasses (s : State) (l : Nat) (m : DomMsg) : Option Bool :=
  if s.val Obj.DOMINO_ROLE != roleLEAF then none
  else if s.domDownLane == some l && (m.type == 1 || m.type == 7) then some true
  else if s.nat Obj.DOMINO_UP_LANE == l &&
      (m.type == 4 || ((m.type == 2 || m.type == 3) && m.module != s.nat Obj.MODULE_NUMBER)) then some false
  else none

/-- Whether a message stands on the lane its direction calls for (10 R230). -/
def State.domLaneOk (s : State) (l : Nat) (m : DomMsg) : Bool :=
  if m.type == 1 || m.type == 7 then s.domDownLane == some l else s.nat Obj.DOMINO_UP_LANE == l

/-- A message of types 1-4 and 7 arrives on a lane at a time: relayed unchecked, then checked and acted upon (10 R232-R237). -/
def State.domArrive (s : State) (l arrival w : Nat) : State :=
  let m := domUnpack w
  let s := match s.domPasses l m with | some up => s.domRelay up arrival w | none => s
  if !domCrcOk w || m.type == 0 || decide (8 ≤ m.type) then s.inc Obj.DOMINO_DISCARD_COUNT
  else
    let s := s.domSeqCheck l w
    if !s.domLaneOk l m then s else (s.domTimeCheck l arrival m).domAct arrival m

/-- A message as a row of the table delivers it: of the row's type, or one that is discarded. -/
def State.domRow (s : State) (type l arrival w : Nat) : State :=
  let t := (domUnpack w).type
  if !Mode.lanes s.mode || s.laneState l != Lane.ACTIVE || s.laneFlushing l then s
  else if t = type ∨ !domCrcOk w ∨ t = 0 ∨ 8 ≤ t then s.domArrive l arrival w else s

/-- `DOMINO_REPORT` (10 R234). -/
def execDominoReport (l : Ln) (m : BitVec 128) (arrival : Nat) (s : State) : Out := .next (s.domRow 1 l arrival m.toNat)

/-- `DOMINO_CONFIRM` (10 R235). -/
def execDominoConfirm (l : Ln) (m : BitVec 128) (arrival : Nat) (s : State) : Out := .next (s.domRow 2 l arrival m.toNat)

/-- `DOMINO_VETO` (10 R235). -/
def execDominoVeto (l : Ln) (m : BitVec 128) (arrival : Nat) (s : State) : Out := .next (s.domRow 3 l arrival m.toNat)

/-- `DOMINO_ARRAY_TRIG` (10 R235). -/
def execDominoArrayTrig (l : Ln) (m : BitVec 128) (arrival : Nat) (s : State) : Out := .next (s.domRow 4 l arrival m.toNat)

/-- `DOMINO_RATE` (10 R232). -/
def execDominoRate (l : Ln) (m : BitVec 128) (arrival : Nat) (s : State) : Out := .next (s.domRow 7 l arrival m.toNat)

/-- Whether a lane advertised `DOMINO_SYM` in the exchange message it sent last (10 R236; 15 R343). -/
def State.domAdvertised (s : State) (l : Nat) : Bool :=
  match (s.ln l).exchTx with
  | some m => m.toNat.testBit 81
  | none => false

/-- A `PROBE` is checked against its departure (10 R237), and answered with an `ECHO` on a lane that advertised `DOMINO_SYM` (10 R236). -/
def State.domProbe (s : State) (l w departure arrival : Nat) : State :=
  let m := domUnpack w
  if !Mode.lanes s.mode || s.laneState l != Lane.ACTIVE || s.laneFlushing l then s
  else if !domCrcOk w then s.inc Obj.DOMINO_DISCARD_COUNT
  else if m.type != 5 then s
  else
    let s := (s.domSeqCheck l w).domTimeCheck l arrival m
    if !s.domAdvertised l then s else
      let hold := departure - arrival
      s.domSend l departure { type := 6, module := s.nat Obj.MODULE_NUMBER, stamp := m.stamp, qual := hold / 2 ^ 16, arg := hold }

/-- `DOMINO_PROBE` (10 R236). -/
def execDominoProbe (l : Ln) (m : BitVec 128) (arrival departure : Nat) (s : State) : Out :=
  .next (s.domProbe l m.toNat departure arrival)

/-- An `ECHO` is checked against its departure (10 R237), and gives the one-way delay of its lane (10 R236). -/
def State.domEcho (s : State) (l w arrival : Nat) : State :=
  let m := domUnpack w
  if !Mode.lanes s.mode || s.laneState l != Lane.ACTIVE || s.laneFlushing l then s
  else if !domCrcOk w then s.inc Obj.DOMINO_DISCARD_COUNT
  else if m.type != 6 then s
  else
    let s := (s.domSeqCheck l w).domTimeCheck l arrival m
    if !s.domProbes l then s else
      let t1 := recover40 arrival m.stamp
      let d := (((arrival : Int) - t1 - (m.qual * 2 ^ 16 + m.arg : Nat)) / 2).toNat
      let old := s.nat Obj.DOMINO_LINK_DELAY l
      let s := s.setVal Obj.DOMINO_LINK_DELAY d l
      if old ≠ noDelay ∧ s.nat Obj.DOMINO_DELAY_TOL < ((d : Int) - old).natAbs then
        s.raise 0x7001 8 l (leBytes 4 old ++ leBytes 4 d)
      else s

/-- `DOMINO_ECHO` (10 R236). -/
def execDominoEcho (l : Ln) (m : BitVec 128) (arrival : Nat) (s : State) : Out := .next (s.domEcho l m.toNat arrival)

/-- `DOMINO_PROBE_SEND` (10 R236): at the entry into `ACTIVE`, and once per second in the tick 1,024 + module number. -/
def execDominoProbeSend (l : Ln) (departure : Nat) (s : State) : Out :=
  .next (
    let last := smGet 0 s.trig.probed l
    let entered := decide (last < (s.ln l).actOrd + 1)
    let due := s.tick % 250000 == (1024 + s.nat Obj.MODULE_NUMBER) && decide (last < s.clk.ord + 1)
    if !Mode.lanes s.mode || s.laneState l != Lane.ACTIVE || !s.domProbes l || !(entered || due) then s else
      let s := s.setTrig fun t => { t with probed := smPut 0 t.probed l (s.clk.ord + 1) }
      s.domSend l departure { type := 5, module := s.nat Obj.MODULE_NUMBER, stamp := departure })

/-- Whether an active edge of `TRGI` follows the previous one by less than 256 TU (22 R526). -/
def State.trgiClose (s : State) (stamp : Nat) : Bool :=
  match s.trig.trgiLast with
  | some l => decide (l ≤ stamp ∧ stamp < l + 256)
  | none => false

/-- `TRGI_EDGE` (10 R239; 22 R526): an active edge of the wired input; one too close to the edge before it is neither stamped nor
counted. Every active edge is the previous one of the next, a disregarded one too: assumption log 71, DEDUCED. -/
def execTrgiEdge (stamp : Nat) (uncal : Bool) (s : State) : Out :=
  .next (
    let near := s.trgiClose stamp
    let s := s.setTrig fun t => { t with trgiLast := some stamp }
    if near || !s.on Obj.TRGI_ENABLE || !Mode.lanes s.mode then s else
      let s := s.inc Obj.TRGI_COUNT
      if Mode.record s.mode then s.arrayTrigger (stamp - s.nat Obj.TRGI_DELAY) stamp 1 uncal else s)

end Sys2Proof.Machine
end

