-- ==== Sys2Proof/Machine/LinkRx.lean ====
section
/-! DEFINITION. Frames received: acceptance on a lane, the order of a group, and delivery (15 R337; 16 R362-R368, R379, R385-R388). -/

namespace Sys2Proof.Machine

/-- A discard on a lane after an accepted frame is answered with a `NAK` (16 R365). -/
def State.rxNak (s : State) (l : Nat) : State :=
  if (s.ln l).nakDone then s else s.setLn l fun x => { x with nakDue := true, nakDone := true, linkDue := true }

/-- Whether an `ALIVE` lies among the 128 values before the expected one (16 R365). -/
def rxDuplicate (expected alive : Nat) : Bool := let d := (expected + 256 - alive) % 256; decide (1 ≤ d ∧ d ≤ 128)

/-- A frame's `ALIVE` is checked on its lane: whether the frame is accepted (16 R364, R365). -/
def State.rxAccept (s : State) (l alive : Nat) : Bool × State :=
  let x := s.ln l
  if alive = x.rxNext then (true, s.setLn l fun x => { x with rxNext := (x.rxNext + 1) % 256, nakDone := false, linkDue := true })
  else if rxDuplicate x.rxNext alive then (false, s)
  else (false, s.rxNak l)

/-- The receive order of a group. -/
def State.rxOrder (s : State) (dn : Bool) : RxOrder := if dn then s.fr.rxDown else s.fr.rxCasc

/-- The state with the receive order of a group changed. -/
def State.setRxOrder (s : State) (dn : Bool) (o : RxOrder) : State :=
  s.setFr fun x => if dn then { x with rxDown := o } else { x with rxCasc := o }

/-- An `SDP` frame for this module: a request, or no well-formed message (17 R397, R398). -/
def State.sdpConsume (s : State) (f : RxFrame) : State :=
  match parseSdp (.vc0 f.module) f.payload with
  | some q => s.sdpRequest q
  | none => s.sdpMalformed

/-- An `SDP` frame of a downlink lane: consumed, forwarded, or discarded (16 R388). -/
def State.sdpDeliver (s : State) (f : RxFrame) : State :=
  if f.module.toNat = s.nat Obj.MODULE_NUMBER then s.sdpConsume f
  else if s.cascadeUp then
    let t : TxFrame := { vc := 0, type := 4, module := f.module.toNat, ftick := f.ftick.toNat, gseq := 0, payload := f.payload }
    s.setFr fun x => { x with fwdCasc := x.fwdCasc ++ [t] }
  else s.inc Obj.RX_DISCARD_COUNT

/-- The Domino messages of a frame, in order (16 R379). Assumption log 51, DESIGN CHOICE. -/
def State.domDeliver (s : State) (l : Nat) (p : List Byte) : State :=
  if s.laneState l != Lane.ACTIVE || !Mode.lanes s.mode then s else
    (chunks 16 (p.length / 16) p).foldl (fun s m => s.domArrive l s.timeNow (leNat m)) s

/-- Whether a frame from the cascade may be relayed: of a type that leaves a module, but a `DOMINO` or `LINK` frame (16 R363, R385). -/
def relayType (vc type : Nat) : Bool :=
  match vc with
  | 0 => decide (1 ≤ type ∧ type ≤ 4)
  | 2 => decide (1 ≤ type ∧ type ≤ 2)
  | 3 | 4 | 5 => type == 1
  | 6 => decide (1 ≤ type ∧ type ≤ 4)
  | 7 => decide (1 ≤ type ∧ type ≤ 3)
  | _ => false

/-- A frame to be relayed joins its cascade block; one of another `FTICK` completes the block before it (16 R386). -/
def State.cascJoin (s : State) (w : RxWait) : State :=
  s.setFr fun x =>
    let t := w.frame.ftick.toNat
    match x.casc.reverse with
    | b :: r => if b.ftick = t ∧ b.complete = false then { x with casc := r.reverse ++ [{ b with frames := b.frames ++ [w] }] }
        else { x with casc := r.reverse ++ [{ b with complete := true }, { ftick := t, frames := [w] }] }
    | [] => { x with casc := [{ ftick := t, frames := [w] }] }

/-- A frame is delivered in the order of its group; credits return for what is consumed (16 R363, R367, R385, R388). -/
def State.rxDeliver (s : State) (dn : Bool) (w : RxWait) : State :=
  let f := w.frame
  let len := f.payload.length
  if f.vc.val = 1 ∧ f.type_.val = 1 then (s.domDeliver w.lane f.payload).returnCredit w.lane w.at_ len
  else if dn then
    (if f.vc.val = 0 ∧ f.type_.val = 4 then s.sdpDeliver f else s.inc Obj.RX_DISCARD_COUNT).returnCredit w.lane w.at_ len
  else if relayType f.vc f.type_ then s.cascJoin w
  else (s.inc Obj.RX_DISCARD_COUNT).returnCredit w.lane w.at_ len

/-- The waiting frames that are next in order are delivered, by `fuel`. -/
def State.rxDrain (dn : Bool) : Nat → State → State
  | 0, s => s
  | n + 1, s =>
    let o := s.rxOrder dn
    match o.next with
    | none => s
    | some g =>
      match takeFirst (fun w => w.frame.gseq.toNat == g) o.waiting with
      | none => s
      | some (w, rest) =>
        State.rxDrain dn n ((s.setRxOrder dn { next := some ((g + 1) % 2 ^ 32), waiting := rest }).rxDeliver dn w)

/-- An accepted frame takes its place in the order of its group; one already delivered is discarded (16 R368). -/
def State.rxPlace (s : State) (w : RxWait) : State :=
  let dn := Lane.down w.lane
  let o := s.rxOrder dn
  let g := w.frame.gseq.toNat
  let next := o.next.getD g
  if before32 g next || o.waiting.any fun x => x.frame.gseq == w.frame.gseq then s.returnCredit w.lane w.at_ w.frame.payload.length
  else State.rxDrain dn (o.waiting.length + 1) (s.setRxOrder dn { next := some next, waiting := o.waiting ++ [w] })

/-- A frame that passes 16 R362 arrives on a lane; while the lane's crossing is flushed nothing does (02 R57). -/
def State.rxFrame (s : State) (l : Nat) (f : RxFrame) : State :=
  if s.laneState l ≠ Lane.ACTIVE ∨ s.laneFlushing l then s else
    let r := s.rxAccept l f.alive.toNat
    if r.1 then r.2.rxPlace { lane := l, at_ := s.clk.ord, frame := f } else r.2

/-- A frame that is discarded as received (15 R337; 16 R362, R363). Assumption log 56, DEDUCED. -/
def State.rxDiscard (s : State) (l : Nat) (why : RxFault) (alive : BitVec 8) (gseq : BitVec 32) (length : Nat) : State :=
  if why = .sequence ∧ s.laneState l = Lane.EXCHANGE ∧ s.laneFlushing l = false then s.inc Obj.LANE_CTRL_ABORT_COUNT l
  else if s.laneState l ≠ Lane.ACTIVE ∨ s.laneFlushing l then s else
    match why with
    | .sequence => s.inc Obj.LANE_CTRL_ABORT_COUNT l
    | .direction => s.rxFrame l { vc := 7, type_ := 31, alive, gseq, module := 0, ftick := 0, payload := List.replicate (Nat.min length 4096) 0 }
    | .control => ((s.inc Obj.LANE_CTRL_ABORT_COUNT l).inc Obj.LANE_CRC_ERR_COUNT l).rxNak l
    | _ =>
      let s := s.inc Obj.LANE_CRC_ERR_COUNT l
      s.rxNak l

/-- `FRAME_DISCARD_RX` (16 R362, R363). -/
def execFrameDiscardRx (l : Ln) (why : RxFault) (alive : BitVec 8) (gseq : BitVec 32) (length : Nat) (s : State) : Out :=
  .next (s.rxDiscard l why alive gseq length)

/-- `SDP_FRAME` (16 R388; 17 R397). -/
def execSdpFrame (l : Ln) (f : RxFrame) (s : State) : Out := .next (s.rxFrame l { f with vc := 0, type_ := 4 })

/-- `DOMINO_FRAME` (16 R379). -/
def execDominoFrame (l : Ln) (f : RxFrame) (s : State) : Out := .next (s.rxFrame l { f with vc := 1, type_ := 1 })

/-- `CASCADE_FRAME` (16 R385): a frame on a lane of the cascade group, not a `LINK` frame. -/
def execCascadeFrame (l : Ln) (f : RxFrame) (s : State) : Out :=
  .next (if Lane.down l || (f.vc.val == 0 && f.type_.val == 0) then s else s.rxFrame l f)

/-- `CASCADE_GAP_SKIP` (16 R368): a number missing for 256 ticks, while later ones wait, is passed over. Assumption log 51, DESIGN CHOICE. -/
def execCascadeGapSkip (s : State) : Out :=
  .next (
    let o := s.fr.rxCasc
    match o.next, o.waiting with
    | some g, w :: r =>
      let since := r.foldl (fun a x => Nat.min a x.at_) w.at_
      if s.clk.ord < since + 256 then s else
        State.rxDrain false (o.waiting.length + 1)
          ((s.inc Obj.CASCADE_GAP_COUNT).setRxOrder false { o with next := some ((g + 1) % 2 ^ 32) })
    | _, _ => s)

end Sys2Proof.Machine
end

