-- ==== Sys2Proof/Machine/Tick.lean ====
section
/-! DEFINITION. The tick: what its boundary and its cut-off do (02 R31-R43; 08 R178-R182). What falls due at a boundary is done by
`TICK_BOUNDARY`; the rows that name one such effect do what is still due. -/

namespace Sys2Proof.Machine

/-- Whether the tick sequencer runs: start-up has begun and the concentrator PLL has locked (02 R31, R49). -/
def State.clocked (s : State) : Bool :=
  s.boot.step != 0 && s.boot.power && !s.boot.low && (s.clk.counting || s.clk.nextTick.isSome)

/-! ### Condition words -/

/-- The bits of the condition word that input `n` carries in the current tick by its state (02 R40, R53; 03 R71, R73, R82, R87,
R89). -/
def State.tickCond (s : State) (n : Nat) : Cond :=
  let c := n / 4
  let cal := s.val Obj.INJ_MODE c != 0 && bitOf (s.nat Obj.INJ_MASK c) (n % 4)
  let unlocked := (s.infoAt 0).unlocked || !s.on Obj.PLL_LOCK (n / 32)
  Flag.when (s.on Obj.CLAMP_STATE c) Flag.clamp ||| Flag.when (decide (s.clk.ord * 4096 < (s.inp n).nbrTo)) Flag.nbr |||
    Flag.when (s.val Obj.EXC_REMAINING n != 0) Flag.exc ||| Flag.when (s.feedFlagged n) Flag.feed ||| Flag.when cal Flag.cal |||
    Flag.when unlocked Flag.timeUnlocked ||| Flag.when (s.staleAt 0 (n / 16) s.clk.ord) Flag.staleTbl

/-- The condition words of the current tick take what holds now, the bits `skip` apart. At a tick's begin `CLAMP` and `NBR` are left to its
end: an episode or a period that ends with the tick's first sample holds none of it (03 R71, R73). -/
def State.condMark (s : State) (skip : Cond := 0) : State :=
  if !Mode.tdcLoops s.mode then s else
    (List.range 256).foldl (fun s n => let c := s.tickCond n &&& ~~~skip; if c = 0 then s else s.mark n c) s

/-! ### The end of a tick -/

/-- The pin edges still due in the tick that ends (03 R74). -/
def State.pinsDue (s : State) : State :=
  (List.range 4).foldl (fun s p => (List.range (s.pin p).wait.length).foldl (fun s _ => s.blankApply p) s) s

/-- The frames sampled in the tick that ends, and their words as the coder takes them (02 R34). -/
def State.framesEnd (s : State) (env : TickEnv) : List (Nat × List (BitVec 12)) × State :=
  ((List.range 256).filter s.converterRuns).foldl (fun (a : List (Nat × List (BitVec 12)) × State) n =>
    let r := a.2.takeFrame n (envFrame env.frames n)
    ((n, r.1) :: a.1, r.2)) ([], s)

/-- The inputs that a feed fault marked in the ticks before the one that ends (03 R82). -/
def State.feedMarked (s : State) : List Nat :=
  (List.range 256).filter fun n => Flag.any (s.condAt n 1 ||| s.condAt n 2 ||| s.condAt n 3) Flag.feed

/-- The marks of a feed fault reach the items, beams, delay lines and open spectra periods of those ticks (03 R83); the slot map has taken
them at the detection. The spectra step of sampling tick d - 1 is made in tick d, and R83 does not say on which side of
the detection: it counts as taken before it (assumption log 78, DESIGN CHOICE). -/
def State.feedBack (s : State) : State :=
  let hit := s.feedMarked
  if hit.isEmpty then s else
    let fed (i n : Nat) : Bool := hit.contains n && Flag.any (s.chanCond n i) Flag.feed
    let old := hit.filter (fed 3)
    let item (x : Item) : Item := if x.age = 0 && old.contains (x.ctx / 8) then { x with cond := x.cond ||| Flag.feed } else x
    let beam (b : BeamOut) : BeamOut :=
      let ks := (b.inputs.filter fun q => old.any q.2.testBit).map fun q => q.1
      { b with cond := ks.foldl (fun m k => smUpd 0 m k fun c => c ||| Flag.feed) b.cond }
    let line (d : DelayTick) : DelayTick :=
      let c := (List.range (Nat.max d.cond.length (if old.isEmpty then 0 else 256))).map fun n =>
        nth 0 d.cond n ||| Flag.when (old.contains n) Flag.feed
      { d with cond := c }
    let delay := match s.delay with | [] => [] | d :: r => line d :: r
    let slices := smEach {} (fun _ (x : SlSt) => { x with items := x.items.map item }) s.slices
    let s : State := { s with slices, delay, beams := s.beams.map beam }
    let mask : Cond := BitVec.ofInt 16 (s.val Obj.SPEC_EXCLUDE_MASK)
    let entered (n i : Nat) : Bool :=
      let g := s.rg (n / 16)
      g.specOn && decide (i ≤ g.specLen) && fed i n && !Flag.any (s.chanCond n i &&& ~~~Flag.feed) mask
    hit.foldl (fun s n => if entered n 1 || entered n 2 || entered n 3 then
      s.setInp n fun x => { x with specCond := x.specCond ||| Flag.feed } else s) s

/-- A die's data of a tick is lost in its transfer: zeros with `LATE` in the pipeline and the history, no hits of the tick, and no
housekeeping results of it (01 R19; 11 R247; assumption log 77, DEDUCED). -/
def State.d2dLost (s : State) (d : Nat) : State :=
  let s : State := { s with tdc := { s.tdc with hits := s.tdc.hits.filter fun h => decide (256 ≤ h.src) || h.src / 32 != d } }
  let s := s.hkTakeBack d
  if !s.regionRuns (2 * d) then s else
    let s := s.pipeDrop (fun n => n / 32 == d) fun o => o + 2 == s.clk.ord
    let s := (List.range 32).foldl (fun s i => (s.mark (32 * d + i) Flag.late 2).slotMark (32 * d + i) 2 Flag.late) s
    s.historyDrop d (s.infoAt 2).tick

/-- The die-to-die transfers of the tick that ends, of every die that is neither set aside nor held in reset (01 R19). -/
def State.d2dEnd (s : State) (env : TickEnv) : State :=
  (List.range 8).foldl (fun s d =>
    if s.dieOff d || s.cont.resetting.any (fun e => e.1 == d) then s else
      let q := s.d2dStep d ((env.d2d.find? fun e => e.1 == d).map fun e => e.2)
      if q.1 then q.2.d2dLost d else q.2) s

/-- The crossings of a tick that kept a value are counted, each for the die of its destination (02 R55). -/
def State.unstableCount (s : State) (l : List Unstable) : State := l.foldl (fun s u => s.inc Obj.CDC_UNSTABLE_COUNT u.die) s

/-- The history write of the tick, and the slot whose entry is completed a tick late (02 R35; 11 R247). Assumption log 69, DEDUCED. -/
def State.historyEnd (s : State) (env : TickEnv) : State :=
  let before := match s.hist.codedTick with
    | some t => s.hist.slots.find? fun x => x.j == t / 64 && decide (x.first ≤ t)
    | none => none
  (s.historyWrite env.lostBlocks).setHist fun h => { h with lateSlot := if env.late.contains (6, 0) then before else none }

/-- A late channelizer frame: its samples are zeros, in the filter history as well, and carry `LATE` (02 R35; 05 R121; assumption
log 35, DEDUCED). -/
def State.frameLate (s : State) (g : Nat) : State :=
  let s := (List.range 16).foldl (fun s i =>
    (s.mark (16 * g + i) Flag.late).setInp (16 * g + i) fun x => { x with frames := match x.frames with | [] => [] | _ :: r => [] :: r }) s
  s.rgMark g Flag.late 0

/-- A spectra period begins at a multiple of its length (05 R124). -/
def State.specBegin (s : State) (g : Nat) : State :=
  if (s.rg g).specOn || s.tick % s.nat Obj.SPEC_INT_TICKS != 0 then s
  else s.setRg g fun x => { x with specOn := true, specFirst := s.tick, specLen := 0, specLate := false }

/-- Channel data of one input for the tick that ends: transform, spectra step and requantisation (02 R34; 05 R117, R123, R124,
R128). -/
def State.channelEnd (s : State) (env : TickEnv) (n : Nat) : List (Int × Int) × State :=
  let g := n / 16
  let ord := s.clk.ord
  let q := if env.late.contains (1, g) then (List.replicate 2048 ((0 : Int), (0 : Int)), s) else s.channelise n ord
  let cond := q.2.chanCond n 0
  let mask : Cond := BitVec.ofInt 16 (s.val Obj.SPEC_EXCLUDE_MASK)
  let enters := (s.rg g).specOn && !env.late.contains (5, g) && !Flag.any cond mask
  let t := if enters then q.2.specAdd n q.1 cond else q.2
  t.requantise n ord q.1

/-- The regions' work on the frames of the tick that ends; what they made goes into the pipeline (02 R34). -/
def State.regionsEnd (s : State) (env : TickEnv) : State :=
  let gs := (List.range 16).filter s.regionRuns
  let s := gs.foldl (fun s g => if env.late.contains (1, g) then s.frameLate g else s) s
  let spec := Mode.spectra s.mode
  let s := if spec then gs.foldl State.specBegin s else s
  let r := (gs.flatMap fun g => (List.range 16).map (16 * g + ·)).foldl (fun (a : SMap (List (Int × Int)) × State) n =>
    let q := a.2.channelEnd env n
    (if q.1.isEmpty then a.1 else a.1 ++ [(n, q.1)], q.2)) ([], s)
  let s := if spec then gs.foldl (fun s g => s.setRg g fun x => if x.specOn then
    { x with specLen := x.specLen + 1, specLate := x.specLate || env.late.contains (5, g) } else x) r.2 else r.2
  -- a die held in reset gives zeros with `LATE` (20 R476)
  let held := (List.range 16).filter fun g => s.cont.resetting.any fun e => e.1 == g / 2
  let s := held.foldl (fun s g => s.rgMark g Flag.late 0) s
  -- a poisoned word of the live window or gains was taken as zero (18 R432)
  let dark := if s.poison.isEmpty then [] else gs.filter fun g => !(s.holesAt 1 g 0 16384 s.clk.ord).isEmpty
  let s := dark.foldl (fun s g => s.rgMark g Flag.poison 0) s
  let bad := if s.poison.isEmpty then [] else (List.range 256).filter fun n => gs.contains (n / 16) && !(s.reqHoles n s.clk.ord).isEmpty
  { s with pipe := { tick := s.tick, ord := s.clk.ord, chans := r.1, bad } :: s.pipe }

/-- The late units of the tick that ends are counted, once each (02 R35). -/
def State.lateCount (s : State) : State :=
  let l := s.clk.lateDue
  if l.isEmpty then s else
    let s := (l.map fun e => e.1).eraseDups.foldl (fun s u => s.inc Obj.LATE_COUNT 0 u) s
    (s.setVal Obj.LAST_LATE_TICK (l.foldl (fun a e => Nat.max a e.2) 0 : Nat)).setClk fun c => { c with lateDue := [], lateHdr := true }

/-- Records that wait too long for their allocation are reported (16 R382). -/
def State.recordsWait (s : State) : State :=
  let old (f : Frame) : Bool := (f.cls == 7 || f.cls == 8) && decide (f.born + s.nat Obj.LINK_ALLOC_DEPTH < s.clk.ord)
  if s.fr.queue.any old then s.reportExceeded 1 else s

/-- The second's counts take the tick that ends (16 R377); its reports go to the rate reductions (06 R149; 10 R229). -/
def State.reportsEnd (s : State) : State :=
  let s := s.recordsWait
  let cond := (s.infoAt 0).cond
  let overdue := s.fr.exceeding
  let s := s.setFr fun x => { x with
    exceeding := 0, secCond := x.secCond ||| cond
    secLate := if Flag.any cond Flag.late then Nat.min 65535 (x.secLate + 1) else x.secLate
    secAlloc := if overdue = 0 then x.secAlloc else x.secAlloc + 1 }
  let s := if s.suppTick.isSome then (List.range 256).foldl (fun s k => s.boostStep (bitOf overdue 0) k) s else s
  if s.mode = Mode.HALT then s else s.prescaleStep (bitOf overdue 1 || bitOf overdue 2)

/-- Everything of the tick that ends (02 R34). -/
def State.tickEnd (s : State) (env : TickEnv) : State :=
  let s := s.slotAllocate.secondDo.pinsDue
  let s := (s.ppsMissing ((s.tick + 1) * 2 ^ 19)).condMark
  let s := env.hkDone.foldl (fun s m => s.hkMemberDone m.1 m.2) s
  let f := s.framesEnd env
  let s := ((f.2.pinsBoundary.feedBack.d2dEnd env).hkTickEnd.historyEnd env).codeTick f.1 env.badBlocks
  let s := ((s.regionsEnd env).lateCount).reportsEnd
  ({ s with tdc := { s.tdc with hitsOld := [] } } : State).tdcFinish.condsResolve

/-! ### The new tick -/

/-- An input in the tick that begins: a new condition word. -/
def InSt.next (x : InSt) : InSt :=
  let l := (0 :: x.cond).take 20
  { x with cond := if l.all (· == 0) then [] else l }

/-- The range of an input at a boundary: a lock takes effect (03 R68), else a range decided does (03 R64); a decision that a lock
overtakes never takes effect (03 R67). `RANGE_NOW` shows the range at the boundary (03 R92). -/
def State.rangeNext (s : State) (n : Nat) : State :=
  let x := s.inp n
  let at_ := x.evalFrom - s.clk.ord * 4096
  let q : Nat × State := match s.rangeLock n, x.pend with
    | some r, _ => if s.converterRuns n then (r, s.rangeTo n r 0) else (x.range, s)
    | none, some r => (if at_ = 0 then r else x.range, s.rangeTo n r at_)
    | none, none => (x.range, s)
  if q.2.nat Obj.RANGE_NOW n = q.1 then q.2 else q.2.setVal Obj.RANGE_NOW q.1 n

/-- One tick less of a settle window (03 R89). -/
def State.excNext (s : State) (n : Nat) : State :=
  let r := s.nat Obj.EXC_REMAINING n
  if r = 0 then s else s.setVal Obj.EXC_REMAINING (r - 1 : Nat) n

/-- A region in the tick that begins: new flags, and one tick less of `WARM` (05 R120). -/
def State.regionNext (s : State) (g : Nat) : State :=
  let s := s.setRg g fun x => let l := (0 :: x.extra).take 20; { x with extra := if l.all (· == 0) then [] else l }
  let w := s.nat Obj.WARM_REMAINING g
  if w = 0 then s else
    let s := s.setVal Obj.WARM_REMAINING (w - 1 : Nat) g
    if w = 1 then s else s.rgMark g Flag.warm 0

/-- An injector's generator over the tick that ends, restarted at the first tick of a second (03 R86). -/
def State.injNext (s : State) (c : Nat) : State :=
  if s.tick % 250000 = 0 then s.prbsRestart c
  else if Mode.frontEnd s.mode && s.val Obj.INJ_MODE c == 1 then s.setCl c fun x => { x with prbs := prbsRun 4096 x.prbs }
  else s

/-- The number of the new tick, and what it begins with (02 R31, R32, R48-R50, R53): the tick number is Kloif time shifted right by 19
bits, so it returns to 0 after 2^53 - 1, and seconds are counted afresh. -/
def State.tickNext (s : State) : State :=
  let t := s.clk.nextTick.getD (if s.clk.counting then (s.clk.tick + 1) % 2 ^ 53 else 0)
  let i : TickInfo := { tick := t, mode := s.mode, unlocked := s.val Obj.TIME_STATE != 1 }
  let s := s.setClk fun c => { c with
    tick := t, ord := c.ord + 1, counting := true, nextTick := none, pastCutoff := false, info := (i :: c.info).take 20
    ppsSecond := if t < c.tick then none else c.ppsSecond }
  { s with inputs := smEach {} (fun _ x => InSt.next x) s.inputs
           trig := { s.trig with wordsOld := s.trig.words, words := [] } }

/-- The elements of the front end in the tick that begins. -/
def State.elementsNext (s : State) : State :=
  let s := (List.range 256).foldl State.excNext s
  let s := (List.range 16).foldl State.regionNext s
  (List.range 64).foldl State.injNext s

/-! ### What takes effect at the boundary (02 R33, R43) -/

/-- A change of `SPEC_INT_TICKS` ends the periods that run, under the settings of their last sampling tick: before any setting of the
boundary takes effect (05 R125, R126). -/
def State.specTicksEnd (s : State) : State :=
  if s.accepted Obj.SPEC_INT_TICKS = s.val Obj.SPEC_INT_TICKS then s else (List.range 16).foldl State.specEnd s

/-- A setting whose crossing did not settle: its destination keeps the value it had, and the master copy, which holds the value
accepted, differs from it until the next check (02 R55; 21 R494). Assumption log 79, DEDUCED. -/
def State.settingKept (s : State) (u : Unstable) : State :=
  match u.setting with
  | none => s
  | some a => match objAt a.index with
    | none => s
    | some o => match elemOf o.scope a.sub a.kind a.num with
      | none => s
      | some e =>
        let k := key o e a.sub
        match s.staged.reverse.find? fun w => w.key == k with
        | none => s
        | some w =>
          let s := ({ s with staged := s.staged.filter fun w => w.key != k } : State).cfgWritten k
          if o.ty = .blob then s else { s with flt := { s.flt with master := s.flt.master ++ [(u.die, k, a, w.value)] } }

/-- A setting that waited takes effect (03 R90). -/
def State.applyStaged (s : State) (w : Staged) : State :=
  match objAt (keyIdx w.key) with
  | none => s
  | some o =>
    let e := keyElem w.key
    let s := match o.idx with
      | 0x2030 => s.applyFeedEnable e w.value
      | 0x2031 => s.applyFeedLimit e w.value
      | 0x2040 | 0x2041 | 0x2042 | 0x2043 => s.applyInjector o e w.value
      | 0x8031 | 0x8032 => (s.freqDiscard e).setVal o w.value e
      | 0x3004 | 0x6001 => (s.notePast o e).setVal o w.value e
      | _ => if o.ty = Ty.blob then s.setBlob o w.blob e (keySub w.key) else s.setVal o w.value e (keySub w.key)
    s.cfgWritten w.key

/-- The settings of the boundary, in the order in which they were written (03 R90), but for those that did not cross. -/
def State.settingsApply (s : State) (l : List Unstable) : State :=
  let s := (l.foldl State.settingKept s).specTicksEnd
  s.staged.foldl State.applyStaged { s with staged := [] }

/-- The ranges of the boundary. -/
def State.rangesApply (s : State) : State := (List.range 256).foldl State.rangeNext s

/-- What a table does beside its copies when it swaps (05 R113, R133; 11 R254; 12 R277; 16 R378). -/
def State.swapHook (s : State) (t : Nat × Nat) : State :=
  match t.1 with
  | 0 => s.linSwap t.2
  | 2 => s.reqSwap t.2
  | 9 => (s.coderSwap t.2).queueCoderTab t.2 s.tick
  | 10 => s.recRetest
  | _ => s

/-- Swaps deferred for the limit are cancelled with their groups (02 R40). -/
def State.swapsCancel (s : State) : State :=
  let overdue := allTabs.filter fun t => s.tabState t.1 t.2 == 2 && decide (s.nat Obj.SWAP_DEFER_LIMIT ≤ (s.tab t.1 t.2).deferRun)
  overdue.foldl (fun s t => ((s.tab t.1 t.2).group.map fun k => (k / 256, k % 256)).foldl State.cancelTab s) s

/-- The table swaps of the boundary (02 R38-R42): the identifiers swapped as a mask, whether one was deferred, and the state. -/
def State.swapsApply (s : State) : Nat × Bool × State :=
  let s := s.swapsCancel
  let plan := s.planSwaps
  let s := plan.1.foldl (fun s t => (s.swapCopies t.1 t.2).swapHook t) s
  let s := plan.2.foldl (fun s g => g.foldl (fun s t => s.deferTab g t) s) s
  let late := !plan.2.isEmpty
  let s := if late then (s.inc Obj.LATE_COUNT 0 7).setVal Obj.LAST_LATE_TICK s.tick else s
  let stale (s : State) (g : Nat) : State :=
    if s.staleAt 1 g s.clk.ord || s.staleAt 2 g s.clk.ord then s.rgMark g Flag.staleTbl 0 else s
  ((plan.1.foldl (fun m t => setBit m t.1) 0), late, ((List.range 16).foldl stale s).tabsSettle)

/-- Isolations and returns, the mode, soft resets, a time set and restarts (01 R17, R20; 02 R43, R47, R50; 20 R476, R485, R486). -/
def State.elementsApply (s : State) : State :=
  let s := (((s.diesApply fun _ => true).chansApply fun _ => true).modeApply).softApply
  let s := s.cont.shaken.foldl State.dieResetDone s
  let s := if s.clk.short then s.timeSetDone else s
  (List.range 16).foldl (fun s g =>
    if !(s.rg g).restartDue then s
    else if s.regionRuns g then s.regionRestart g
    else s.setRg g fun x => { x with restartDue := false }) s

/-- The flag spans and the inputs out of service of the new tick are noted, and whether its hits are sent (05 R121; 01 R30; 16 R376). -/
def State.tickNote (s : State) : State :=
  let span (s : State) (g : Nat) : State :=
    s.setRg g fun x =>
      let l := (s.nat Obj.CHAN_FLAG_SPAN g :: x.spans).take 20
      { x with spans := if l.all (· == 16) then [] else l }
  let s := (List.range 16).foldl span s
  let out := (List.range 256).filter fun n => !s.inService n
  let hits := Mode.hits s.mode && (List.range 272).any fun t => s.on Obj.HIT_OUT t
  (s.setInfo fun i => { i with out, hits }).condMark (Flag.clamp ||| Flag.nbr)

/-- What the kernel and the memories do at a boundary (02 R47, R50; 08 R192; 18 R434; 19 R465; 21 R494, R498). -/
def State.kernelBoundary (s : State) : State :=
  let s := (List.range 13).foldl State.bucketLeak s
  let s := ((s.masterRepair.masterCheck).spansEnd fun _ => true).timeSetExpire
  let s := (List.range 8).foldl (fun s d => s.pllTimeout d 257) s
  let s := (s.engs.map fun e => e.1).foldl State.engLoadBegin s
  s.appSwitch

/-- What reads as of the boundary stands for the tick (06 R152, R158; 13 R289). -/
def State.snapshot (s : State) : State :=
  { s with slices := smEach {} (fun _ (x : SlSt) => { x with ctx0 := x.ctx }) s.slices
           spec := { s.spec with cands0 := s.spec.cands } }

/-! ### Framing and hand-in (02 R34) -/

/-- The products made in the tick that ended are framed (16 R372-R376). -/
def State.framing (s : State) : State :=
  let s := if Mode.beams s.mode then s.frameMasks
    else (s.fr.masksChanged.foldl State.queueMask s).setFr fun x => { x with masksChanged := [] }
  let s : State := { s with win := { s.win with beams := s.beams } }
  let s := s.frameBeams
  let s := match s.suppTick with | some t => s.frameSupp t | none => s
  s.win.framing.foldl State.frameSpectrum { s with win := { s.win with framing := [] } }

/-- The corner-turned frame of the sampling tick three back, with zeros for the inputs that were out of service (01 R17; 02 R34;
06 R143). -/
def State.cornerTurn (s : State) : DelayTick :=
  let i := s.infoAt 3
  let ord := s.clk.ord - 3
  let (chans, bad) := match s.pipe.find? (fun e => e.ord + 3 == s.clk.ord) with
    | some e => (smKeep (fun n => !i.out.contains n) e.chans, e.bad)
    | none => ([], [])
  let cond := if Mode.frontEnd i.mode then (List.range 256).map fun n => s.chanCond n 3 ||| Flag.when (bad.contains n) Flag.poison else []
  { tick := i.tick, ord, chans, cond := if cond.all (· == 0) then [] else cond }

/-- The hand-in: the frame goes to the delay lines, slices and beams in the mode of its sampling tick (02 R33, R34; 06 R136;
07 R159; 20 R485). -/
def State.handIn (s : State) (env : TickEnv) : State :=
  let d := s.cornerTurn
  let i := s.infoAt 3
  let real := decide (4 ≤ s.clk.info.length)
  let s : State := { s with delay := (d :: s.delay).take 16, pipe := s.pipe.filter fun e => decide (s.clk.ord < e.ord + 3) }
  let s := if s.poison.isEmpty then s else (List.range 256).foldl (fun s k => s.clearPoison (delayAddr k 0 d.ord) 4096) (s.clearPoison (condAddr 0 d.ord) 512)
  let rows := ((List.range 256).map fun n => (smGet [] d.chans n).toArray).toArray
  let conds := d.cond.toArray
  let s := if real && Mode.suppression i.mode then
      let s := (List.range 256).foldl (fun s k => s.sliceTick k rows conds d (env.late.contains (2, k))) s
      { s with suppTick := some d.tick }
    else { s with suppTick := none
                  slices := smEach {} (fun _ (x : SlSt) => { x with items := [], yielded := 0 }) s.slices }
  if real && Mode.beams i.mode then
    s.formBeams rows conds (fun n => !i.out.contains n) d fun k => env.late.contains (3, k)
  else s

/-! ### The tick header (16 R369, R370) -/

/-- Whether a rate reduction or an element set aside is in force (00 R8; 01 R17; 08 R184; 10 R229; 15 R342; 16 R383; 21 R491). Assumption log 41, DEDUCED. -/
def State.isDegraded (s : State) (boost : Nat) : Bool :=
  !s.cont.out.isEmpty || !s.cont.quar.isEmpty || s.sharesShort || s.on Obj.TRIG_PRESCALE_LEVEL || decide (0 < boost) ||
    s.anyLaneDown || (List.range 256).any fun k => s.engState k == engQUARANTINED

/-- The `TICK` frame of the new tick is queued, and its condition word noted (16 R370; 08 R177). Assumption log 41, DEDUCED. -/
def State.tickHeader (s : State) (swapped : Nat) (stale : Bool) : State :=
  let boost := (List.range 256).foldl (fun a k => Nat.max a (s.nat Obj.SUPP_BOOST k)) 0
  let cond := Flag.when (s.isDegraded boost) Flag.degraded ||| Flag.when (s.infoAt 0).unlocked Flag.timeUnlocked |||
    Flag.when s.clk.lateHdr Flag.late ||| Flag.when stale Flag.staleTbl
  let q := s.queuePlace 32
  let h : TickHdr := {
    tick := s.tick, ord := s.clk.ord, mode := s.mode, cond, swapped, inputs := s.nat Obj.INPUTS_IN_SERVICE
    prescale := s.nat Obj.TRIG_PRESCALE_LEVEL, boost, place := q.1 }
  let s := (q.2.setFr fun x => { x with ticks := x.ticks ++ [h] }).setInfo fun i => { i with cond }
  s.setClk fun c => { c with lateHdr := false }

/-- The units that will not complete in the tick that begins, with the sampling ticks they work on (02 R34, R35). -/
def State.lateNote (s : State) (env : TickEnv) : State :=
  let due (e : Nat × Nat) : Option (Nat × Nat) :=
    match e.1 with
    | 1 => if s.regionRuns e.2 && Mode.frontEnd (s.infoAt 1).mode then some (1, (s.infoAt 1).tick) else none
    | 2 => if s.suppTick.isSome then some (2, (s.infoAt 3).tick) else none
    | 3 => if Mode.beams (s.infoAt 3).mode then some (3, (s.infoAt 3).tick) else none
    | 5 => if s.regionRuns e.2 && Mode.spectra (s.infoAt 1).mode then some (5, (s.infoAt 1).tick) else none
    | 6 => if s.hist.lateSlot.isSome then some (6, (s.infoAt 2).tick) else none
    | _ => none
  s.setClk fun c => { c with lateDue := env.late.filterMap due }

/-! ### The boundary -/

/-- The boundary of a tick once the module is out of BOOT. Assumption log 14, DESIGN CHOICE. Assumption log 15, DESIGN CHOICE. -/
def State.boundary (s : State) (env : TickEnv) (hits : List HitWord) (cross : List (Nat × BitVec 64)) (old : TickInfo) : State :=
  let s := s.elementsNext
  let s := (List.range 16).foldl (fun s g => if s.nat Obj.SPEC_INT_TICKS ≤ (s.rg g).specLen then s.specEnd g else s) s
  let w := ((s.elementsApply.linCopies.hkWake).settingsApply env.unstable).rangesApply.swapsApply
  let s := w.2.2.tickNote.lanesBoundary.domLinks
  let s := ((s.masksApply (s.infoAt 3).tick).ctxApply.outcomesApply).kernelBoundary
  let s := s.snapshot.shareUpdate.framing
  let s := s.tdcBegin hits cross old
  let s := ((s.handIn env).engHandIn.specHandover).cutBacklog
  let s := (s.tickHeader w.1 w.2.1).lateNote env
  if s.tick % 250000 = 0 then s.setClk fun c => { c with secondDue := some s.tick } else s

/-- `TICK_BOUNDARY` (02 R33). In BOOT ticks count, and isolations take effect; nothing else runs (20 R480). Assumption log 15, DESIGN CHOICE. -/
def State.tickBoundary (s : State) (env : TickEnv) : State :=
  if !s.clocked then s else
    let hits := s.tdc.hitsOld
    let cross := s.trig.wordsOld
    let old := s.infoAt 1
    let s := s.viewsServe.unstableCount env.unstable
    let s := if s.clk.counting && s.mode != Mode.BOOT then s.tickEnd env else s
    let s := s.tickNext
    if s.mode = Mode.BOOT then ((s.diesApply fun _ => true).chansApply fun _ => true).spansEnd fun _ => true
    else s.boundary env hits cross old

/-- `TICK_BOUNDARY` (02 R33). -/
def execTickBoundary (env : TickEnv) (s : State) : Out := .next (s.tickBoundary env)

/-! ### The cut-off (08 R178-R182) -/

/-- A handler that has not retired `yield` by the cut-off (08 R181, R182). Assumption log 46, DEDUCED. -/
def State.engOverrun (s : State) (k : Nat) : State :=
  let run := (s.eng k).run + 1
  let s := s.setEng k fun x => { x.clearRegs.clearStaged with active := false, yielded := false, waitTo := none, run }
  let s := ((s.inc Obj.ENG_OVERRUN_COUNT k).setVal Obj.ENG_CYCLES_LAST 0xFFFF k).setVal Obj.ENG_CYCLES_MAX 0xFFFF k
  let s := s.setSl k fun x => { x with items := x.items.map fun i => { i with cond := i.cond ||| Flag.late } }
  if 3 ≤ run then s.engException k 5 0 else s

/-- The hand-out of the engines whose handlers ended in time, in the order of 08 R180. -/
def State.handOut (s : State) (ks : List Nat) : State :=
  let s : State := { s with slices := smEach {} (fun _ (x : SlSt) => { x with engWrote := [] }) s.slices }
  let s := ks.foldl State.engOpsApply s
  let s := ks.foldl State.engMasksApply s
  let s := ks.foldl (fun s k => (s.eng k).trigs.foldl (fun s w => s.engTrigger k w) s) s
  let s := ks.foldl (fun s k => (s.eng k).meas.foldl (fun s w => s.engMeasure k w) s) s
  let s := ks.foldl (fun s k => (s.engMsgsApply k).engUnlisted k) s
  ks.foldl (fun s k => s.setEng k fun x => { x.clearStaged with run := 0, yielded := false }) s

/-- The swap cut-off: overruns, the hand-out, the repeated checks of a mode change (02 R33, R35; 08 R178-R182; 20 R484), and the end
of the converters' start-up (04 R107). Assumption log 46, DEDUCED. Assumption log 66, DEDUCED. -/
def State.tickCutoff (s : State) : State :=
  if !s.clocked || !s.clk.counting || s.clk.pastCutoff then s else
    let running := (List.range 256).filter fun k => s.engState k == engRUNNING
    let overdue := running.filter fun k => (s.eng k).active && !(s.eng k).yielded
    let done := running.filter fun k => (s.eng k).yielded
    let s := overdue.foldl State.engOverrun s
    let s := if overdue.isEmpty then s else
      ((s.inc Obj.LATE_COUNT 0 4).setVal Obj.LAST_LATE_TICK (s.infoAt 3).tick).setClk fun c => { c with lateHdr := true }
    let s := (s.handOut done).modeCutoff
    let s := (List.range 9).foldl (fun s h => if s.val Obj.HK_STATE h = 2 then s.setVal Obj.HK_STATE 3 h else s) s
    s.setClk fun c => { c with pastCutoff := true }

/-- `TICK_CUTOFF` (02 R33). -/
def execTickCutoff (s : State) : Out := .next s.tickCutoff

end Sys2Proof.Machine
end

