-- ==== Sys2Proof/Machine/Dispatch.lean ====
section
/-! DEFINITION. The commands to their meanings: one arm per row of the opcode table. -/

namespace Sys2Proof.Machine

/-- The effect of a command on everything but the queue. Assumption log 13, DESIGN CHOICE. -/
def exec (i : Instr) (s : State) : Host.Outcome State Fault Refusal :=
  match i with
  | .pwrGoodRise => Sys2Proof.Machine.execPwrGoodRise s
  | .pwrGoodFall => Sys2Proof.Machine.execPwrGoodFall s
  | .resetNLow a => Sys2Proof.Machine.execResetNLow a s
  | .resetNRelease => Sys2Proof.Machine.execResetNRelease s
  | .startUpBegin a => Sys2Proof.Machine.execStartUpBegin a s
  | .romBootDone a => Sys2Proof.Machine.execRomBootDone a s
  | .fuseReadDone => Sys2Proof.Machine.execFuseReadDone s
  | .memoryFillDone a b => Sys2Proof.Machine.execMemoryFillDone a b s
  | .kernelVerifyDone => Sys2Proof.Machine.execKernelVerifyDone s
  | .safeEntry a => Sys2Proof.Machine.execSafeEntry a s
  | .appStartDone => Sys2Proof.Machine.execAppStartDone s
  | .refclkMeasure a => Sys2Proof.Machine.execRefclkMeasure a s
  | .cdPllLock => Sys2Proof.Machine.execCdPllLock s
  | .pllLockTimeout => Sys2Proof.Machine.execPllLockTimeout s
  | .refclkLoss => Sys2Proof.Machine.execRefclkLoss s
  | .refclkReturn a => Sys2Proof.Machine.execRefclkReturn a s
  | .pllSlewDone => Sys2Proof.Machine.execPllSlewDone s
  | .readerPllUnlock a => Sys2Proof.Machine.execReaderPllUnlock a s
  | .readerPllRelock a => Sys2Proof.Machine.execReaderPllRelock a s
  | .readerPllRelockTimeout a => Sys2Proof.Machine.execReaderPllRelockTimeout a s
  | .timeSet a b => Sys2Proof.Machine.execTimeSet a b s
  | .ppsEdge a => Sys2Proof.Machine.execPpsEdge a s
  | .timeSetTimeout => Sys2Proof.Machine.execTimeSetTimeout s
  | .ppsMissing => Sys2Proof.Machine.execPpsMissing s
  | .secondBoundary => Sys2Proof.Machine.execSecondBoundary s
  | .clockStopped a => Sys2Proof.Machine.execClockStopped a s
  | .cdcHandshakeDone a => Sys2Proof.Machine.execCdcHandshakeDone a s
  | .tickBoundary a => Sys2Proof.Machine.execTickBoundary a s
  | .tickCutoff => Sys2Proof.Machine.execTickCutoff s
  | .tableSwapRequest a b c d => Sys2Proof.Machine.execTableSwapRequest a b c d s
  | .tableSwapCancel a b => Sys2Proof.Machine.execTableSwapCancel a b s
  | .linTableBuild a => Sys2Proof.Machine.execLinTableBuild a s
  | .linBuildDone a => Sys2Proof.Machine.execLinBuildDone a s
  | .linCoeffCommit a b => Sys2Proof.Machine.execLinCoeffCommit a b s
  | .linRebuild a b => Sys2Proof.Machine.execLinRebuild a b s
  | .linDeferredBuild a => Sys2Proof.Machine.execLinDeferredBuild a s
  | .rangeAttack a b c d => Sys2Proof.Machine.execRangeAttack a b c d s
  | .rangeRelease a b => Sys2Proof.Machine.execRangeRelease a b s
  | .clampEpisodeBegin a b c => Sys2Proof.Machine.execClampEpisodeBegin a b c s
  | .clampEpisodeEnd a b c => Sys2Proof.Machine.execClampEpisodeEnd a b c s
  | .nbrPeriodEnd a => Sys2Proof.Machine.execNbrPeriodEnd a s
  | .clampSourceClear a b c => Sys2Proof.Machine.execClampSourceClear a b c s
  | .blankPinEdge a b c d => Sys2Proof.Machine.execBlankPinEdge a b c d s
  | .blankApply a => Sys2Proof.Machine.execBlankApply a s
  | .feedComparatorSample a b => Sys2Proof.Machine.execFeedComparatorSample a b s
  | .feedFoldBack a => Sys2Proof.Machine.execFeedFoldBack a s
  | .feedEnable a b c => Sys2Proof.Machine.execFeedEnable a b c s
  | .vfeedLowSet a => Sys2Proof.Machine.execVfeedLowSet a s
  | .vfeedLowClear a => Sys2Proof.Machine.execVfeedLowClear a s
  | .excWindowEnd a => Sys2Proof.Machine.execExcWindowEnd a s
  | .hkPassStart a => Sys2Proof.Machine.execHkPassStart a s
  | .hkBurstDone a b => Sys2Proof.Machine.execHkBurstDone a b s
  | .hkSeqCommit a b => Sys2Proof.Machine.execHkSeqCommit a b s
  | .hkUrgentRequest a b c => Sys2Proof.Machine.execHkUrgentRequest a b c s
  | .hkUrgentStart a b => Sys2Proof.Machine.execHkUrgentStart a b s
  | .warmEnd a => Sys2Proof.Machine.execWarmEnd a s
  | .spectraPeriodEnd a => Sys2Proof.Machine.execSpectraPeriodEnd a s
  | .suppCtxWrite a b c => Sys2Proof.Machine.execSuppCtxWrite a b c s
  | .suppCtxApply => Sys2Proof.Machine.execSuppCtxApply s
  | .ctxHold a b c => Sys2Proof.Machine.execCtxHold a b c s
  | .ctxRelease a b c => Sys2Proof.Machine.execCtxRelease a b c s
  | .ctxMask a b c => Sys2Proof.Machine.execCtxMask a b c s
  | .ctxUnmask a b c => Sys2Proof.Machine.execCtxUnmask a b c s
  | .ctxReseed a b c => Sys2Proof.Machine.execCtxReseed a b c s
  | .ctxSetK a b c d => Sys2Proof.Machine.execCtxSetK a b c d s
  | .suppBoostFall a => Sys2Proof.Machine.execSuppBoostFall a s
  | .dieIsolate a b => Sys2Proof.Machine.execDieIsolate a b s
  | .dieRelease a b => Sys2Proof.Machine.execDieRelease a b s
  | .dieIsolationApply a => Sys2Proof.Machine.execDieIsolationApply a s
  | .engHandlerStart a => Sys2Proof.Machine.execEngHandlerStart a s
  | .add a => Sys2Proof.Machine.execAdd a s
  | .sub a => Sys2Proof.Machine.execSub a s
  | .adds a => Sys2Proof.Machine.execAdds a s
  | .subs a => Sys2Proof.Machine.execSubs a s
  | .addi a => Sys2Proof.Machine.execAddi a s
  | .mul a => Sys2Proof.Machine.execMul a s
  | .min a => Sys2Proof.Machine.execMin a s
  | .max a => Sys2Proof.Machine.execMax a s
  | .rcp a => Sys2Proof.Machine.execRcp a s
  | .sqrt a => Sys2Proof.Machine.execSqrt a s
  | .fcvt a => Sys2Proof.Machine.execFcvt a s
  | .and a => Sys2Proof.Machine.execAnd a s
  | .or a => Sys2Proof.Machine.execOr a s
  | .xor a => Sys2Proof.Machine.execXor a s
  | .clz a => Sys2Proof.Machine.execClz a s
  | .bext a => Sys2Proof.Machine.execBext a s
  | .bins a => Sys2Proof.Machine.execBins a s
  | .shl a => Sys2Proof.Machine.execShl a s
  | .shr a => Sys2Proof.Machine.execShr a s
  | .sar a => Sys2Proof.Machine.execSar a s
  | .li a => Sys2Proof.Machine.execLi a s
  | .lih a => Sys2Proof.Machine.execLih a s
  | .cmp a => Sys2Proof.Machine.execCmp a s
  | .cmpi a => Sys2Proof.Machine.execCmpi a s
  | .pand a => Sys2Proof.Machine.execPand a s
  | .por a => Sys2Proof.Machine.execPor a s
  | .pxor a => Sys2Proof.Machine.execPxor a s
  | .pandn a => Sys2Proof.Machine.execPandn a s
  | .pset a => Sys2Proof.Machine.execPset a s
  | .pclr a => Sys2Proof.Machine.execPclr a s
  | .rdp a => Sys2Proof.Machine.execRdp a s
  | .wrp a => Sys2Proof.Machine.execWrp a s
  | .ld a => Sys2Proof.Machine.execLd a s
  | .st a => Sys2Proof.Machine.execSt a s
  | .vld a => Sys2Proof.Machine.execVld a s
  | .vst a => Sys2Proof.Machine.execVst a s
  | .vadd a => Sys2Proof.Machine.execVadd a s
  | .vsub a => Sys2Proof.Machine.execVsub a s
  | .vmin a => Sys2Proof.Machine.execVmin a s
  | .vmax a => Sys2Proof.Machine.execVmax a s
  | .vmul a => Sys2Proof.Machine.execVmul a s
  | .vand a => Sys2Proof.Machine.execVand a s
  | .vor a => Sys2Proof.Machine.execVor a s
  | .vxor a => Sys2Proof.Machine.execVxor a s
  | .vshl a => Sys2Proof.Machine.execVshl a s
  | .vshr a => Sys2Proof.Machine.execVshr a s
  | .vsar a => Sys2Proof.Machine.execVsar a s
  | .vcmp a => Sys2Proof.Machine.execVcmp a s
  | .vsplat a => Sys2Proof.Machine.execVsplat a s
  | .vext a => Sys2Proof.Machine.execVext a s
  | .vins a => Sys2Proof.Machine.execVins a s
  | .vredAdd a => Sys2Proof.Machine.execVredAdd a s
  | .vredMax a => Sys2Proof.Machine.execVredMax a s
  | .vredMin a => Sys2Proof.Machine.execVredMin a s
  | .vpowB a => Sys2Proof.Machine.execVpowB a s
  | .vpowH a => Sys2Proof.Machine.execVpowH a s
  | .cld a => Sys2Proof.Machine.execCld a s
  | .cwr a => Sys2Proof.Machine.execCwr a s
  | .ccmdHold a => Sys2Proof.Machine.execCcmdHold a s
  | .ccmdRelease a => Sys2Proof.Machine.execCcmdRelease a s
  | .ccmdMask a => Sys2Proof.Machine.execCcmdMask a s
  | .ccmdUnmask a => Sys2Proof.Machine.execCcmdUnmask a s
  | .ccmdReseed a => Sys2Proof.Machine.execCcmdReseed a s
  | .cvb a => Sys2Proof.Machine.execCvb a s
  | .bwx a => Sys2Proof.Machine.execBwx a s
  | .bwc a => Sys2Proof.Machine.execBwc a s
  | .brx a => Sys2Proof.Machine.execBrx a s
  | .brc a => Sys2Proof.Machine.execBrc a s
  | .trig a => Sys2Proof.Machine.execTrig a s
  | .meas a => Sys2Proof.Machine.execMeas a s
  | .send a => Sys2Proof.Machine.execSend a s
  | .recv a => Sys2Proof.Machine.execRecv a s
  | .br a => Sys2Proof.Machine.execBr a s
  | .jal a => Sys2Proof.Machine.execJal a s
  | .jr a => Sys2Proof.Machine.execJr a s
  | .loop a => Sys2Proof.Machine.execLoop a s
  | .loopi a => Sys2Proof.Machine.execLoopi a s
  | .yield a => Sys2Proof.Machine.execYield a s
  | .wait a => Sys2Proof.Machine.execWait a s
  | .engWaitEnd a => Sys2Proof.Machine.execEngWaitEnd a s
  | .rdcyc a => Sys2Proof.Machine.execRdcyc a s
  | .engAutoRestart a => Sys2Proof.Machine.execEngAutoRestart a s
  | .engLoad a b => Sys2Proof.Machine.execEngLoad a b s
  | .engLoadCopyDone a => Sys2Proof.Machine.execEngLoadCopyDone a s
  | .engRestart a b => Sys2Proof.Machine.execEngRestart a b s
  | .engQuarantineCmd a b => Sys2Proof.Machine.execEngQuarantineCmd a b s
  | .engUnload a b => Sys2Proof.Machine.execEngUnload a b s
  | .engMsgIn a b c => Sys2Proof.Machine.execEngMsgIn a b c s
  | .suppParam a b => Sys2Proof.Machine.execSuppParam a b s
  | .spillWrite a b => Sys2Proof.Machine.execSpillWrite a b s
  | .spillRead a b => Sys2Proof.Machine.execSpillRead a b s
  | .spillCopyDone a => Sys2Proof.Machine.execSpillCopyDone a s
  | .engReplyDeliver a => Sys2Proof.Machine.execEngReplyDeliver a s
  | .trigCrossing a b => Sys2Proof.Machine.execTrigCrossing a b s
  | .coinMemberTrigger a b c => Sys2Proof.Machine.execCoinMemberTrigger a b c s
  | .coinWindowClose a b => Sys2Proof.Machine.execCoinWindowClose a b s
  | .trigRearmEnd a b => Sys2Proof.Machine.execTrigRearmEnd a b s
  | .trigRrRelease => Sys2Proof.Machine.execTrigRrRelease s
  | .dominoReport a b c => Sys2Proof.Machine.execDominoReport a b c s
  | .dominoConfirm a b c => Sys2Proof.Machine.execDominoConfirm a b c s
  | .dominoVeto a b c => Sys2Proof.Machine.execDominoVeto a b c s
  | .dominoArrayTrig a b c => Sys2Proof.Machine.execDominoArrayTrig a b c s
  | .dominoProbe a b c d => Sys2Proof.Machine.execDominoProbe a b c d s
  | .dominoEcho a b c => Sys2Proof.Machine.execDominoEcho a b c s
  | .dominoRate a b c => Sys2Proof.Machine.execDominoRate a b c s
  | .arrWindowClose => Sys2Proof.Machine.execArrWindowClose s
  | .dominoProbeSend a b => Sys2Proof.Machine.execDominoProbeSend a b s
  | .trgoPulseStart => Sys2Proof.Machine.execTrgoPulseStart s
  | .trgoPulseEnd => Sys2Proof.Machine.execTrgoPulseEnd s
  | .trgiEdge a b => Sys2Proof.Machine.execTrgiEdge a b s
  | .slotAllocate => Sys2Proof.Machine.execSlotAllocate s
  | .recordCutDone a => Sys2Proof.Machine.execRecordCutDone a s
  | .recMeasure a => Sys2Proof.Machine.execRecMeasure a s
  | .dramArbitration a => Sys2Proof.Machine.execDramArbitration a s
  | .segmentStart => Sys2Proof.Machine.execSegmentStart s
  | .recordExport a => Sys2Proof.Machine.execRecordExport a s
  | .candidateSeal a => Sys2Proof.Machine.execCandidateSeal a s
  | .candidateExpire a => Sys2Proof.Machine.execCandidateExpire a s
  | .candidateOutcomeApply => Sys2Proof.Machine.execCandidateOutcomeApply s
  | .sendAhead a => Sys2Proof.Machine.execSendAhead a s
  | .specCommitSend a => Sys2Proof.Machine.execSpecCommitSend a s
  | .tdcEdge a b => Sys2Proof.Machine.execTdcEdge a b s
  | .tdcCalUpdate a => Sys2Proof.Machine.execTdcCalUpdate a s
  | .tdcDllLock a => Sys2Proof.Machine.execTdcDllLock a s
  | .tdcDllUnlock a => Sys2Proof.Machine.execTdcDllUnlock a s
  | .tdcStartSettle a => Sys2Proof.Machine.execTdcStartSettle a s
  | .freqGateEnd a => Sys2Proof.Machine.execFreqGateEnd a s
  | .freqResultPublish a => Sys2Proof.Machine.execFreqResultPublish a s
  | .laneSignalPresent a => Sys2Proof.Machine.execLaneSignalPresent a s
  | .laneEyeSweep a b => Sys2Proof.Machine.execLaneEyeSweep a b s
  | .laneBitLock a => Sys2Proof.Machine.execLaneBitLock a s
  | .laneSymbolLock a => Sys2Proof.Machine.execLaneSymbolLock a s
  | .exchangeMessageSend a => Sys2Proof.Machine.execExchangeMessageSend a s
  | .exchangeMessage a b => Sys2Proof.Machine.execExchangeMessage a b s
  | .laneEnterActive a => Sys2Proof.Machine.execLaneEnterActive a s
  | .laneTrainTimeout a => Sys2Proof.Machine.execLaneTrainTimeout a s
  | .laneExchangeTimeout a => Sys2Proof.Machine.execLaneExchangeTimeout a s
  | .laneLossOfSignal a => Sys2Proof.Machine.execLaneLossOfSignal a s
  | .laneErrorRetrain a b => Sys2Proof.Machine.execLaneErrorRetrain a b s
  | .lanePartnerRetrain a => Sys2Proof.Machine.execLanePartnerRetrain a s
  | .laneBackoffEnd a => Sys2Proof.Machine.execLaneBackoffEnd a s
  | .laneReset a b => Sys2Proof.Machine.execLaneReset a b s
  | .laneDisable a b => Sys2Proof.Machine.execLaneDisable a b s
  | .laneEnable a b => Sys2Proof.Machine.execLaneEnable a b s
  | .linkRateWrite a b c => Sys2Proof.Machine.execLinkRateWrite a b c s
  | .linkFrame a b => Sys2Proof.Machine.execLinkFrame a b s
  | .replayTimeout a => Sys2Proof.Machine.execReplayTimeout a s
  | .linkFrameSend a => Sys2Proof.Machine.execLinkFrameSend a s
  | .frameDiscardRx a b c d e => Sys2Proof.Machine.execFrameDiscardRx a b c d e s
  | .frameHandout => Sys2Proof.Machine.execFrameHandout s
  | .queueAgeDrop => Sys2Proof.Machine.execQueueAgeDrop s
  | .sdpFrame a b => Sys2Proof.Machine.execSdpFrame a b s
  | .dominoFrame a b => Sys2Proof.Machine.execDominoFrame a b s
  | .cascadeFrame a b => Sys2Proof.Machine.execCascadeFrame a b s
  | .cascadeGapSkip => Sys2Proof.Machine.execCascadeGapSkip s
  | .cascadeHoldExpire => Sys2Proof.Machine.execCascadeHoldExpire s
  | .hello a b c d => Sys2Proof.Machine.execHello a b c d s
  | .auth a b => Sys2Proof.Machine.execAuth a b s
  | .close a => Sys2Proof.Machine.execClose a s
  | .read a b => Sys2Proof.Machine.execRead a b s
  | .write a b => Sys2Proof.Machine.execWrite a b s
  | .readSeg a b c d => Sys2Proof.Machine.execReadSeg a b c d s
  | .writeSeg a b c d e => Sys2Proof.Machine.execWriteSeg a b c d e s
  | .subscribe a b => Sys2Proof.Machine.execSubscribe a b s
  | .unsubscribe a b => Sys2Proof.Machine.execUnsubscribe a b s
  | .eventRead a b c => Sys2Proof.Machine.execEventRead a b c s
  | .setSave a b c => Sys2Proof.Machine.execSetSave a b c s
  | .setSaveDone => Sys2Proof.Machine.execSetSaveDone s
  | .setRestore a b => Sys2Proof.Machine.execSetRestore a b s
  | .setRestoreDone => Sys2Proof.Machine.execSetRestoreDone s
  | .ping a b => Sys2Proof.Machine.execPing a b s
  | .sdpUnknownOpcode a b c => Sys2Proof.Machine.execSdpUnknownOpcode a b c s
  | .sdpMalformedDatagram => Sys2Proof.Machine.execSdpMalformedDatagram s
  | .sessionAuthTimeout a => Sys2Proof.Machine.execSessionAuthTimeout a s
  | .sessionIdleTimeout a => Sys2Proof.Machine.execSessionIdleTimeout a s
  | .writeSegTimeout a => Sys2Proof.Machine.execWriteSegTimeout a s
  | .eventSend a => Sys2Proof.Machine.execEventSend a s
  | .keySlotWrite a b c d => Sys2Proof.Machine.execKeySlotWrite a b c d s
  | .setErase a b => Sys2Proof.Machine.execSetErase a b s
  | .genericObjectWrite a b c => Sys2Proof.Machine.execGenericObjectWrite a b c s
  | .appObjRead a => Sys2Proof.Machine.execAppObjRead a s
  | .appObjWrite a b => Sys2Proof.Machine.execAppObjWrite a b s
  | .appEngSend a b => Sys2Proof.Machine.execAppEngSend a b s
  | .appEngRecv a => Sys2Proof.Machine.execAppEngRecv a s
  | .appCvu a b => Sys2Proof.Machine.execAppCvu a b s
  | .appDataRw a b c d => Sys2Proof.Machine.execAppDataRw a b c d s
  | .appLogFault a b => Sys2Proof.Machine.execAppLogFault a b s
  | .appKick => Sys2Proof.Machine.execAppKick s
  | .appConfirm => Sys2Proof.Machine.execAppConfirm s
  | .appObjReply a b c => Sys2Proof.Machine.execAppObjReply a b c s
  | .appBadService a => Sys2Proof.Machine.execAppBadService a s
  | .appAccessFault => Sys2Proof.Machine.execAppAccessFault s
  | .appWatchdogExpire => Sys2Proof.Machine.execAppWatchdogExpire s
  | .appTrialTimeout => Sys2Proof.Machine.execAppTrialTimeout s
  | .appReplyTimeout a => Sys2Proof.Machine.execAppReplyTimeout a s
  | .kernelConfirm a => Sys2Proof.Machine.execKernelConfirm a s
  | .kernelTrialTimeout => Sys2Proof.Machine.execKernelTrialTimeout s
  | .rollbackCommit a => Sys2Proof.Machine.execRollbackCommit a s
  | .fuseOwnerKey a b c => Sys2Proof.Machine.execFuseOwnerKey a b c s
  | .fuseOwnerRevoke a b => Sys2Proof.Machine.execFuseOwnerRevoke a b s
  | .imageVerify a b => Sys2Proof.Machine.execImageVerify a b s
  | .imageVerifyDone a => Sys2Proof.Machine.execImageVerifyDone a s
  | .imageErase a b => Sys2Proof.Machine.execImageErase a b s
  | .imageActivate a b => Sys2Proof.Machine.execImageActivate a b s
  | .modeRequest a b c => Sys2Proof.Machine.execModeRequest a b c s
  | .modeCancel a => Sys2Proof.Machine.execModeCancel a s
  | .modeCutoffCheck => Sys2Proof.Machine.execModeCutoffCheck s
  | .modeChangeApply => Sys2Proof.Machine.execModeChangeApply s
  | .softReset a b => Sys2Proof.Machine.execSoftReset a b s
  | .softResetApply => Sys2Proof.Machine.execSoftResetApply s
  | .dieSoftResetDone a => Sys2Proof.Machine.execDieSoftResetDone a s
  | .resetCmdWarm a => Sys2Proof.Machine.execResetCmdWarm a s
  | .resetCmdDumpPreserving a => Sys2Proof.Machine.execResetCmdDumpPreserving a s
  | .fatalFault a b c => Sys2Proof.Machine.execFatalFault a b c s
  | .lockstepMismatch => Sys2Proof.Machine.execLockstepMismatch s
  | .dumpWriteDone => Sys2Proof.Machine.execDumpWriteDone s
  | .dumpCopyDone => Sys2Proof.Machine.execDumpCopyDone s
  | .dumpAck a => Sys2Proof.Machine.execDumpAck a s
  | .haltAutoReset => Sys2Proof.Machine.execHaltAutoReset s
  | .haltAutoHourEnd => Sys2Proof.Machine.execHaltAutoHourEnd s
  | .scrubGranule a b => Sys2Proof.Machine.execScrubGranule a b s
  | .eccBucketLeak a => Sys2Proof.Machine.execEccBucketLeak a s
  | .scrubSlow a => Sys2Proof.Machine.execScrubSlow a s
  | .cvuSubmit a b c => Sys2Proof.Machine.execCvuSubmit a b c s
  | .cvuJobDone a => Sys2Proof.Machine.execCvuJobDone a s
  | .cvuContextWrite a b c => Sys2Proof.Machine.execCvuContextWrite a b c s
  | .cfgMasterCheck => Sys2Proof.Machine.execCfgMasterCheck s
  | .cfgMasterRepair => Sys2Proof.Machine.execCfgMasterRepair s
  | .faultSpanEnd a b c => Sys2Proof.Machine.execFaultSpanEnd a b c s
  | .converterStuck a => Sys2Proof.Machine.execConverterStuck a s
  | .chQuarantine a b => Sys2Proof.Machine.execChQuarantine a b s
  | .chRelease a b => Sys2Proof.Machine.execChRelease a b s
  | .chQuarantineApply a => Sys2Proof.Machine.execChQuarantineApply a s
  | .selftestStart a b => Sys2Proof.Machine.execSelftestStart a b s
  | .selftestPartitionDone a b => Sys2Proof.Machine.execSelftestPartitionDone a b s
  | .singleEventUpset a => Sys2Proof.Machine.execSingleEventUpset a s
  | .appPoisonStop => Sys2Proof.Machine.execAppPoisonStop s
  | .temperatureComparatorTrip a => Sys2Proof.Machine.execTemperatureComparatorTrip a s
  | .fuseBurnDone => Sys2Proof.Machine.execFuseBurnDone s
  | .netLinkStateChange a => Sys2Proof.Machine.execNetLinkStateChange a s
  | .arpRequest a b c => Sys2Proof.Machine.execArpRequest a b c s
  | .readerPllLock a => Sys2Proof.Machine.execReaderPllLock a s

end Sys2Proof.Machine
end

