-- ==== Sys2Proof/Safety.lean ====
section
/-! DEFINITION. The terms that claims use: when an engine takes an instruction, what an instruction may change, and what a
command answers. -/

namespace Sys2Proof.Machine

/-! ### Outcomes -/

/-- The outcome is a next state of which `P` holds. -/
def goes (o : Host.Outcome State Fault Refusal) (P : State → Prop) : Prop := ∃ t, o = .next t ∧ P t

/-! ### Engine instructions (09) -/

/-- Engine `k` is `RUNNING` in its handler, not stalled, and the word at its program counter is `w`, which is an instruction of
row `kind`, carries no poison mark, executes by its predicate and retires within `cost` cycles (one at least) before the cut-off. -/
def takes (s : State) (k : Nat) (kind : EK) (w cost : Nat) : Bool :=
  s.engReady k && decide ((s.eng k).pc ≤ 16383) && decide (s.engWord k = w) &&
    decide (engDecode (s.eng k).pc w = some kind) && !s.poisoned (imemAddr k (s.eng k).pc) 4 && s.engExecutes k w &&
    decide ((s.eng k).cyc < 1792 ∧ (s.eng k).cyc + cost ≤ 1792)

/-- The register files have their sizes (09 R196). -/
def engShape (s : State) (k : Nat) : Bool :=
  decide ((s.eng k).g.length = 16) && decide ((s.eng k).v.length = 64) && decide ((s.eng k).p.length = 4)

/-- Nothing but engine `k` differs. -/
def onlyEng (s t : State) (k : Nat) : Prop := t = { s with engs := t.engs } ∧ ∀ j, j ≠ k → t.eng j = s.eng j

/-- What an instruction of `cost` cycles that only writes registers leaves alone: everything outside engine `k`, and in it
the queues and the staged outputs; the program counter goes on to the next word when no loop is active. -/
def engKeeps (s t : State) (k cost : Nat) : Prop :=
  onlyEng s t k ∧ (t.eng k).cyc = (s.eng k).cyc + cost ∧
  ((s.eng k).lc0.count = 0 → (s.eng k).lc1.count = 0 → (t.eng k).pc = (s.eng k).pc + 1) ∧
  t.eng k = { s.eng k with g := (t.eng k).g, v := (t.eng k).v, p := (t.eng k).p, pc := (t.eng k).pc,
                           lc0 := (t.eng k).lc0, lc1 := (t.eng k).lc1, cyc := (t.eng k).cyc }

/-- General registers other than `d` are unchanged. -/
def keepsG (s t : State) (k d : Nat) : Prop := ∀ i, i ≠ d → t.gr k i = s.gr k i

/-- An instruction that writes the general register its `A` field names: the value has `P`, and nothing else changes. -/
def writesG (s : State) (o : Out) (k w cost : Nat) (P : Word → Prop) : Prop :=
  goes o fun t => P (t.gr k (EngW.a w)) ∧ keepsG s t k (EngW.a w) ∧ (t.eng k).v = (s.eng k).v ∧
    (t.eng k).p = (s.eng k).p ∧ engKeeps s t k cost

/-- An instruction that writes the vector register its `A` field names, lane by lane. -/
def writesV (s : State) (o : Out) (k w cost : Nat) (P : Nat → Word → Prop) : Prop :=
  goes o fun t => (∀ i, i < 8 → P i (t.vr k (EngW.a w) i)) ∧ (∀ r i, i < 8 → r ≠ EngW.a w → t.vr k r i = s.vr k r i) ∧
    (t.eng k).g = (s.eng k).g ∧ (t.eng k).p = (s.eng k).p ∧ engKeeps s t k cost

/-- An instruction that writes the predicate its `A` field names. -/
def writesP (s : State) (o : Out) (k w cost : Nat) (b : Bool) : Prop :=
  goes o fun t => t.pr k (EngW.a w) = b ∧ (∀ i, i ≠ EngW.a w → t.pr k i = s.pr k i) ∧ (t.eng k).g = (s.eng k).g ∧
    (t.eng k).v = (s.eng k).v ∧ engKeeps s t k cost

/-- An instruction that changes engine `k` by `f`, and nothing else but its program counter, loop counters and handler
count. -/
def engDoes (s : State) (o : Out) (k cost : Nat) (f : Eng → Eng) : Prop :=
  goes o fun t => onlyEng s t k ∧ (t.eng k).cyc = (s.eng k).cyc + cost ∧
    ((s.eng k).lc0.count = 0 → (s.eng k).lc1.count = 0 → (t.eng k).pc = (s.eng k).pc + 1) ∧
    t.eng k = { f (s.eng k) with pc := (t.eng k).pc, lc0 := (t.eng k).lc0, lc1 := (t.eng k).lc1, cyc := (t.eng k).cyc }

/-- The command that has engine `k` take an instruction of a row. -/
def engRow (kind : EK) (k : Se) : Instr :=
  match kind with
  | .add => .add k | .sub => .sub k | .adds => .adds k | .subs => .subs k | .addi => .addi k | .mul => .mul k
  | .min => .min k | .max => .max k | .rcp => .rcp k | .sqrt => .sqrt k | .fcvt => .fcvt k | .and => .and k
  | .or => .or k | .xor => .xor k | .clz => .clz k | .bext => .bext k | .bins => .bins k | .shl => .shl k
  | .shr => .shr k | .sar => .sar k | .li => .li k | .lih => .lih k | .cmp => .cmp k | .cmpi => .cmpi k
  | .pand => .pand k | .por => .por k | .pxor => .pxor k | .pandn => .pandn k | .pset => .pset k | .pclr => .pclr k
  | .rdp => .rdp k | .wrp => .wrp k | .ld => .ld k | .st => .st k | .vld => .vld k | .vst => .vst k
  | .vadd => .vadd k | .vsub => .vsub k | .vmin => .vmin k | .vmax => .vmax k | .vmul => .vmul k | .vand => .vand k
  | .vor => .vor k | .vxor => .vxor k | .vshl => .vshl k | .vshr => .vshr k | .vsar => .vsar k | .vcmp => .vcmp k
  | .vsplat => .vsplat k | .vext => .vext k | .vins => .vins k | .vredAdd => .vredAdd k | .vredMax => .vredMax k
  | .vredMin => .vredMin k | .vpowB => .vpowB k | .vpowH => .vpowH k | .cld => .cld k | .cwr => .cwr k
  | .ccmdHold => .ccmdHold k | .ccmdRelease => .ccmdRelease k | .ccmdMask => .ccmdMask k
  | .ccmdUnmask => .ccmdUnmask k | .ccmdReseed => .ccmdReseed k | .cvb => .cvb k | .bwx => .bwx k | .bwc => .bwc k
  | .brx => .brx k | .brc => .brc k | .trig => .trig k | .meas => .meas k | .send => .send k | .recv => .recv k
  | .br => .br k | .jal => .jal k | .jr => .jr k | .loop => .loop k | .loopi => .loopi k | .yield => .yield k
  | .wait => .wait k | .rdcyc => .rdcyc k

/-- The source registers of a word in engine `k`. -/
def srcA (s : State) (k w : Nat) : Word := s.gr k (EngW.b w)
/-- The second source. -/
def srcB (s : State) (k w : Nat) : Word := s.gr k (EngW.c w)

/-- A signed value limited to 32 bits (09 R200). -/
def limited (v : Int) : Word := BitVec.ofInt 32 (max (-(2 ^ 31)) (min (2 ^ 31 - 1) v))

/-! ### Writes of one object (17 R395, R407) -/

/-- A write of one object by a role that the module serves and every check of 17 R395 passes. -/
def accepts (s : State) (r : Role) (addr : ObjAddr) (value : List Byte) : Bool :=
  s.serves &&
    match s.decodeItem r.code false { addr, value } with
    | .ok d => s.lateSteps (viewOf [d]) 1 [] d == St.OK
    | .error _ => false

/-- The last answer is of a status. -/
def answered (t : State) (status : Nat) : Prop := ∃ a, t.sdp.answer = some a ∧ a.status = status

/-- The write was accepted as a long action of a number, which is not 0 (17 R408). -/
def started (t : State) (action : Nat) : Prop :=
  action ≠ 0 ∧ ∃ a, t.sdp.answer = some a ∧ a.status = St.OK ∧ a.action = action

/-- The newest event of the ring has a code. -/
def newestIs (t : State) (code : Nat) : Prop := ∃ e l, t.sdp.ring = e :: l ∧ e.code = code

/-- The newest event of the ring ends an action with a status (17 R408, R416). -/
def actionEnds (t : State) (action status : Nat) : Prop :=
  ∃ e l, t.sdp.ring = e :: l ∧ e.code = 0xD001 ∧ e.arg = argBytes (leBytes 4 action ++ leBytes 1 status)

/-! ### Requests of the dictionary protocol (17 R399-R404) -/

/-- Session `x` is open and takes up a request of an opcode and body: the module serves, the request comes from the session's own
source under a matching `MAC`, its number rises, and its length is its opcode's. -/
def sessionTakes (s : State) (h : SdpHdr) (op : Nat) (body : List Byte) (x : Session) : Prop :=
  s.serves = true ∧ s.session h.session = some x ∧ x.isOpen = true ∧ x.src = h.src ∧ h.resp = false ∧ h.lengthOk = true ∧
  (x.kept.find? fun e => e.1 == h.reqId && e.2.1 == h.mac) = none ∧ reqRises x.lastReq h.reqId = true ∧
  bodyOk op body = true ∧ s.sdp.jobs.length < 32 ∧
  h.mac = BitVec.ofNat 64 (leNat (macBytes (s.sessionKey x) (rowReq h op body).hdr body))

/-- The state with a request of session `x` noted: its number and its time (17 R404, R405). -/
def noted (s : State) (h : SdpHdr) (x : Session) : State :=
  s.setSession x.num fun y => { y with lastReq := some h.reqId, since := s.clk.ord }

/-- The response that left last answers a request of session `x`, under its key (17 R399, R403). -/
def replied (s t : State) (h : SdpHdr) (x : Session) (op status : Nat) (body : List Byte) : Prop :=
  ∃ r, t.sdp.reply = some r ∧ r.opcode = op ∧ r.status = status ∧ r.session = x.num ∧ r.reqId = h.reqId ∧ r.body = body ∧
    r.mac = macBytes (s.sessionKey x) (hdrBytes r.tick h.reqId.toNat body.length x.num status true op) body

/-- A response without a key (17 R403). -/
def plainly (t : State) (op session status : Nat) (body : List Byte) : Prop :=
  ∃ r, t.sdp.reply = some r ∧ r.opcode = op ∧ r.session = session ∧ r.status = status ∧ r.body = body ∧
    r.mac = List.replicate 8 0

/-- Nothing but the dictionary protocol and the queues of the link, with their bytes' marks, differ. -/
def onlySdp (s t : State) : Prop := t = { s with sdp := t.sdp, fr := t.fr, poison := t.poison }

/-! ### Frames -/

/-- Memory and its poison marks are in canonical form. -/
def State.memoryOk (s : State) : Bool := Memory.wf s.mem && smWf false s.poison

/-- Every byte of memory reads as before. -/
def keepsMem (s t : State) : Prop := ∀ a, t.byte a = s.byte a

/-- Every dictionary value that is not of the objects listed reads as before. -/
def keepsVals (s t : State) (l : List ObjDef) : Prop :=
  ∀ (o : ObjDef) (e sub : Nat), (∀ p ∈ l, keyIdx (key o e sub) ≠ p.idx) → t.val o e sub = s.val o e sub

end Sys2Proof.Machine
end

