-- ==== Sys2Proof/Certificates/Slice0/Obligations.lean ====
section
/-! DEFINITION. The statements for the provers: what the commands do, said of `Sys2Proof.Machine.exec` and
`Sys2Proof.Machine.step`, from the numbered rules of the spec. -/

open Sys2Proof Sys2Proof.Machine

/-! ### The stream engines (08, 09) -/

/-- 09 R200: the arithmetic instructions on general registers, with their cycles; every other register of the engine, its queues and
staged outputs, and everything outside the engine stay. 09 R200: the logic, bit-field, shift and constant instructions. -/
def Obligations.EngineScalarInstructions : Prop :=
  (∀ (s : State) (k : Se) (w : Nat), engShape s k = true →
      let a := srcA s k w
      let b := srcB s k w
      (takes s k .add w 1 = true → writesG s (exec (.add k) s) k w 1 (· = a + b)) ∧
      (takes s k .sub w 1 = true → writesG s (exec (.sub k) s) k w 1 (· = a - b)) ∧
      (takes s k .adds w 1 = true → writesG s (exec (.adds k) s) k w 1 (· = limited (a.toInt + b.toInt))) ∧
      (takes s k .subs w 1 = true → writesG s (exec (.subs k) s) k w 1 (· = limited (a.toInt - b.toInt))) ∧
      (takes s k .addi w 1 = true →
        writesG s (exec (.addi k) s) k w 1 (· = a + (BitVec.ofNat 15 (EngW.imm w)).signExtend 32)) ∧
      (takes s k .mul w 2 = true → writesG s (exec (.mul k) s) k w 2 (· = a * b)) ∧
      (takes s k .min w 1 = true → writesG s (exec (.min k) s) k w 1 (fun r => r.toInt = min a.toInt b.toInt)) ∧
      (takes s k .max w 1 = true → writesG s (exec (.max k) s) k w 1 (fun r => r.toInt = max a.toInt b.toInt)) ∧
      (takes s k .rcp w 6 = true → writesG s (exec (.rcp k) s) k w 6
        (fun r => r.toNat = if a.toNat ≤ 1 then 0xFFFFFFFF else 2 ^ 32 / a.toNat)) ∧
      (takes s k .sqrt w 6 = true → writesG s (exec (.sqrt k) s) k w 6 (fun r => r.toNat = Nat.sqrt (a.toNat * 2 ^ 16))) ∧
      (takes s k .fcvt w 1 = true → writesG s (exec (.fcvt k) s) k w 1 (· = fcvtWord a (EngW.bits w 4 0)))) ∧
  (∀ (s : State) (k : Se) (w : Nat), engShape s k = true →
      let d := s.gr k (EngW.a w)
      let a := srcA s k w
      let b := srcB s k w
      let n := if w.testBit 10 then EngW.bits w 4 0 else b.toNat % 32
      let pos := EngW.bits w 9 5
      let len := EngW.bits w 4 0 + 1
      (takes s k .and w 1 = true → writesG s (exec (.and k) s) k w 1 (· = a &&& b)) ∧
      (takes s k .or w 1 = true → writesG s (exec (.or k) s) k w 1 (· = a ||| b)) ∧
      (takes s k .xor w 1 = true → writesG s (exec (.xor k) s) k w 1 (· = a ^^^ b)) ∧
      (takes s k .clz w 1 = true → writesG s (exec (.clz k) s) k w 1 (fun r =>
        r.toNat ≤ 32 ∧ a.toNat < 2 ^ (32 - r.toNat) ∧ (r.toNat < 32 → 2 ^ (31 - r.toNat) ≤ a.toNat))) ∧
      (takes s k .bext w 1 = true → writesG s (exec (.bext k) s) k w 1 (fun r =>
        ∀ i, i < 32 → r.getLsbD i = (decide (i < len) && a.getLsbD (pos + i)))) ∧
      (takes s k .bins w 1 = true → writesG s (exec (.bins k) s) k w 1 (fun r =>
        ∀ i, i < 32 → r.getLsbD i = if pos ≤ i ∧ i < pos + len then a.getLsbD (i - pos) else d.getLsbD i)) ∧
      (takes s k .shl w 1 = true → writesG s (exec (.shl k) s) k w 1 (· = a <<< n)) ∧
      (takes s k .shr w 1 = true → writesG s (exec (.shr k) s) k w 1 (· = a >>> n)) ∧
      (takes s k .sar w 1 = true → writesG s (exec (.sar k) s) k w 1 (· = a.sshiftRight n)) ∧
      (takes s k .li w 1 = true → writesG s (exec (.li k) s) k w 1 (· = (BitVec.ofNat 16 (EngW.imm16 w)).signExtend 32)) ∧
      (takes s k .lih w 1 = true → writesG s (exec (.lih k) s) k w 1
        (· = BitVec.ofNat 16 (EngW.imm16 w) ++ d.extractLsb' 0 16)))

/-- 09 R201: the comparisons and the predicate instructions. -/
def Obligations.EnginePredicates : Prop :=
  ∀ (s : State) (k : Se) (w : Nat), engShape s k = true →
    let a := srcA s k w
    let b := srcB s k w
    let imm := (BitVec.ofNat 12 (EngW.bits w 11 0)).signExtend 32
    let pa := s.pr k (EngW.b w)
    let pb := s.pr k (EngW.c w)
    let cc (n : Nat) (x y : Word) : Bool :=
      match n with
      | 0 => x == y | 1 => x != y | 2 => x.slt y | 3 => y.sle x | 4 => x.ult y | _ => y.ule x
    (takes s k .cmp w 1 = true → writesP s (exec (.cmp k) s) k w 1 (cc (EngW.bits w 2 0) a b)) ∧
    (takes s k .cmpi w 1 = true → writesP s (exec (.cmpi k) s) k w 1 (cc (EngW.bits w 14 12) a imm)) ∧
    (takes s k .pand w 1 = true → writesP s (exec (.pand k) s) k w 1 (pa && pb)) ∧
    (takes s k .por w 1 = true → writesP s (exec (.por k) s) k w 1 (pa || pb)) ∧
    (takes s k .pxor w 1 = true → writesP s (exec (.pxor k) s) k w 1 (pa ^^ pb)) ∧
    (takes s k .pandn w 1 = true → writesP s (exec (.pandn k) s) k w 1 (pa && !pb)) ∧
    (takes s k .pset w 1 = true → writesP s (exec (.pset k) s) k w 1 true) ∧
    (takes s k .pclr w 1 = true → writesP s (exec (.pclr k) s) k w 1 false) ∧
    (takes s k .rdp w 1 = true → writesG s (exec (.rdp k) s) k w 1 (fun r =>
      ∀ i, i < 32 → r.getLsbD i = (decide (i < 4) && s.pr k i))) ∧
    (takes s k .wrp w 1 = true → goes (exec (.wrp k) s) fun t =>
      (∀ i, i < 4 → t.pr k i = a.getLsbD i) ∧ (t.eng k).g = (s.eng k).g ∧ (t.eng k).v = (s.eng k).v ∧
      engKeeps s t k 1)

/-- 09 R204: the vector instructions, lane by lane. -/
def Obligations.EngineVectors : Prop :=
  ∀ (s : State) (k : Se) (w : Nat), engShape s k = true →
    let va (i : Nat) : Word := s.vr k (EngW.b w) i
    let vb (i : Nat) : Word := s.vr k (EngW.c w) i
    let n := EngW.bits w 4 0
    let lane := EngW.bits w 2 0
    let cc (n : Nat) (x y : Word) : Bool :=
      match n with
      | 0 => x == y | 1 => x != y | 2 => x.slt y | 3 => y.sle x | 4 => x.ult y | _ => y.ule x
    (takes s k .vadd w 1 = true → writesV s (exec (.vadd k) s) k w 1 fun i r => r = va i + vb i) ∧
    (takes s k .vsub w 1 = true → writesV s (exec (.vsub k) s) k w 1 fun i r => r = va i - vb i) ∧
    (takes s k .vmin w 1 = true → writesV s (exec (.vmin k) s) k w 1 fun i r => r.toInt = min (va i).toInt (vb i).toInt) ∧
    (takes s k .vmax w 1 = true → writesV s (exec (.vmax k) s) k w 1 fun i r => r.toInt = max (va i).toInt (vb i).toInt) ∧
    (takes s k .vmul w 2 = true → writesV s (exec (.vmul k) s) k w 2 fun i r => r = va i * vb i) ∧
    (takes s k .vand w 1 = true → writesV s (exec (.vand k) s) k w 1 fun i r => r = va i &&& vb i) ∧
    (takes s k .vor w 1 = true → writesV s (exec (.vor k) s) k w 1 fun i r => r = va i ||| vb i) ∧
    (takes s k .vxor w 1 = true → writesV s (exec (.vxor k) s) k w 1 fun i r => r = va i ^^^ vb i) ∧
    (takes s k .vshl w 1 = true → writesV s (exec (.vshl k) s) k w 1 fun i r => r = va i <<< n) ∧
    (takes s k .vshr w 1 = true → writesV s (exec (.vshr k) s) k w 1 fun i r => r = va i >>> n) ∧
    (takes s k .vsar w 1 = true → writesV s (exec (.vsar k) s) k w 1 fun i r => r = (va i).sshiftRight n) ∧
    (takes s k .vcmp w 1 = true → writesG s (exec (.vcmp k) s) k w 1 fun r =>
      ∀ i, i < 32 → r.getLsbD i = (decide (i < 8) && cc lane (va i) (vb i))) ∧
    (takes s k .vsplat w 1 = true → writesV s (exec (.vsplat k) s) k w 1 fun _ r => r = srcA s k w) ∧
    (takes s k .vext w 1 = true → writesG s (exec (.vext k) s) k w 1 (· = va lane)) ∧
    (takes s k .vins w 1 = true → writesV s (exec (.vins k) s) k w 1 fun i r =>
      r = if i = lane then srcA s k w else s.vr k (EngW.a w) i) ∧
    (takes s k .vredAdd w 1 = true → writesG s (exec (.vredAdd k) s) k w 1
      (· = va 0 + va 1 + va 2 + va 3 + va 4 + va 5 + va 6 + va 7)) ∧
    (takes s k .vredMax w 1 = true → writesG s (exec (.vredMax k) s) k w 1 fun r =>
      (∀ i, i < 8 → (va i).toInt ≤ r.toInt) ∧ ∃ i, i < 8 ∧ r = va i) ∧
    (takes s k .vredMin w 1 = true → writesG s (exec (.vredMin k) s) k w 1 fun r =>
      (∀ i, i < 8 → r.toInt ≤ (va i).toInt) ∧ ∃ i, i < 8 ∧ r = va i) ∧
    (takes s k .vpowB w 1 = true → writesV s (exec (.vpowB k) s) k w 1 fun i r =>
      (r.toNat : Int) = ((va i).extractLsb' 8 8).toInt ^ 2 + ((va i).extractLsb' 0 8).toInt ^ 2) ∧
    (takes s k .vpowH w 1 = true → writesV s (exec (.vpowH k) s) k w 1 fun i r =>
      (r.toNat : Int) = ((va i).extractLsb' 16 16).toInt ^ 2 + ((va i).extractLsb' 0 16).toInt ^ 2)

/-- 09 R197, R200-R211: encoding the fields of a well-formed instruction and decoding the word gives the instruction and the fields
back. -/
def Obligations.EngineWordsDecodeAndEncodeAgree : Prop :=
  ∀ (pc : Nat) (i : EngIns), i.wf pc = true → engDecode pc i.encode = some i.kind ∧ EngIns.ofWord i.kind i.encode = i

/-- 09 R202, R203, R214: a load inside one range of the address space, aligned and unpoisoned, writes the bytes read, extended as
`SIZE` says. 09 R202, R203: a store inside data memory writes the low bytes of its source, least-significant first, at the address
its form computes, and every byte outside them reads as before; the registers, the queues and everything else but memory and
poison marks stay. -/
def Obligations.EngineLoadsAndStores : Prop :=
  (∀ (s : State) (k : Se) (w : Nat), engShape s k = true →
      let a := s.engAddr k w
      let ok (n : Nat) : Prop := engInRange a n false = true ∧ a % n = 0 ∧ s.engPoisoned k a n = false
      (takes s k .ld w 1 = true →
        (EngW.size w = 0 → ok 4 → writesG s (exec (.ld k) s) k w 1 (·.toNat = s.engRead k a 4)) ∧
        (EngW.size w = 1 → ok 2 →
          writesG s (exec (.ld k) s) k w 1 (· = (BitVec.ofNat 16 (s.engRead k a 2)).signExtend 32)) ∧
        (EngW.size w = 2 → ok 2 → writesG s (exec (.ld k) s) k w 1 (·.toNat = s.engRead k a 2)) ∧
        (EngW.size w = 3 → ok 1 → writesG s (exec (.ld k) s) k w 1 (·.toNat = s.engRead k a 1))) ∧
      (takes s k .vld w 1 = true →
        (EngW.size w = 0 → ok 32 → writesV s (exec (.vld k) s) k w 1 fun j r => r.toNat = s.engRead k (a + 4 * j) 4) ∧
        (EngW.size w = 1 → ok 16 → writesV s (exec (.vld k) s) k w 1 fun j r =>
          r = (BitVec.ofNat 16 (s.engRead k (a + 2 * j) 2)).signExtend 32) ∧
        (EngW.size w = 2 → ok 16 → writesV s (exec (.vld k) s) k w 1 fun j r => r.toNat = s.engRead k (a + 2 * j) 2))) ∧
  (∀ (s : State) (k : Se) (w : Nat),
      let a := s.engAddr k w
      let st (o : Host.Outcome State Fault Refusal) (n len : Nat) (src : Nat → Word) : Prop :=
        goes o fun t =>
          (∀ j i, j * n < len → i < n → t.byte (dmemAddr k (a + j * n + i)) = (src j).extractLsb' (8 * i) 8) ∧
          (∀ x, (x < dmemAddr k a ∨ dmemAddr k a + len ≤ x) → t.byte x = s.byte x) ∧
          t = { s with engs := t.engs, mem := t.mem, poison := t.poison } ∧ (∀ j, j ≠ k.val → t.eng j = s.eng j) ∧
          t.eng k = { s.eng k with pc := (t.eng k).pc, lc0 := (t.eng k).lc0, lc1 := (t.eng k).lc1,
                                   cyc := (s.eng k).cyc + 1 }
      let ok (n : Nat) : Prop := engInRange a n true = true ∧ a % n = 0
      (takes s k .st w 1 = true →
        (EngW.size w = 0 → ok 4 → st (exec (.st k) s) 4 4 fun _ => s.gr k (EngW.a w)) ∧
        (EngW.size w = 1 → ok 2 → st (exec (.st k) s) 2 2 fun _ => s.gr k (EngW.a w)) ∧
        (EngW.size w = 2 → ok 1 → st (exec (.st k) s) 1 1 fun _ => s.gr k (EngW.a w))) ∧
      (takes s k .vst w 1 = true →
        (EngW.size w = 0 → ok 32 → st (exec (.vst k) s) 4 32 fun j => s.vr k (EngW.a w) j) ∧
        (EngW.size w = 1 → ok 16 → st (exec (.vst k) s) 2 16 fun j => s.vr k (EngW.a w) j)))

/-- 09 R205, R207: the context port. A read gives the context as the staged operations would leave it; a write or command is staged in
program order and changes no register. 09 R208: the beam port. A write stages one word of a mask and leaves the other staged
words; a read returns the word staged in the present handler, else the one in force. -/
def Obligations.EnginePorts : Prop :=
  (∀ (s : State) (k : Se) (w : Nat), engShape s k = true →
      let c := (srcA s k w).toNat
      let stages (o : Host.Outcome State Fault Refusal) (op : CtxOp) : Prop :=
        engDoes s o k 1 fun x => { x with ops := x.ops ++ [op] }
      (takes s k .cld w 2 = true → c ≤ 2047 → s.ctxPoisoned k c = false → goes (exec (.cld k) s) fun t =>
        (∀ i, i < 4 → t.gr k (EngW.a w + i) = BitVec.ofNat 32 ((s.ctxSeen k c).word / 2 ^ (32 * i))) ∧
        (∀ r, (r < EngW.a w ∨ EngW.a w + 4 ≤ r) → t.gr k r = s.gr k r) ∧ (t.eng k).v = (s.eng k).v ∧
        (t.eng k).p = (s.eng k).p ∧ engKeeps s t k 2) ∧
      (takes s k .cwr w 1 = true → c ≤ 2047 → stages (exec (.cwr k) s)
        (.cwr c (EngW.bits w 3 0) (s.gr k (EngW.a w + 1)) (s.gr k (EngW.a w + 2)) (s.gr k (EngW.a w + 3)))) ∧
      (takes s k .ccmdHold w 1 = true → c ≤ 2047 → stages (exec (.ccmdHold k) s) (.cmd c 1)) ∧
      (takes s k .ccmdRelease w 1 = true → c ≤ 2047 → stages (exec (.ccmdRelease k) s) (.cmd c 2)) ∧
      (takes s k .ccmdMask w 1 = true → c ≤ 2047 → stages (exec (.ccmdMask k) s) (.cmd c 3)) ∧
      (takes s k .ccmdUnmask w 1 = true → c ≤ 2047 → stages (exec (.ccmdUnmask k) s) (.cmd c 4)) ∧
      (takes s k .ccmdReseed w 1 = true → c ≤ 2047 → stages (exec (.ccmdReseed k) s) (.cmd c 5)) ∧
      (takes s k .cvb w 2 = true → c ≤ 255 → (∀ i, i < 8 → s.ctxPoisoned k (8 * c + i) = false) →
        writesV s (exec (.cvb k) s) k w 2 fun i r => r = BitVec.ofNat 32 (s.ctxSeen k (8 * c + i)).baseline)) ∧
  (∀ (s : State) (k : Se) (w : Nat), engShape s k = true →
      let n := (srcB s k w).toNat % 8
      let word (m : SMap Nat) (j : Nat) : Option Nat := (m.find? fun e => e.1 == j).map (·.2)
      (takes s k .bwx w 1 = true →
        (engDoes s (exec (.bwx k) s) k 1 fun x => { x with bx := stageWord x.bx n (srcA s k w).toNat }) ∧
        ∀ j, word (stageWord (s.eng k).bx n (srcA s k w).toNat) j =
          if j = n then some (srcA s k w).toNat else word (s.eng k).bx j) ∧
      (takes s k .bwc w 1 = true →
        (engDoes s (exec (.bwc k) s) k 1 fun x => { x with bc := stageWord x.bc n (srcA s k w).toNat }) ∧
        ∀ j, word (stageWord (s.eng k).bc n (srcA s k w).toNat) j =
          if j = n then some (srcA s k w).toNat else word (s.eng k).bc j) ∧
      (takes s k .brx w 1 = true → (∀ e ∈ (s.eng k).bx, e.2 < 2 ^ 32) → writesG s (exec (.brx k) s) k w 1 fun r =>
        r.toNat = (word (s.eng k).bx n).getD (maskWord (s.sl k).exclude n)) ∧
      (takes s k .brc w 1 = true → (∀ e ∈ (s.eng k).bc, e.2 < 2 ^ 32) → writesG s (exec (.brc k) s) k w 1 fun r =>
        r.toNat = (word (s.eng k).bc n).getD (maskWord (s.sl k).chanMask n)))

/-- 09 R209: the emissions and messages on success, and a failure that stages nothing and clears the predicate. 09 R213, 18 R432:
`recv` of a message that carries a poison mark raises poisoned data. -/
def Obligations.EngineEmissions : Prop :=
  ∀ (s : State) (k : Se) (w : Nat), engShape s k = true →
    let d := EngW.a w
    let a := srcA s k w
    let hi := s.gr k (EngW.b w + 1)
    let m := s.vrAll k (EngW.b w)
    let p (x : Eng) (b : Bool) : Eng := { x with p := modNth x.p d fun _ => b }
    (takes s k .trig w 1 = true → (s.eng k).trigs.length < 4 → a.toNat % 2 ^ 13 = 0 →
      engDoes s (exec (.trig k) s) k 1 fun x => { p x true with trigs := x.trigs ++ [a] }) ∧
    (takes s k .trig w 1 = true → (4 ≤ (s.eng k).trigs.length ∨ a.toNat % 2 ^ 13 ≠ 0) →
      goes (exec (.trig k) s) fun t => t.pr k d = false ∧ (t.eng k).trigs = (s.eng k).trigs ∧
        t.val Obj.ENG_TRIG_DROP_COUNT k = (s.val Obj.ENG_TRIG_DROP_COUNT k + 1) % 2 ^ 32) ∧
    (takes s k .meas w 1 = true → (s.eng k).meas.length < 8 → hi.extractLsb' 16 3 = 0 →
      0x80 ≤ (hi.extractLsb' 8 8).toNat →
      engDoes s (exec (.meas k) s) k 1 fun x => { p x true with meas := x.meas ++ [hi ++ a] }) ∧
    (takes s k .send w 1 = true → (s.eng k).msgs.length < 8 → msgLen m ≤ 28 → msgKind m ≤ 0x8F →
      engDoes s (exec (.send k) s) k 1 fun x => { p x true with msgs := x.msgs ++ [m] }) ∧
    (takes s k .meas w 1 = true →
      (8 ≤ (s.eng k).meas.length ∨ hi.extractLsb' 16 3 ≠ 0 ∨ (hi.extractLsb' 8 8).toNat < 0x80) →
      goes (exec (.meas k) s) fun t => t.pr k d = false ∧ (t.eng k).meas = (s.eng k).meas ∧
        t.val Obj.ENG_MEAS_DROP_COUNT k = (s.val Obj.ENG_MEAS_DROP_COUNT k + 1) % 2 ^ 32) ∧
    (takes s k .send w 1 = true → (8 ≤ (s.eng k).msgs.length ∨ 28 < msgLen m ∨ 0x8F < msgKind m) →
      writesP s (exec (.send k) s) k w 1 false) ∧
    (takes s k .recv w 1 = true → ∀ q r, (s.eng k).inq = q :: r → s.msgPoisoned k = false → goes (exec (.recv k) s) fun t =>
      t.pr k d = true ∧ (∀ i, i < 8 → t.vr k (EngW.b w) i = nth 0 q i) ∧
      (∀ v i, v ≠ EngW.b w → i < 8 → t.vr k v i = s.vr k v i) ∧ (∀ i, i ≠ d → t.pr k i = s.pr k i) ∧ (t.eng k).inq = r ∧
      (t.eng k).g = (s.eng k).g ∧ onlyEng s t k) ∧
    (takes s k .recv w 1 = true → ∀ q r, (s.eng k).inq = q :: r → s.msgPoisoned k = true →
      exec (.recv k) s = .next (s.engException k 4 0)) ∧
    (takes s k .recv w 1 = true → (s.eng k).inq = [] → writesP s (exec (.recv k) s) k w 1 false)

/-- 09 R210-R212: branches, loops and tick control. A taken branch ends the active loops that do not hold its target. -/
def Obligations.EngineFlow : Prop :=
  ∀ (s : State) (k : Se) (w : Nat), engShape s k = true →
    let pc := (s.eng k).pc
    let target := EngW.target w
    let left (l : LoopCtr) (dest : Nat) : LoopCtr := if l.start ≤ dest ∧ dest ≤ l.stop then l else { l with count := 0 }
    let jumps (o : Host.Outcome State Fault Refusal) (dest : Nat) (f : Eng → Eng) : Prop :=
      goes o fun t => onlyEng s t k ∧ t.eng k =
        { f (s.eng k) with pc := dest, cyc := (s.eng k).cyc + 2,
                           lc0 := left (s.eng k).lc0 dest, lc1 := left (s.eng k).lc1 dest }
    let counter (i n : Nat) (x : Eng) : Eng :=
      let l : LoopCtr := { count := n, start := pc + 1, stop := target }
      if i = 0 then { x with lc0 := l, newer := 0 } else { x with lc1 := l, newer := 1 }
    (takes s k .br w 2 = true → jumps (exec (.br k) s) target id) ∧
    (takes s k .jal w 2 = true → jumps (exec (.jal k) s) target fun x =>
      { x with g := modNth x.g (EngW.a w) fun _ => BitVec.ofNat 32 (pc + 1) }) ∧
    (takes s k .jr w 2 = true → (srcA s k w).toNat ≤ 16383 → jumps (exec (.jr k) s) (srcA s k w).toNat id) ∧
    (takes s k .jr w 2 = true → 16383 < (srcA s k w).toNat → exec (.jr k) s = .next (s.engException k 1 0)) ∧
    (takes s k .loop w 2 = true → (s.gr k (EngW.lb w)).toNat = 0 → goes (exec (.loop k) s) fun t =>
      onlyEng s t k ∧ (t.eng k).cyc = (s.eng k).cyc + 2 ∧
      ((s.eng k).lc0.count = 0 → (s.eng k).lc1.count = 0 → (t.eng k).pc = target + 1)) ∧
    (takes s k .loop w 1 = true → (s.gr k (EngW.lb w)).toNat ≠ 0 → goes (exec (.loop k) s) fun t =>
      onlyEng s t k ∧ t.eng k =
        { counter (EngW.lc w) (s.gr k (EngW.lb w)).toNat (s.eng k) with
          pc := (t.eng k).pc, cyc := (s.eng k).cyc + 1, lc0 := (t.eng k).lc0, lc1 := (t.eng k).lc1 } ∧
      (EngW.lc w = 0 → (t.eng k).lc0 = { count := (s.gr k (EngW.lb w)).toNat, start := pc + 1, stop := target }) ∧
      (EngW.lc w = 1 → (t.eng k).lc1 = { count := (s.gr k (EngW.lb w)).toNat, start := pc + 1, stop := target })) ∧
    (takes s k .loopi w 2 = true → EngW.count w = 0 → goes (exec (.loopi k) s) fun t =>
      onlyEng s t k ∧ (t.eng k).cyc = (s.eng k).cyc + 2 ∧
      ((s.eng k).lc0.count = 0 → (s.eng k).lc1.count = 0 → (t.eng k).pc = target + 1)) ∧
    (takes s k .loopi w 1 = true → EngW.count w ≠ 0 → goes (exec (.loopi k) s) fun t =>
      onlyEng s t k ∧ (t.eng k).cyc = (s.eng k).cyc + 1 ∧
      (EngW.lc w = 0 → (t.eng k).lc0 = { count := EngW.count w, start := pc + 1, stop := target }) ∧
      (EngW.lc w = 1 → (t.eng k).lc1 = { count := EngW.count w, start := pc + 1, stop := target })) ∧
    (takes s k .yield w 1 = true → goes (exec (.yield k) s) fun t =>
      (t.eng k).active = false ∧ (t.eng k).yielded = true ∧ t.val Obj.ENG_CYCLES_LAST k = (s.eng k).cyc ∧
      t.val Obj.ENG_CYCLES_MAX k = max (s.val Obj.ENG_CYCLES_MAX k) (s.eng k).cyc ∧
      (t.eng k).g = (s.eng k).g ∧ (t.eng k).v = (s.eng k).v ∧ (t.eng k).p = (s.eng k).p) ∧
    (takes s k .wait w 1 = true → engDoes s (exec (.wait k) s) k 1 fun x =>
      { x with waitTo := if x.cyc < EngW.bits w 10 0 then some (EngW.bits w 10 0) else none }) ∧
    (takes s k .rdcyc w 1 = true → writesG s (exec (.rdcyc k) s) k w 1 (· = BitVec.ofNat 32 (s.eng k).cyc)) ∧
    (∀ n, s.engState k = 3 → (s.eng k).active = true → (s.eng k).waitTo = some n → n < 1792 →
      exec (.engWaitEnd k) s = .next (s.setEng k fun x => { x with waitTo := none, cyc := n + 1 }))

/-- 09 R198: an instruction always executes with `PRED` = 0, and with `PRED` = 1 to 4 only when that predicate is 1; `PRED` = 5 to 7
is illegal. A legal instruction that does not execute takes one cycle and changes no register, memory or port, whatever marks its word
carries; it still counts as a loop end. -/
def Obligations.EngineClearedPredicateSkips : Prop :=
  (∀ pc w : Nat, 5 ≤ EngW.pred w → engDecode pc w = none) ∧
  (∀ (s : State) (k : Se) (w : Nat), (EngW.pred w = 0 → s.engExecutes k w = true) ∧
    (EngW.pred w ≠ 0 → s.engExecutes k w = s.pr k (EngW.pred w - 1))) ∧
  ∀ (s : State) (k : Se) (w : Nat) (kind : EK), s.engReady k = true → (s.eng k).pc ≤ 16383 → s.engWord k = w →
    engDecode (s.eng k).pc w = some kind → EngW.pred w ≠ 0 → s.pr k (EngW.pred w - 1) = false → (s.eng k).cyc < 1792 →
    exec (engRow kind k) s = .next (s.setEng k fun x =>
      { (x.loopEnd x.pc (x.pc + 1)).1 with pc := (x.loopEnd x.pc (x.pc + 1)).2, cyc := x.cyc + 1 })

/-- 08 R183, R184, R195; 09 R213: an illegal word before the cut-off stops the engine at once, whatever its predicate: the engine is
`QUARANTINED` with cause 1 recorded, its staged outputs are discarded, and its registers and memory stay. 08 R181: at the cut-off
nothing more retires, whatever the word is. 09 R203, R213: a load or store that leaves
the ranges of the address space raises bounds before misalignment, and either before poison; each records its cause and the data
address and quarantines the engine. 09 R205, R213: so does a context number beyond the contexts, and poison in a context read. -/
def Obligations.EngineExceptions : Prop :=
  (∀ (s : State) (k : Se) (kind : EK), s.engReady k = true → 1792 ≤ (s.eng k).cyc → exec (engRow kind k) s = .next s) ∧
  (∀ (s : State) (k : Se) (kind : EK), s.engReady k = true → (s.eng k).cyc < 1792 →
      (16383 < (s.eng k).pc ∨ engDecode (s.eng k).pc (s.engWord k) = none) →
      goes (exec (engRow kind k) s) fun t =>
        t.val Obj.ENG_STATE k = 4 ∧ (t.eng k).active = false ∧ (t.eng k).ops = [] ∧ (t.eng k).trigs = [] ∧
        (t.eng k).meas = [] ∧ (t.eng k).msgs = [] ∧ (t.eng k).g = (s.eng k).g ∧ (t.eng k).v = (s.eng k).v ∧
        (t.eng k).p = (s.eng k).p ∧ (t.blob Obj.ENG_EXC_INFO k).take 1 = [1] ∧
        ∀ a, a < 2 ^ 40 → t.byte (2 * 2 ^ 40 + a) = s.byte (2 * 2 ^ 40 + a)) ∧
  (∀ (s : State) (k : Se) (w : Nat),
      let a := s.engAddr k w
      let raises (o : Host.Outcome State Fault Refusal) (cause : Nat) : Prop :=
        o = .next (s.engException k cause a)
      let order (o : Host.Outcome State Fault Refusal) (n : Nat) (store : Bool) : Prop :=
        (engInRange a n store = false → raises o 3) ∧
        (engInRange a n store = true → a % n ≠ 0 → raises o 2) ∧
        (engInRange a n store = true → a % n = 0 → store = false → s.engPoisoned k a n = true → raises o 4)
      (takes s k .ld w 1 = true → order (exec (.ld k) s) (ldBytes (EngW.size w)) false) ∧
      (takes s k .st w 1 = true → order (exec (.st k) s) (stBytes (EngW.size w)) true) ∧
      (takes s k .vld w 1 = true → order (exec (.vld k) s) (if EngW.size w = 0 then 32 else 16) false) ∧
      (takes s k .vst w 1 = true → order (exec (.vst k) s) (if EngW.size w = 0 then 32 else 16) true)) ∧
  (∀ (s : State) (k : Se) (w : Nat),
      let c := (srcA s k w).toNat
      let far (o : Host.Outcome State Fault Refusal) : Prop := 2047 < c → o = .next (s.engException k 3 c)
      (takes s k .cld w 2 = true → far (exec (.cld k) s) ∧
        (c ≤ 2047 → s.ctxPoisoned k c = true → exec (.cld k) s = .next (s.engException k 4 c))) ∧
      (takes s k .cwr w 1 = true → far (exec (.cwr k) s)) ∧
      (takes s k .ccmdHold w 1 = true → far (exec (.ccmdHold k) s)) ∧
      (takes s k .ccmdRelease w 1 = true → far (exec (.ccmdRelease k) s)) ∧
      (takes s k .ccmdMask w 1 = true → far (exec (.ccmdMask k) s)) ∧
      (takes s k .ccmdUnmask w 1 = true → far (exec (.ccmdUnmask k) s)) ∧
      (takes s k .ccmdReseed w 1 = true → far (exec (.ccmdReseed k) s)) ∧
      (takes s k .cvb w 2 = true → 255 < c → exec (.cvb k) s = .next (s.engException k 3 c)))

/-! ### Engine control and messages (08) -/

/-- 08 R178, R185: the handler starts at the tick entry, or at the init entry after a load or restart, once in a tick and before the
cut-off (and not while the crossing of a restart is still flushing, 02 R57); nothing else but the handler's own state changes. 08
R193: `LOAD` verifies the image before the engine is touched, and its copy waits behind those commanded before; the copy at the head
of that order, of an engine that is `LOADING`, fills the engine's memories from the image, records the check value and has the init
entry run in an engine mode. -/
def Obligations.EngineHandlersAndLoads : Prop :=
  (∀ (s : State) (k : Se), s.engState k = 3 → s.clk.pastCutoff = false → (s.eng k).shaking = false →
      ((s.eng k).startOrd ≠ s.clk.ord + 1 → exec (.engHandlerStart k) s = .next (s.setEng k fun x =>
        { x with active := true, yielded := false, cyc := 0, waitTo := none, startOrd := s.clk.ord + 1,
                 pc := if x.initNext then x.initAt else x.tickAt, initNext := false })) ∧
      ((s.eng k).startOrd = s.clk.ord + 1 → exec (.engHandlerStart k) s = .next s)) ∧
  (∀ (s : State) (k : Se),
      (∀ r, accepts s r (objAddr 0x5001 0 6 k) [1] = true → goes (exec (.engLoad r k) s) fun t =>
        (s.imgVerify (4 + s.nat Obj.ENG_PROGRAM k) = none → (t.eng k).load = some (s.nat Obj.ENG_PROGRAM k) ∧
          t.engLoads = (s.engLoads.filter fun j => j != k.val) ++ [k.val]) ∧
        (s.imgVerify (4 + s.nat Obj.ENG_PROGRAM k) ≠ none → (t.eng k).load = (s.eng k).load ∧ t.engLoads = s.engLoads ∧
          newestIs t 0x6003) ∧
        t.val Obj.ENG_STATE k = s.val Obj.ENG_STATE k ∧ keepsMem s t ∧ answered t St.OK) ∧
      (∀ p, s.engState k = 1 → s.engLoads.head? = some k.val → (s.eng k).load = some p → goes (exec (.engLoadCopyDone k) s) fun t =>
        t.val Obj.ENG_STATE k = (if Mode.engines s.mode then 3 else 2) ∧ (t.eng k).load = none ∧ t.engLoads = s.engLoads.tail ∧
        (t.eng k).startOrd = s.clk.ord + 1 ∧ newestIs t 0x6002 ∧
        t.val Obj.ENG_LOADED_CRC k = crc32c (t.bytes (imemAddr k 0) (s.imgText (4 + p))) ∧
        (∀ a, s.imgText (4 + p) ≤ a → a < 0x10000 → t.byte (imemAddr k 0 + a) = 0) ∧
        (Mode.engines s.mode = true → (t.eng k).initNext = true) ∧ (∀ i, t.gr k i = 0) ∧
        (t.eng k).initAt = s.imgField (4 + p) 0x18 4 ∧ (t.eng k).tickAt = s.imgField (4 + p) 0x1C 4))

/-- 08 R185: a restart, by command or by the kernel 250 ticks after a quarantine, clears registers, queues, staged outputs and the
overrun run, counts, and runs the init entry next in an engine mode, not before the next boundary; instruction memory stays. 08 R184, R192: `QUARANTINE` stops a
running engine at once without an exception record; `UNLOAD` leaves it `EMPTY`. -/
def Obligations.EngineRestartsAndCommands : Prop :=
  (∀ (s : State) (k : Se),
      let restarted (t : State) : Prop :=
        t.val Obj.ENG_STATE k = (if Mode.engines s.mode then 3 else 2) ∧
        t.val Obj.ENG_RESTART_COUNT k = (s.val Obj.ENG_RESTART_COUNT k + 1) % 2 ^ 32 ∧
        (∀ i, t.gr k i = 0) ∧ (∀ r i, t.vr k r i = 0) ∧ (∀ i, t.pr k i = false) ∧ (t.eng k).inq = [] ∧ (t.eng k).outq = [] ∧
        (t.eng k).ops = [] ∧ (t.eng k).trigs = [] ∧ (t.eng k).meas = [] ∧ (t.eng k).msgs = [] ∧ (t.eng k).run = 0 ∧
        (Mode.engines s.mode = true → (t.eng k).initNext = true) ∧ (t.eng k).startOrd = s.clk.ord + 1 ∧
        ∀ a, a < 0x10000 → t.byte (imemAddr k 0 + a) = s.byte (imemAddr k 0 + a)
      (∀ r, accepts s r (objAddr 0x5001 0 6 k) [2] = true → s.engState k ≠ 0 → s.engState k ≠ 1 →
        goes (exec (.engRestart r k) s) fun t => restarted t ∧ answered t St.OK) ∧
      (s.engState k = 4 → s.clk.ord = (s.eng k).quarOrd + 250 → s.bankWithheld k = false →
        ((s.eng k).autoHour = s.tick / 900000000 → (s.eng k).autoDone < s.nat Obj.ENG_AUTO_RESTART k →
          goes (exec (.engAutoRestart k) s) fun t => restarted t ∧ (t.eng k).autoDone = (s.eng k).autoDone + 1) ∧
        ((s.eng k).autoHour ≠ s.tick / 900000000 → 0 < s.nat Obj.ENG_AUTO_RESTART k →
          goes (exec (.engAutoRestart k) s) fun t => restarted t ∧ (t.eng k).autoDone = 1 ∧
            (t.eng k).autoHour = s.tick / 900000000) ∧
        ((s.eng k).autoHour = s.tick / 900000000 → s.nat Obj.ENG_AUTO_RESTART k ≤ (s.eng k).autoDone →
          exec (.engAutoRestart k) s = .next s))) ∧
  (∀ (s : State) (k : Se) (r : Role),
      (accepts s r (objAddr 0x5001 0 6 k) [3] = true → s.engState k = 3 → goes (exec (.engQuarantineCmd r k) s) fun t =>
        t.val Obj.ENG_STATE k = 4 ∧ (t.eng k).active = false ∧ (t.eng k).quarOrd = s.clk.ord ∧
        t.blob Obj.ENG_EXC_INFO k = s.blob Obj.ENG_EXC_INFO k ∧ (t.eng k).inq = (s.eng k).inq ∧ answered t St.OK) ∧
      (accepts s r (objAddr 0x5001 0 6 k) [4] = true → goes (exec (.engUnload r k) s) fun t =>
        t.val Obj.ENG_STATE k = 0 ∧ (t.eng k).active = false ∧ (t.eng k).load = none ∧ keepsMem s t ∧ answered t St.OK))

/-- 08 R189-R191, R194: messages to an engine, its service requests and the replies. An inbound message waits for the next hand-in; the
request that is next leaves the outbound queue and is answered in its own sequence number (requests of kinds without a service that
come next are answered with it); a spill copy moves memory in a hand-out phase and answers `OK`; a reply waits for room. -/
def Obligations.EngineMessagesAndServices : Prop :=
  ∀ (s : State) (k : Se),
    let reply (seq status : Nat) : List Word := mkMsg 0xC0 1 seq (leBytes 1 status)
    let served (t : State) (m : List Word) (seq status : Nat) : Prop :=
      ((s.eng k).replies ++ [reply seq status]) <+: (t.eng k).replies ∧
      ((∀ q ∈ (s.eng k).outq, msgKind q ≤ 0x82 ∨ 0x90 ≤ msgKind q) →
        (t.eng k).outq = (s.eng k).outq.erase m ∧ (t.eng k).replies = (s.eng k).replies ++ [reply seq status])
    (∀ r (m : Msg), accepts s r (objAddr 0x5011 0 6 k) ((msgList m).flatMap fun w => leBytes 4 w.toNat) = true →
      goes (exec (.engMsgIn r k m) s) fun t =>
        (t.eng k).arriving = (s.eng k).arriving ++ [msgList m] ∧ (t.eng k).inq = (s.eng k).inq ∧ answered t St.OK) ∧
    (∀ (m : Msg), s.engRequest k = some (msgList m) → msgKind (msgList m) = 0x80 →
      (∀ o, s.suppParamStatus k (msgBytes (msgList m)) = (St.OK, some o) → goes (exec (.suppParam k m) s) fun t =>
        t.val o (k / 16) = leNat (slice (msgBytes (msgList m)) 2 4) ∧ served t (msgList m) (msgSeq (msgList m)) St.OK) ∧
      (∀ st, s.suppParamStatus k (msgBytes (msgList m)) = (st, none) → goes (exec (.suppParam k m) s) fun t =>
        t.vals = s.vals ∧ served t (msgList m) (msgSeq (msgList m)) st)) ∧
    (∀ (m : Msg) (write : Bool), s.engRequest k = some (msgList m) → msgKind (msgList m) = (if write then 0x81 else 0x82) →
      let p := msgBytes (msgList m)
      let a := leNat (slice p 0 4)
      let o := leNat (slice p 4 4)
      let n := leNat (slice p 8 4)
      let q := if write then exec (.spillWrite k m) s else exec (.spillRead k m) s
      (n % 8 = 0 → 8 ≤ n → n ≤ 4096 → a + n ≤ 0x20000 → o + n ≤ 2 ^ 20 → goes q fun t =>
        (t.eng k).spills = (s.eng k).spills ++ [{ write, addr := a, offset := o, len := n, seq := msgSeq (msgList m) }] ∧
        (t.eng k).outq = (s.eng k).outq.erase (msgList m) ∧ onlyEng s t k) ∧
      ((n % 8 ≠ 0 ∨ n < 8 ∨ 4096 < n ∨ 0x20000 < a + n ∨ 2 ^ 20 < o + n) → goes q fun t =>
        (t.eng k).spills = (s.eng k).spills ∧ served t (msgList m) (msgSeq (msgList m)) St.RANGE)) ∧
    (∀ x l, s.clk.pastCutoff = true → (s.eng k).spills = x :: l → goes (exec (.spillCopyDone k) s) fun t =>
      (t.eng k).spills = l ∧ ((s.eng k).replies ++ [reply x.seq St.OK]) <+: (t.eng k).replies ∧
      (s.memoryOk = true → x.addr + x.len ≤ 0x20000 → x.offset + x.len ≤ 2 ^ 20 →
        (x.write = true → ∀ i, i < x.len → t.byte (spillAddr k (x.offset + i)) = s.byte (dmemAddr k (x.addr + i))) ∧
        (x.write = false → ∀ i, i < x.len → t.byte (dmemAddr k (x.addr + i)) = s.byte (spillAddr k (x.offset + i))))) ∧
    (∀ m l, (s.eng k).replies = m :: l → (s.eng k).inRoom = true → goes (exec (.engReplyDeliver k) s) fun t =>
      t.eng k = { s.eng k with arriving := (s.eng k).arriving ++ [m], replies := l } ∧ (∀ j, j ≠ k.val → t.eng j = s.eng j) ∧
      t = { s with engs := t.engs, poison := t.poison } ∧
      t.poisoned (msgAddr k ((s.eng k).inHead + (s.eng k).inq.length + (s.eng k).arriving.length)) 32 = false)

/-! ### Power, resets and start-up (19, 20) -/

/-- 20 R468, R469, 18 R424, 19 R457: the steps of start-up in order. Each command of the sequence moves it on from the step before, in
BOOT; SAFE is entered with the cause and the boot time recorded. -/
def Obligations.StartUpRunsInOrder : Prop :=
  ∀ s : State,
    (∀ straps : BitVec 12, s.boot.step = 0 → s.boot.power = true → goes (exec (.startUpBegin straps) s) fun t =>
      t.boot.step = 1 ∧ t.val Obj.MODULE_NUMBER = straps.toNat ∧ t.val Obj.NET_IP_ADDR = 0x0A281000 + straps.toNat) ∧
    (s.boot.step = 1 → s.mode = 0 → exec (.romBootDone none) s = .next (s.setBoot fun b => { b with step := 2 })) ∧
    (s.boot.step = 2 → s.mode = 0 → exec .fuseReadDone s = .next (s.setBoot fun b => { b with fuses := true })) ∧
    (∀ n, s.boot.step = 2 → s.boot.filled = false → s.mode = 0 → n < 2 ^ 32 → goes (exec (.memoryFillDone n none) s) fun t =>
      t.boot.filled = true ∧ t.val Obj.MEM_FILL_TIME = n) ∧
    (s.boot.step = 2 → s.mode = 0 → s.boot.fuses = true → s.boot.filled = true → s.on Obj.PLL_LOCK 8 = true →
      goes (exec .kernelVerifyDone s) fun t => t.boot.step = 5 ∧
        (s.boot.kTrial = false → s.slotPasses s.boot.kPref = true →
          t.val Obj.KERNEL_SLOT_RUNNING = s.boot.kPref ∧ t.boot.onTrial = false)) ∧
    (∀ n, s.boot.step = 5 → s.mode = 0 → n < 2 ^ 32 → 8 ≤ s.nat Obj.SET_BOOT → s.boot.fellBack = false →
      goes (exec (.safeEntry n) s) fun t => t.boot.step = 6 ∧ t.val Obj.MODE_NOW = 1 ∧ t.val Obj.RESET_CAUSE = s.boot.cause ∧
        t.val Obj.RESET_PREV_MODE = s.boot.prev ∧ t.val Obj.BOOT_TIME = n)

/-- 20 R472, R474: what a module-wide reset keeps and clears: MRAM, fuses and memory stay, the commands that wait stay, every other
object reads its default, the candidate table is empty, every session is closed, and the module waits in BOOT for start-up. 20
R472, 19 R459: the resets by command and by the limit of a kernel's trial. -/
def Obligations.ModuleResets : Prop :=
  (∀ s : State,
      let resets (o : Host.Outcome State Fault Refusal) (cause : Nat) (u : State) : Prop :=
        goes o fun t => t.boot.step = 0 ∧ t.boot.cause = cause ∧ t.mode = 0 ∧ t.spec.cands = [] ∧ t.sdp.sessions = [] ∧
          t.clk.counting = false ∧ t.mem = u.mem ∧ t.pending = s.pending ∧
          (∀ (o : ObjDef) (e sub : Nat), e < 65536 → sub < 256 → o.idx ≠ 0x1054 → o.idx ≠ 0x1057 →
            t.val o e sub = if keptIdx.contains o.idx then u.val o e sub else dfltVal o e sub)
      (resets (exec .pwrGoodRise s) 0 s) ∧
      (s.boot.low = true → s.boot.prev ≠ 11 → resets (exec .resetNRelease s) 1 s) ∧
      (s.boot.low = true → s.boot.prev = 11 → resets (exec .resetNRelease s) 5 s) ∧
      (s.mode = 11 → 0 < s.nat Obj.HALT_AUTO_RESET → s.val Obj.HALT_AUTO_COUNT < 3 →
        s.boot.haltOrd + s.nat Obj.HALT_AUTO_RESET ≤ s.clk.ord → s.flt.spans = [] →
        resets (exec .haltAutoReset s) 4 s ∧
        goes (exec .haltAutoReset s) fun t => t.val Obj.HALT_AUTO_COUNT = s.val Obj.HALT_AUTO_COUNT + 1) ∧
      (3 ≤ s.val Obj.HALT_AUTO_COUNT → exec .haltAutoReset s = .next s) ∧
      (∀ n, s.boot.hour = some n → 900000000 ≤ n + (s.clk.ord - s.boot.hourOrd) →
        exec .haltAutoHourEnd s = .next ((s.setVal Obj.HALT_AUTO_COUNT 0).setBoot fun b => { b with hour := none }))) ∧
  (∀ (s : State) (r : Role),
      let resets (o : Host.Outcome State Fault Refusal) (kind cause : Nat) : Prop :=
        goes o fun t => t.boot.step = 0 ∧ t.boot.kind = kind ∧ t.boot.cause = cause ∧ t.boot.prev = s.mode ∧ t.mode = 0 ∧
          t.spec.cands = [] ∧ t.sdp.sessions = [] ∧ t.pending = s.pending
      (accepts s r (objAddr 0x1051 0 0 0) [1] = true → resets (exec (.resetCmdWarm r) s) 1 2) ∧
      (accepts s r (objAddr 0x1051 0 0 0) [2] = true → resets (exec (.resetCmdDumpPreserving r) s) 2 3) ∧
      (s.boot.onTrial = true → s.boot.safeOrd + s.nat Obj.IMAGE_TRIAL_LIMIT ≤ s.clk.ord →
        resets (exec .kernelTrialTimeout s) 1 6) ∧
      (∀ slot : Fin 4, slot.val < 2 → accepts s r (objAddr 0xB015 (slot + 1) 0 0) [1] = true →
        resets (exec (.imageActivate r slot) s) 1 7 ∧ goes (exec (.imageActivate r slot) s) fun t =>
          t.boot.kPref = slot ∧ t.boot.kTrial = true ∧ t.boot.kTried = false) ∧
      (∀ slot : Fin 4, 2 ≤ slot.val → accepts s r (objAddr 0xB015 (slot + 1) 0 0) [1] = true →
        goes (exec (.imageActivate r slot) s) fun t => t.boot.aPref = slot ∧ t.boot.aTrial = true ∧
          t.app.switchTo = some slot.val ∧ answered t St.OK))

/-- 20 R468, R473: a fall of `PWR_GOOD`, and a low of `RESET_N` of 10 µs or more, stop every datapath: the mode is BOOT and every lane
is `OFF`. A low shorter than 2 µs does nothing. -/
def Obligations.SupplyAndResetPins : Prop :=
  ∀ s : State,
    (s.boot.power = true → s.boot.low = false → goes (exec .pwrGoodFall s) fun t =>
      t.boot.power = false ∧ t.boot.step = 0 ∧ t.mode = 0 ∧ ∀ l, l < 48 → t.laneState l = 0) ∧
    (∀ ns, s.boot.step ≠ 0 → s.boot.power = true → s.boot.low = false → 10000 ≤ ns → goes (exec (.resetNLow ns) s) fun t =>
      t.boot.low = true ∧ t.boot.prev = s.mode ∧ t.mode = 0 ∧ ∀ l, l < 48 → t.laneState l = 0) ∧
    (∀ ns, ns < 2000 → exec (.resetNLow ns) s = .next s)

/-! ### Modes (20) -/

/-- 20 R481-R484: a mode request that no case of R483 refuses is recorded with its tick resolved; a cancel and the repeated checks at
the cut-off clear it. 20 R485: a requested change is made when its tick has come: the mode, its tick and its count. Before that
nothing changes. 20 R486: with every reader die set aside, a request for modes 2 to 9 is cancelled at its tick. -/
def Obligations.ModeRequestsAndChanges : Prop :=
  (∀ (s : State) (r : Role),
      (∀ (v : BitVec 64) (late : Bool), accepts { s with clk := { s.clk with pastCutoff := s.clk.pastCutoff || late } } r
          (objAddr 0x1001 0 0 0) (leBytes 8 v.toNat) = true →
        goes (exec (.modeRequest r v late) s) fun t =>
          t.val Obj.MODE_PENDING = (v.toNat / 2 ^ 60 * 2 ^ 60 +
            (if v.toNat % 2 ^ 53 = 0 then (s.tick + (if s.clk.pastCutoff || late then 2 else 1)) % 2 ^ 53
             else v.toNat % 2 ^ 53) : Nat) ∧
          t.mode = s.mode ∧ t.clk.pastCutoff = s.clk.pastCutoff ∧ answered t St.OK ∧
          ∃ a, t.sdp.answer = some a ∧ a.action ≠ 0 ∧ t.acts.mode = a.action) ∧
      (accepts s r (objAddr 0x1003 0 0 0) [1] = true → 0 < s.nat Obj.MODE_PENDING → goes (exec (.modeCancel r) s) fun t =>
        t.val Obj.MODE_PENDING = 0 ∧ t.mode = s.mode ∧ t.acts.mode = 0 ∧
        t.val Obj.MODE_LAST_REFUSAL = (s.nat Obj.MODE_PENDING / 2 ^ 60 * 256 : Nat)) ∧
      (0 < s.nat Obj.MODE_PENDING → s.nat Obj.MODE_PENDING % 2 ^ 53 = (s.tick + 1) % 2 ^ 53 →
        (s.modeRefusal (s.nat Obj.MODE_PENDING) false true = none → exec .modeCutoffCheck s = .next s) ∧
        (∀ st, s.modeRefusal (s.nat Obj.MODE_PENDING) false true = some st → goes (exec .modeCutoffCheck s) fun t =>
          t.val Obj.MODE_PENDING = 0 ∧ t.mode = s.mode ∧
          t.val Obj.MODE_LAST_REFUSAL = (s.nat Obj.MODE_PENDING / 2 ^ 60 * 256 + st : Nat)))) ∧
  (∀ s : State,
      (s.tick < s.nat Obj.MODE_PENDING % 2 ^ 53 → exec .modeChangeApply s = .next s) ∧
      (0 < s.nat Obj.MODE_PENDING → s.nat Obj.MODE_PENDING % 2 ^ 53 ≤ s.tick → 2 ≤ s.nat Obj.MODE_PENDING / 2 ^ 60 →
        s.nat Obj.MODE_PENDING / 2 ^ 60 ≤ 9 → (∀ d, d < 8 → s.dieOff d = true) → goes (exec .modeChangeApply s) fun t =>
          t.val Obj.MODE_PENDING = 0 ∧ t.mode = s.mode ∧ t.acts.mode = 0 ∧ newestIs t 0x0006 ∧
          t.val Obj.MODE_LAST_REFUSAL = (s.nat Obj.MODE_PENDING / 2 ^ 60 * 256 + St.QUARANTINED : Nat)) ∧
      (0 < s.nat Obj.MODE_PENDING → s.nat Obj.MODE_PENDING % 2 ^ 53 ≤ s.tick →
        (s.nat Obj.MODE_PENDING / 2 ^ 60 < 2 ∨ 9 < s.nat Obj.MODE_PENDING / 2 ^ 60 ∨ ∃ d, d < 8 ∧ s.dieOff d = false) →
        goes (exec .modeChangeApply s) fun t =>
        t.val Obj.MODE_NOW = (s.nat Obj.MODE_PENDING / 2 ^ 60 : Nat) ∧ t.val Obj.MODE_PENDING = 0 ∧ t.acts.mode = 0 ∧
        t.val Obj.MODE_LAST_CHANGE = s.tick ∧ t.val Obj.MODE_CHANGE_COUNT = (s.val Obj.MODE_CHANGE_COUNT + 1) % 2 ^ 32))

/-! ### Ticks, clocks and time (02) -/

/-- 02 R31-R33, R49: in BOOT a boundary with nothing to isolate or log advances the tick number by one, which returns to 0 after
2^53 - 1 as Kloif time does, or gives it the number a time set or the first lock names, and opens the tick for commits; the cut-off
closes it, in every mode. -/
def Obligations.BoundariesCountTicks : Prop :=
  (∀ (s : State) (env : TickEnv), s.clocked = true → s.mode = 0 → s.cont.isolating = [] → s.cont.quarantining = [] →
    s.cont.returning = [] → s.flt.spans = [] → goes (exec (.tickBoundary env) s) fun t =>
      t.clk.tick = s.clk.nextTick.getD (if s.clk.counting then (s.clk.tick + 1) % 2 ^ 53 else 0) ∧ t.clk.ord = s.clk.ord + 1 ∧
      t.clk.counting = true ∧ t.clk.pastCutoff = false ∧ t.clk.nextTick = none ∧ t.mode = 0 ∧ keepsMem s t) ∧
  (∀ (s : State), s.clocked = true → s.clk.counting = true →
    (s.clk.pastCutoff = false → (∀ k, k < 256 → s.engState k ≠ 3) → s.nat Obj.MODE_PENDING = 0 →
      goes (exec .tickCutoff s) fun t => t.clk = { s.clk with pastCutoff := true } ∧ t.mode = s.mode ∧ keepsMem s t) ∧
    (s.clk.pastCutoff = true → exec .tickCutoff s = .next s))

/-- 02 R45, R46, R49: the reference is measured and adopted within ten per cent of a permitted frequency, the concentrator PLL locks
to it within 200 ppm and starts Kloif time at the next boundary; its loss is a holdover that a slewed return ends. 02 R47, 14
R310: a reader-die PLL that loses lock is counted, one that relocks has its regions restart, and one that does not relock in 256
ticks has its die set aside. 02 R56, R57, R536: a source clock that stops is recorded under its crossing's number; a reader die's
sets the die aside, a lane's sends it back to detection, and one of the concentrator or its DRAM is fatal; a handshake ends the
flushing of its crossing, or of its engines. -/
def Obligations.ClocksLoseAndRegainLock : Prop :=
  (∀ s : State,
      (∀ khz ppm, s.seeksRef = true → adoptRef khz ≠ 0 → exec (.refclkMeasure ⟨khz, ppm⟩) s =
        .next ((s.setClk fun c => { c with refKhz := khz, refPpm := ppm }).setVal Obj.REFCLK_FREQ (adoptRef khz))) ∧
      (adoptRef 9000 = 1 ∧ adoptRef 11000 = 1 ∧ adoptRef 8999 = 0 ∧ adoptRef 110000 = 2 ∧ adoptRef 115200 = 3 ∧ adoptRef 140800 = 3 ∧
        adoptRef 140801 = 0) ∧
      (s.seeksRef = true → s.on Obj.REFCLK_FREQ = true → s.clk.refPpm.natAbs ≤ 200 → exec .cdPllLock s =
        .next ((s.setVal Obj.PLL_LOCK 1 8).setClk fun c => { c with nextTick := some 0 })) ∧
      ((s.seeksRef = false ∨ s.on Obj.REFCLK_FREQ = false ∨ 200 < s.clk.refPpm.natAbs) → exec .cdPllLock s = .next s) ∧
      (s.seeksRef = true → s.on Obj.REFCLK_FREQ = true → goes (exec .pllLockTimeout s) fun t => t.val Obj.REFCLK_FREQ = 0) ∧
      (s.clk.holdover = false → s.on Obj.PLL_LOCK 8 = true → goes (exec .refclkLoss s) fun t =>
        t.val Obj.PLL_LOCK 8 = 0 ∧ t.clk.holdover = true ∧
        t.val Obj.PLL_UNLOCK_COUNT 8 = (s.val Obj.PLL_UNLOCK_COUNT 8 + 1) % 2 ^ 32 ∧
        (s.val Obj.TIME_STATE = 1 → t.val Obj.TIME_STATE = 2)) ∧
      (∀ ppm : Int, s.clk.holdover = true → ppm.natAbs ≤ 200 →
        exec (.refclkReturn ppm) s = .next (s.setClk fun c => { c with slewing := true })) ∧
      (s.clk.slewing = true → goes (exec .pllSlewDone s) fun t =>
        t.clk.holdover = false ∧ t.clk.slewing = false ∧ t.val Obj.PLL_LOCK 8 = 1)) ∧
  (∀ (s : State) (d : Rd),
      (s.on Obj.PLL_LOCK d = true → goes (exec (.readerPllUnlock d) s) fun t =>
        t.val Obj.PLL_LOCK d = 0 ∧ t.val Obj.PLL_UNLOCK_COUNT d = (s.val Obj.PLL_UNLOCK_COUNT d + 1) % 2 ^ 32 ∧
        smGet 0 t.clk.pllLost d = s.clk.ord + 1) ∧
      (s.on Obj.PLL_LOCK d = false → smGet 0 s.clk.pllLost d ≠ 0 → goes (exec (.readerPllRelock d) s) fun t =>
        t.val Obj.PLL_LOCK d = 1 ∧ smGet 0 t.clk.pllLost d = 0 ∧ (t.rg (2 * d)).restartDue = true ∧
        (t.rg (2 * d + 1)).restartDue = true) ∧
      (s.on Obj.PLL_LOCK d = false → s.val Obj.DIE_STATE d = 0 → smGet 0 s.clk.pllLost d ≠ 0 →
        smGet 0 s.clk.pllLost d - 1 + 256 ≤ s.clk.ord → goes (exec (.readerPllRelockTimeout d) s) fun t =>
          t.val Obj.DIE_STATE d = 2 ∧ t.val Obj.DIE_ISOLATE d = 1 ∧ t.cont.isolating = s.cont.isolating ++ [(d.val, 0x2010)]) ∧
      (s.on Obj.PLL_LOCK d = false → s.dieOff d = false → smGet 0 s.clk.pllLost d = 0 → s.boot.step ≠ 0 →
        (s.on Obj.PLL_LOCK 8 = true ∨ s.clk.holdover = true) → exec (.readerPllLock d) s = .next (s.setVal Obj.PLL_LOCK 1 d))) ∧
  (∀ s : State,
      (∀ d : Rd, s.boot.step ≠ 0 → s.dieOut d = false → goes (exec (.clockStopped (.reader d)) s) fun t =>
        t.val Obj.CDC_LAST_STOPPED = 0x1000 + d.val ∧ t.val Obj.DIE_STATE d = 2 ∧
        t.cont.isolating = s.cont.isolating ++ [(d.val, 0x2011)]) ∧
      (∀ l : Ln, s.boot.step ≠ 0 → 2 ≤ s.laneState l → s.laneState l ≤ 6 → goes (exec (.clockStopped (.lane l)) s) fun t =>
        t.val Obj.CDC_LAST_STOPPED = 0x2000 + l.val ∧ t.laneState l = 1) ∧
      (∀ st : Fin 4, s.boot.step ≠ 0 → goes (exec (.clockStopped (.dram st)) s) fun t =>
        t.val Obj.CDC_LAST_STOPPED = 0x3000 + st.val ∧ t.mode = 11) ∧
      (∀ c, s.boot.step ≠ 0 → goes (exec (.clockStopped (.concentrator c)) s) fun t =>
        t.val Obj.CDC_LAST_STOPPED = 0x4000 + c.val ∧ t.mode = 11) ∧
      (s.boot.step ≠ 0 → exec (.clockStopped .fieldNet) s =
        .next ((s.setVal Obj.CDC_LAST_STOPPED 0x5000).setVal Obj.NET_LINK_STATE 0)) ∧
      (goes (exec (.cdcHandshakeDone (.concentrator 0)) s) fun t =>
        (∀ k, (t.eng k).shaking = false ∧ t.eng k = { s.eng k with shaking := false }) ∧ t.vals = s.vals) ∧
      (∀ d : Rd, smGet 0 s.cont.resetting d ≠ 0 → s.on Obj.PLL_LOCK d = true →
        goes (exec (.cdcHandshakeDone (.reader d)) s) fun t => d.val ∈ t.cont.shaken ∧ t.clk = s.clk) ∧
      (∀ l : Ln, exec (.cdcHandshakeDone (.lane l)) s =
        .next (s.setClk fun k => { k with flushing := k.flushing.filter (· != .lane l) })))

/-- 02 R50-R52: a time set is armed by its write and given up after 500,000 ticks, and an edge of the selected direction carries it out;
otherwise an edge is judged against the second nearest to its stamp: its offset is kept, one in window is counted towards the relock,
one outside it is a missing edge, as is a second whose window passes without one, and time goes from `LOCKED` into holdover. 10 R228,
16 R377, 17 R414: a second's counts and credits begin anew. -/
def Obligations.TimeSetAndPps : Prop :=
  ∀ (s : State) (r : Role),
    (∀ v, v < 2 ^ 72 → accepts s r (objAddr 0x1021 0 0 0) (leBytes 9 v) = true → goes (exec (.timeSet r v) s) fun t =>
      t.clk.armed = some v ∧ t.clk.armedOrd = s.clk.ord ∧ t.val Obj.TIME_SET = v ∧ t.nat Obj.MODE_PENDING = 0 ∧ answered t St.OK) ∧
    (s.clk.armed.isSome = true → s.clk.armedOrd + 500000 ≤ s.clk.ord → goes (exec .timeSetTimeout s) fun t =>
      t.clk.armed = none ∧ t.vals = s.vals ∧ newestIs t 2) ∧
    ((s.clk.armed = none ∨ s.clk.ord < s.clk.armedOrd + 500000) → exec .timeSetTimeout s = .next s) ∧
    (∀ (e : TdcEdge), s.on Obj.PPS_ENABLE = true → Mode.ppsTdc s.mode = true → (s.val Obj.PPS_EDGE = 1 ↔ e.rising = false) →
      let second := (2 * s.ppsStamp e + secondTu) / (2 * secondTu)
      let off : Int := (s.ppsStamp e : Int) - (second * secondTu : Nat)
      let run := if s.val Obj.TIME_STATE = 2 then s.clk.relockRun + 1 else 0
      (∀ v, s.clk.armed = some v → goes (exec (.ppsEdge e) s) fun t =>
        t.clk.armed = none ∧ t.clk.nextTick = some (v / 2 ^ 19) ∧ t.clk.short = true ∧
        t.val Obj.PPS_OFFSET = s.val Obj.PPS_OFFSET ∧ t.val Obj.TIME_STATE = s.val Obj.TIME_STATE) ∧
      (s.clk.armed = none → s.val Obj.TIME_STATE ≠ 0 → s.ppsJudged second = false → -(2 ^ 31) ≤ off → off < 2 ^ 31 →
        (off.natAbs ≤ s.nat Obj.PPS_WINDOW → goes (exec (.ppsEdge e) s) fun t =>
          t.val Obj.PPS_OFFSET = off ∧ t.clk.ppsSecond = some second ∧ t.clk.relockRun = run ∧
          t.val Obj.PPS_MISSING_COUNT = s.val Obj.PPS_MISSING_COUNT ∧
          t.val Obj.TIME_STATE = if s.val Obj.TIME_STATE = 2 ∧ s.clk.holdover = false ∧ s.nat Obj.PPS_RELOCK_COUNT ≤ run then 1
            else s.val Obj.TIME_STATE) ∧
        (s.nat Obj.PPS_WINDOW < off.natAbs → goes (exec (.ppsEdge e) s) fun t =>
          t.val Obj.PPS_OFFSET = off ∧ t.clk.ppsSecond = some second ∧ t.clk.relockRun = 0 ∧
          t.val Obj.PPS_MISSING_COUNT = (s.val Obj.PPS_MISSING_COUNT + 1) % 2 ^ 32 ∧
          t.val Obj.TIME_STATE = if s.val Obj.TIME_STATE = 1 then 2 else s.val Obj.TIME_STATE))) ∧
    ((s.on Obj.PPS_ENABLE = false ∨ Mode.ppsTdc s.mode = false) → ∀ e : TdcEdge, exec (.ppsEdge e) s = .next s) ∧
    (s.val Obj.TIME_STATE ≠ 0 → s.on Obj.PPS_ENABLE = true → s.ppsJudged (s.tick / 250000) = false →
      s.tick / 250000 * secondTu + s.nat Obj.PPS_WINDOW < (s.tick + 1) * 2 ^ 19 → goes (exec .ppsMissing s) fun t =>
        t.val Obj.PPS_MISSING_COUNT = (s.val Obj.PPS_MISSING_COUNT + 1) % 2 ^ 32 ∧ t.clk.relockRun = 0 ∧
        t.clk.ppsSecond = some (s.tick / 250000) ∧
        t.val Obj.TIME_STATE = if s.val Obj.TIME_STATE = 1 then 2 else s.val Obj.TIME_STATE) ∧
    ((s.ppsJudged (s.tick / 250000) = true ∨ (s.tick + 1) * 2 ^ 19 ≤ s.tick / 250000 * secondTu + s.nat Obj.PPS_WINDOW) →
      exec .ppsMissing s = .next s) ∧
    (∀ n, s.clk.secondDue = some n → goes (exec .secondBoundary s) fun t =>
      t.clk.secondDue = none ∧ (∀ x ∈ t.sdp.sessions, x.sentThisSecond = 0) ∧ t.val Obj.TIME_STATE = s.val Obj.TIME_STATE ∧
      t.clk.tick = s.clk.tick ∧ keepsMem s t) ∧
    (s.clk.secondDue = none → exec .secondBoundary s = .next s)

/-- 02 R39, R40, R41: an accepted swap request records its commit for its target, in time for the coming boundary only before the
cut-off, and makes nothing live; a swap deferred for the limit is cancelled with its group, each member's shadow holding the live
contents again. -/
def Obligations.TableSwapCommands : Prop :=
  ∀ (s : State) (r : Role) (table : Fin 12) (elem : Nat),
    let e := if tabKind table = 0 then 0 else elem
    (∀ target, target < 2 ^ 64 → accepts s r (tabAddr 0x1015 table elem) (leBytes 8 target) = true →
      goes (exec (.tableSwapRequest r table elem target) s) fun t =>
        (t.tab table e).target = target ∧ (t.tab table e).ready = true ∧ (t.tab table e).late = s.clk.pastCutoff ∧
        t.tabState table e = 1 ∧ t.live = s.live ∧ t.liveBlobs = s.liveBlobs ∧ answered t St.OK) ∧
    (s.tabState table elem = 2 → s.nat Obj.SWAP_DEFER_LIMIT ≤ (s.tab table elem).deferRun →
      (∀ k ∈ (s.tab table elem).group, k < 12 * 256 ∧ k % 256 < tabCount (k / 256)) →
      goes (exec (.tableSwapCancel table elem) s) fun t => t.live = s.live ∧ t.liveBlobs = s.liveBlobs ∧
        ∀ k ∈ (s.tab table elem).group, s.tabPending (k / 256) (k % 256) = true →
          t.tabState (k / 256) (k % 256) = (if s.tabRetiring (k / 256) (k % 256) then 3 else 0) ∧
          (t.tab (k / 256) (k % 256)).ready = false ∧ (t.tab (k / 256) (k % 256)).group = [] ∧
          ∀ (o : ObjDef) (x sub : Nat), isContent (k / 256) (k % 256) (key o x sub) = true → t.val o x sub = s.liveVal o x sub) ∧
    ((s.tabState table elem ≠ 2 ∨ (s.tab table elem).deferRun < s.nat Obj.SWAP_DEFER_LIMIT) →
      exec (.tableSwapCancel table elem) s = .next s)

/-! ### Linearizer, ranging, clamps, blanking, feeds (03, 05) -/

/-- 05 R113, R115, R116: a build that may start fills the shadow from the active coefficients, wanted for the next tick, the live
table staying; one that may not waits. A coefficient commit and an extra build are recorded by their writes, and a build asked for
before the last boundary is made. 03 R64-R68, R76: an attack raises an unlocked input's range by one and counts the clipped words; a
release, when the count of small samples in a row reaches the hold, lowers it; each takes effect two samples later, counted and
flagged `RNG`, or waits for the next tick; a sample that is not small sets the count to zero and a blanked one holds it. A locked
input, and one with a change on its way, does neither. -/
def Obligations.RangesAndLinearizers : Prop :=
  (∀ (s : State) (r : Role) (g : Rg),
      let free := s.regionRuns g && !s.tabPending 0 g && !s.tabRetiring 0 g
      let built (o : Host.Outcome State Fault Refusal) : Prop := goes o fun t =>
        (t.rg g).linShadow = some (s.linBuild g) ∧ (t.rg g).lin = (s.rg g).lin ∧ (t.rg g).buildWaits = false ∧
        t.tabState 0 g = 1 ∧ (t.tab 0 g).target = s.tick + 1 ∧ (t.tab 0 g).ready = false ∧
        t = { s with regions := t.regions, tabs := t.tabs, vals := t.vals } ∧ keepsVals s t [Obj.TABLE_SWAP_STATE]
      let waits : Host.Outcome State Fault Refusal := .next (s.setRg g fun x => { x with buildWaits := true })
      (s.tick % 250 = 0 → free = true → built (exec (.linTableBuild g) s)) ∧
      (s.tick % 250 = 0 → s.regionRuns g = true → free = false → exec (.linTableBuild g) s = waits) ∧
      ((s.tick % 250 ≠ 0 ∨ s.regionRuns g = false) → exec (.linTableBuild g) s = .next s) ∧
      ((s.rg g).buildWaits = true → (s.rg g).askOrd < s.clk.ord → free = true → built (exec (.linDeferredBuild g) s)) ∧
      ((s.rg g).buildWaits = true → (s.rg g).askOrd < s.clk.ord → free = false → exec (.linDeferredBuild g) s = waits) ∧
      (((s.rg g).buildWaits = false ∨ s.clk.ord ≤ (s.rg g).askOrd) → exec (.linDeferredBuild g) s = .next s) ∧
      (s.tabPending 0 g = true →
        exec (.linBuildDone g) s = .next (s.setTab 0 g fun x => { x with ready := true, late := s.clk.pastCutoff })) ∧
      (s.tabPending 0 g = false → exec (.linBuildDone g) s = .next s) ∧
      (accepts s r (objAddr 0x3001 0 3 g) [1] = true → goes (exec (.linCoeffCommit r g) s) fun t =>
        (t.rg g).copyWaits = true ∧ (t.rg g).buildWaits = true ∧ (t.rg g).askOrd = s.clk.ord ∧
        (t.rg g).coeff = (s.rg g).coeff ∧ (t.rg g).lin = (s.rg g).lin ∧ answered t St.OK ∧
        t = { s with regions := t.regions, sdp := t.sdp }) ∧
      (accepts s r (objAddr 0x3002 0 3 g) [1] = true → goes (exec (.linRebuild r g) s) fun t =>
        (t.rg g).copyWaits = (s.rg g).copyWaits ∧ (t.rg g).buildWaits = true ∧ (t.rg g).askOrd = s.clk.ord ∧
        (t.rg g).coeff = (s.rg g).coeff ∧ (t.rg g).lin = (s.rg g).lin ∧ answered t St.OK ∧
        t = { s with regions := t.regions, sdp := t.sdp })) ∧
  (∀ (s : State) (n : Ch) (sample : Fin 4096) (w next : BitVec 12) (words : List (BitVec 12)),
      let x := s.inp n
      let decided (t : State) (r : Nat) : Prop :=
        (sample.val + 2 < 4096 → (t.inp n).range = r ∧ (t.inp n).pend = none ∧ Flag.any (t.condAt n 0) Flag.rng = true ∧
          t.val Obj.RANGE_CHANGE_COUNT n = (s.val Obj.RANGE_CHANGE_COUNT n + 1) % 2 ^ Obj.RANGE_CHANGE_COUNT.ty.bits) ∧
        (4096 ≤ sample.val + 2 → (t.inp n).range = x.range ∧ (t.inp n).pend = some r ∧
          t.val Obj.RANGE_CHANGE_COUNT n = s.val Obj.RANGE_CHANGE_COUNT n) ∧
        (t.inp n).evalFrom = s.absSample sample + 2 ∧
        (∀ m, m ≠ n.val → t.inp m = s.inp m) ∧ t = { s with vals := t.vals, inputs := t.inputs }
      (s.converterRuns n = true → s.rangeLock n = none → x.pend = none → rawRange w = x.range → x.range < 3 →
        s.nat Obj.RANGE_ATTACK n < (rawMant w).natAbs → x.evalFrom ≤ s.absSample sample → s.blankedAt n sample = false →
        goes (exec (.rangeAttack n sample w next) s) fun t => decided t (x.range + 1) ∧
          keepsVals s t [Obj.RANGE_CHANGE_COUNT, Obj.ATTACK_CLIP_COUNT] ∧
          t.val Obj.ATTACK_CLIP_COUNT n = (s.val Obj.ATTACK_CLIP_COUNT n + (if rawClip w then 1 else 0) +
            (if rawClip next ∧ s.blankedAt n (sample.val + 1) = false then 1 else 0)) % 2 ^ Obj.ATTACK_CLIP_COUNT.ty.bits) ∧
      (s.converterRuns n = true → s.rangeLock n = none → x.pend = none → 0 < x.range → x.evalFrom ≤ s.absSample sample →
        s.relStart n + words.length = sample.val → s.blankedAt n sample = false → relSmall (s.nat Obj.RANGE_RELEASE n) w = true →
        s.nat Obj.RANGE_HOLD n ≤ s.relRun n words + 1 → goes (exec (.rangeRelease n (words ++ [w])) s) fun t =>
          decided t (x.range - 1) ∧ keepsVals s t [Obj.RANGE_CHANGE_COUNT]) ∧
      (relSmall (s.nat Obj.RANGE_RELEASE n) w = true ↔ w ≠ 0xE00 ∧ (rawMant w).natAbs < s.nat Obj.RANGE_RELEASE n) ∧
      (s.relRun n [] = x.relCount ∧ s.relRun n (words ++ [w]) =
        if s.blankedAt n (s.relStart n + words.length) then s.relRun n words
        else if relSmall (s.nat Obj.RANGE_RELEASE n) w then s.relRun n words + 1 else 0) ∧
      ((relSmall (s.nat Obj.RANGE_RELEASE n) w = false ∨ (s.relStart n + words.length = sample.val ∧ s.blankedAt n sample = true)) →
        exec (.rangeRelease n (words ++ [w])) s = .next s) ∧
      ((s.rangeLock n).isSome = true ∨ x.pend.isSome = true ∨ s.converterRuns n = false →
        exec (.rangeAttack n sample w next) s = .next s ∧ exec (.rangeRelease n words) s = .next s))

/-- 03 R71-R73: an episode latches its sources and flags `CLAMP` on its cluster's four inputs; its end latches the sources that joined
it, reports them all, is counted, and has the other inputs carry `NBR` for 256 samples; a written 1 clears a latch. 03 R74, R75: a `BLANK` pin's edge takes effect 16
samples after it; one that ends a pulse of less than two samples leaves zero, one or two blanked samples. -/
def Obligations.ClampsAndBlanking : Prop :=
  (∀ (s : State) (r : Role) (c : Cl) (sample : Fin 4096) (src : BitVec 4),
      (Mode.frontEnd s.mode = true → s.on Obj.CLAMP_STATE c = false → goes (exec (.clampEpisodeBegin c sample src) s) fun t =>
        t.val Obj.CLAMP_STATE c = 1 ∧ t.nat Obj.CLAMP_SOURCE c = s.nat Obj.CLAMP_SOURCE c ||| src.toNat ∧
        t.val Obj.CLAMP_COUNT c = s.val Obj.CLAMP_COUNT c ∧
        (∀ i, i < 4 → Flag.any (t.condAt (4 * c + i) 0) Flag.clamp = true ∧ (t.inp (4 * c + i)).nbrTo = 0) ∧
        keepsVals s t [Obj.CLAMP_STATE, Obj.CLAMP_SOURCE] ∧ t = { s with vals := t.vals, inputs := t.inputs, clusters := t.clusters }) ∧
      ((Mode.frontEnd s.mode = false ∨ s.on Obj.CLAMP_STATE c = true) → exec (.clampEpisodeBegin c sample src) s = .next s) ∧
      (s.on Obj.CLAMP_STATE c = true → goes (exec (.clampEpisodeEnd c sample src) s) fun t =>
        t.val Obj.CLAMP_STATE c = 0 ∧
        (∀ i, i < 4 →
          ((s.nat Obj.CLAMP_SOURCE c).testBit i = true → (t.nat Obj.CLAMP_SOURCE c).testBit i = true) ∧
          (src.getLsbD i = true → (s.cl c).latched.getLsbD i = false → (t.nat Obj.CLAMP_SOURCE c).testBit i = true) ∧
          (src.getLsbD i = false → (t.nat Obj.CLAMP_SOURCE c).testBit i = (s.nat Obj.CLAMP_SOURCE c).testBit i)) ∧
        t.val Obj.CLAMP_COUNT c = (s.val Obj.CLAMP_COUNT c + 1) % 2 ^ Obj.CLAMP_COUNT.ty.bits ∧
        (∀ i, i < 4 → (t.inp (4 * c + i)).nbrTo =
          if src.getLsbD i then (s.inp (4 * c + i)).nbrTo else s.absSample sample + 256) ∧
        (∀ i, i < 4 → (0 < sample.val → Flag.any (t.condAt (4 * c + i) 0) Flag.clamp = true) ∧
          (src.getLsbD i = false → Flag.any (t.condAt (4 * c + i) 0) Flag.nbr = true)) ∧
        (∃ e l, t.sdp.ring = e :: l ∧ e.code = 0x1001 ∧ e.kind = 2 ∧ e.num = c) ∧
        keepsVals s t [Obj.CLAMP_STATE, Obj.CLAMP_SOURCE, Obj.CLAMP_COUNT] ∧
        t = { s with vals := t.vals, inputs := t.inputs, sdp := t.sdp }) ∧
      (s.on Obj.CLAMP_STATE c = false → exec (.clampEpisodeEnd c sample src) s = .next s) ∧
      (goes (exec (.nbrPeriodEnd c) s) fun t =>
        (∀ i, i < 4 → (t.inp (4 * c + i)).nbrTo =
          if (s.inp (4 * c + i)).nbrTo ≤ (s.clk.ord + 1) * 4096 then 0 else (s.inp (4 * c + i)).nbrTo) ∧
        t = { s with inputs := t.inputs }) ∧
      (∀ bits, accepts s r (objAddr 0x2011 0 2 c) (leBytes 1 bits) = true → goes (exec (.clampSourceClear r c bits) s) fun t =>
        (∀ i, i < 4 → (t.nat Obj.CLAMP_SOURCE c).testBit i = ((s.nat Obj.CLAMP_SOURCE c).testBit i && !bits.testBit i)) ∧
        answered t St.OK ∧ keepsVals s t [Obj.CLAMP_SOURCE] ∧ t = { s with vals := t.vals, sdp := t.sdp })) ∧
  (∀ (s : State) (p : Fin 4) (level : Bool) (sample : Fin 4096) (width : Nat),
      let at16 := s.absSample sample + 16
      let active := level != bitOf (s.nat Obj.BLANK_POLARITY) p
      (active = true ∨ 2 ≤ width → exec (.blankPinEdge p level sample width) s =
        .next (s.setPin p fun x => { x with wait := x.wait ++ [(at16, level)] })) ∧
      (active = false → width < 2 → goes (exec (.blankPinEdge p level sample width) s) fun t =>
        t = { s with pins := t.pins, freeCtr := t.freeCtr } ∧
        let start := match (s.pin p).wait.getLast? with | some e => e.1 | none => at16 - width
        ∃ n, n < 3 ∧ (t.pin p).wait = (s.pin p).wait.dropLast ++
          if n = 0 then [] else [(start, !level), (start + n, level)]) ∧
      ((s.pin p).wait = [] → exec (.blankApply p) s = .next s) ∧
      (∀ a l w, (s.pin p).wait = (a, l) :: w → a / 4096 ≤ s.clk.ord → goes (exec (.blankApply p) s) fun t =>
        (t.pin p).wait = w ∧ (t.pin p).at 4095 = l ∧ t = { s with pins := t.pins }) ∧
      (∀ a l w, (s.pin p).wait = (a, l) :: w → s.clk.ord < a / 4096 → exec (.blankApply p) s = .next s))

/-- 03 R78-R85, R89: what a feed's comparator, its rail and its enable do. The comparator reads a current at the limit from `FEED_LIMIT`
on and open below `FEED_OPEN_LIMIT`. The fourth open reading in a row faults a feed `OPEN`, the fourth normal one brings it back, the
25th limiting one latches it off and opens its settle window; a low rail switches every feed that is on to `RAIL_LOW`, and its return
switches the enabled ones on again (a feed latched off before keeps its latch, which only a write or a reset releases by R80: the
model's reading of the two rules, assumption log 75). -/
def Obligations.FeedsFollowTheirComparators : Prop :=
  ∀ (s : State) (r : Role) (n : Ch) (d : Rd) (c : Nat),
    let st := s.val Obj.FEED_STATE n
    let x := s.inp n
    let runs := Mode.feeds s.mode && s.inService n
    let atLimit := 1000 * s.nat Obj.FEED_LIMIT n ≤ c
    let isOpen := c < 1000 * s.nat Obj.FEED_LIMIT n ∧ c < 1000 * s.nat Obj.FEED_OPEN_LIMIT n
    let normal := c < 1000 * s.nat Obj.FEED_LIMIT n ∧ 1000 * s.nat Obj.FEED_OPEN_LIMIT n ≤ c
    let faults (t : State) (k : Nat) : Prop :=
      t.val Obj.FEED_FAULT_COUNT n = (s.val Obj.FEED_FAULT_COUNT n + k) % 2 ^ Obj.FEED_FAULT_COUNT.ty.bits
    let step (P : State → Prop) : Prop := goes (exec (.feedComparatorSample n c) s) P
    (runs = true → st = 1 → x.openRun = 3 → isOpen → step fun t => t.val Obj.FEED_STATE n = 2 ∧ faults t 1 ∧
      Flag.any (t.condAt n 0) Flag.feed = true) ∧
    (runs = true → st = 1 → x.openRun < 3 → isOpen → step fun t =>
      t.val Obj.FEED_STATE n = 1 ∧ (t.inp n).openRun = x.openRun + 1 ∧ t = { s with inputs := t.inputs }) ∧
    (runs = true → st = 1 → normal → step fun t => t.val Obj.FEED_STATE n = 1 ∧ (t.inp n).openRun = 0 ∧
      t = { s with inputs := t.inputs }) ∧
    (runs = true → st = 2 → x.normRun = 3 → normal → step fun t => t.val Obj.FEED_STATE n = 1) ∧
    (runs = true → st = 2 → x.normRun < 3 → normal → step fun t => t.val Obj.FEED_STATE n = 2 ∧ (t.inp n).normRun = x.normRun + 1) ∧
    (runs = true → st = 2 → isOpen → step fun t => t.val Obj.FEED_STATE n = 2 ∧ (t.inp n).normRun = 0) ∧
    (runs = true → (st = 1 ∨ st = 2) → x.limitRun = 0 → atLimit → step fun t => t.val Obj.FEED_STATE n = 3 ∧ (t.inp n).limitRun = 1) ∧
    (runs = true → st = 3 → x.limitRun = 3 → atLimit → step fun t => t.val Obj.FEED_STATE n = 3 ∧ faults t 1) ∧
    (runs = true → st = 3 → x.limitRun = 24 → atLimit → step fun t =>
      t.val Obj.FEED_STATE n = 4 ∧ faults t 1 ∧ t.val Obj.EXC_REMAINING n = s.val Obj.EXC_SETTLE n) ∧
    (runs = true → st = 3 → 0 < x.limitRun → x.limitRun < 4 → ¬ atLimit → step fun t => t.val Obj.FEED_STATE n = 1 ∧
      t.val Obj.FEED_LIMIT_COUNT n = (s.val Obj.FEED_LIMIT_COUNT n + 1) % 2 ^ Obj.FEED_LIMIT_COUNT.ty.bits) ∧
    (runs = true → st = 3 → 4 ≤ x.limitRun → ¬ atLimit → step fun t => t.val Obj.FEED_STATE n = 1 ∧
      t.val Obj.FEED_LIMIT_COUNT n = s.val Obj.FEED_LIMIT_COUNT n) ∧
    ((runs = false ∨ feedPassing st = false) → exec (.feedComparatorSample n c) s = .next s) ∧
    (feedPassing st = true → atLimit → exec (.feedFoldBack ⟨n, c⟩) s = .next (s.setInp n fun x => { x with foldedBack := true })) ∧
    ((feedPassing st = false ∨ ¬ atLimit) → exec (.feedFoldBack ⟨n, c⟩) s = .next s) ∧
    (∀ v, v < 256 → accepts s r (objAddr 0x2030 0 1 n) (leBytes 1 v) = true → goes (exec (.feedEnable r n v) s) fun t =>
      t.accepted Obj.FEED_ENABLE n = v ∧ t.val Obj.FEED_STATE n = st ∧ answered t St.OK ∧
      t = { s with staged := t.staged, sdp := t.sdp }) ∧
    (s.on Obj.VFEED_LOW d = false → s.mode ≠ 11 → goes (exec (.vfeedLowSet d) s) fun t =>
      t.val Obj.VFEED_LOW d = 1 ∧ ∀ i, i < 32 → t.val Obj.FEED_STATE (32 * d + i) =
        if s.val Obj.FEED_STATE (32 * d + i) = 0 then 0 else 5) ∧
    (s.on Obj.VFEED_LOW d = true → s.mode ≠ 11 → goes (exec (.vfeedLowClear d) s) fun t =>
      t.val Obj.VFEED_LOW d = 0 ∧ ∀ i, i < 32 →
        let m := 32 * d.val + i
        (s.val Obj.FEED_STATE m ≠ 5 ∨ s.on Obj.FEED_ENABLE m = false → t.val Obj.FEED_STATE m = s.val Obj.FEED_STATE m) ∧
        (s.val Obj.FEED_STATE m = 5 → s.on Obj.FEED_ENABLE m = true → (s.inp m).latched = false →
          t.val Obj.FEED_STATE m = 1 ∧ t.val Obj.EXC_REMAINING m = s.val Obj.EXC_SETTLE m) ∧
        (s.val Obj.FEED_STATE m = 5 → s.on Obj.FEED_ENABLE m = true → (s.inp m).latched = true →
          t.val Obj.FEED_STATE m = 4 ∧ t.val Obj.EXC_REMAINING m = s.val Obj.EXC_SETTLE m)) ∧
    (s.val Obj.EXC_REMAINING n ≤ 1 → exec (.excWindowEnd n) s = .next (s.setVal Obj.EXC_REMAINING 0 n)) ∧
    (1 < s.val Obj.EXC_REMAINING n → exec (.excWindowEnd n) s = .next s)

/-! ### Housekeeping (04) -/

/-- 04 R95-R105: a pass starts at its first enabled entry, once at a boundary that is due, with the commits taken, or is counted as an
overrun while one runs; a burst of the averaging count publishes the mean of each member's conversions with the next generation; an
urgent request is queued and takes the converter, where it runs, from the burst that runs. -/
def Obligations.HousekeepingConverters : Prop :=
  ∀ (s : State) (r : Role) (h : Hk),
    let x := s.hk h
    let p := s.nat Obj.HK_SEQ_PERIOD h
    let begins := s.hkRuns h = true ∧ x.startOrd ≠ s.clk.ord + 1 ∧
      ((p ≠ 0 ∧ s.tick % p = 0) ∨ (p = 0 ∧ x.passing = false ∧ x.endOrd ≤ s.clk.ord))
    let src := x.word h % 256
    let clear (q : Nat) : Prop := hkIsFeed h q = true → s.val Obj.EXC_REMAINING (32 * h + q) = 0
    let result (t : State) (q : Nat) (codes : List Int) : Prop :=
      slice (t.blob Obj.HK_RESULT h (q + 1)) 4 2 = leInt 2 (hkMean codes) ∧
      slice (t.blob Obj.HK_RESULT h (q + 1)) 6 2 = leBytes 2 (if 65535 ≤ s.hkGen h q then 1 else s.hkGen h q + 1) ∧
      slice (t.blob Obj.HK_RESULT h (q + 1)) 10 6 = leBytes 6 s.tick
    (∀ i, begins → x.passing = false → x.commit = 0 → x.burst = .none → x.queue = [] →
      x.nextEntry h 0 = some i → goes (exec (.hkPassStart h) s) fun t =>
        (t.hk h).passing = true ∧ (t.hk h).entry = i ∧ (t.hk h).burst = .seq ∧ t.val Obj.HK_STATE h = 2 ∧
        (t.hk h).startOrd = s.clk.ord + 1 ∧ keepsVals s t [Obj.HK_STATE] ∧ t = { s with vals := t.vals, hks := t.hks }) ∧
    (begins → x.passing = false → 0 < x.commit → goes (exec (.hkPassStart h) s) fun t =>
      (t.hk h).commit = 0 ∧ (t.hk h).seqLen = s.nat Obj.HK_SEQ_LENGTH h ∧
      t.val Obj.HK_SEQ_GEN h = (s.val Obj.HK_SEQ_GEN h + x.commit) % 2 ^ Obj.HK_SEQ_GEN.ty.bits) ∧
    (begins → x.passing = true → exec (.hkPassStart h) s =
      .next ((s.setHk h fun x => { x with startOrd := s.clk.ord + 1 }).inc Obj.HK_OVERRUN_COUNT h)) ∧
    (¬ begins → exec (.hkPassStart h) s = .next s) ∧
    (∀ codes, x.burst = .seq → x.member = 0 → hkIsGroup h src = false → codes.length = hkAvg (x.word h) → clear src →
      goes (exec (.hkBurstDone h [codes]) s) fun t => result t src codes) ∧
    (∀ codes, x.burst = .seq → hkIsGroup h src = true → codes.length = (x.remaining h).length →
      (∀ l ∈ codes, l.length = hkAvg (x.word h)) → (∀ q ∈ x.remaining h, clear q) →
      goes (exec (.hkBurstDone h codes) s) fun t => ∀ j, j < codes.length → result t (nth 0 (x.remaining h) j) (nth [] codes j)) ∧
    (∀ codes, x.burst = .seq → x.member = 0 → hkIsFeed h src = true → codes.length = hkAvg (x.word h) →
      s.val Obj.EXC_REMAINING (32 * h + src) ≠ 0 → goes (exec (.hkBurstDone h [codes]) s) fun t => t.blobs = s.blobs ∧
        t.val Obj.HK_DISCARD_COUNT h = (s.val Obj.HK_DISCARD_COUNT h + 1) % 2 ^ Obj.HK_DISCARD_COUNT.ty.bits) ∧
    (∀ codes q d, x.burst = .urgent q d → codes.length = hkAvg (s.nat Obj.HK_URGENT_CFG h) → clear q →
      goes (exec (.hkBurstDone h [codes]) s) fun t => result t q codes) ∧
    (accepts s r (objAddr 0x2803 0 10 h) [1] = true → goes (exec (.hkSeqCommit r h) s) fun t =>
      (t.hk h).commit = x.commit + 1 ∧ (t.hk h).seq = x.seq ∧ answered t St.OK ∧ t = { s with hks := t.hks, sdp := t.sdp }) ∧
    (∀ src, src < 256 → accepts s r (objAddr 0x2806 0 10 h) (leBytes 1 src) = true → x.queue.length < 4 →
      (∀ q ∈ x.queue, q.source ≠ src) → goes (exec (.hkUrgentRequest r h src) s) fun t =>
        (t.hk h).queue = x.queue ++ [{ source := src, fromDict := true }] ∧ answered t St.OK ∧
        t = { s with hks := t.hks, sdp := t.sdp }) ∧
    (∀ codes q l, s.hkRuns h = true → x.queue = q :: l → x.burst = .none → exec (.hkUrgentStart h codes) s =
      .next ((s.setHk h fun x => { x with queue := l, burst := .urgent q.source q.fromDict, faulted := [] }).setVal Obj.HK_STATE 4 h)) ∧
    (s.hkRuns h = false → ∀ codes, exec (.hkUrgentStart h codes) s = .next s) ∧
    (∀ codes q l, s.hkRuns h = true → x.queue = q :: l → x.burst = .seq → x.mayAbort h q = true →
      codes.length < (x.remaining h).length → (∀ c ∈ codes, c.length = hkAvg (x.word h)) →
      goes (exec (.hkUrgentStart h codes) s) fun t => (t.hk h).queue = l ∧ (t.hk h).burst = .urgent q.source q.fromDict ∧
        (t.hk h).entry = x.entry ∧ (t.hk h).member = x.member + codes.length ∧ t.val Obj.HK_STATE h = 4 ∧
        t.val Obj.HK_ABORT_COUNT h = (s.val Obj.HK_ABORT_COUNT h + 1) % 2 ^ Obj.HK_ABORT_COUNT.ty.bits) ∧
    (s.hkRuns h = true → s.on Obj.HK_URGENT_ON_FAULT h = true → x.queue.length < 4 → (∀ q ∈ x.queue, q.source ≠ hkCentre h) →
      goes (exec (.temperatureComparatorTrip h) s) fun t =>
        (t.hk h).queue = x.queue ++ [{ source := hkCentre h, fromDict := false }] ∧ t = { s with hks := t.hks }) ∧
    (s.hkRuns h = true → s.on Obj.HK_URGENT_ON_FAULT h = true → 4 ≤ x.queue.length → (∀ q ∈ x.queue, q.source ≠ hkCentre h) →
      exec (.temperatureComparatorTrip h) s = .next (s.inc Obj.HK_URGENT_DROP_COUNT h)) ∧
    ((s.hkRuns h = false ∨ s.on Obj.HK_URGENT_ON_FAULT h = false) → exec (.temperatureComparatorTrip h) s = .next s)

/-! ### Regions, contexts, containment (01, 05, 06, 20, 21) -/

/-- 05 R120, R125: a restart is over with its last tick; a complete spectra period is counted, every input's number of ticks taken is
shown, its accumulators are cleared, and the spectra of the inputs of the mask that were in service at its last sampling tick wait for
the engines. 06 R140, R149, R152, R153: writes and commands of contexts wait for the boundary; there each command
changes only the contexts for which it has a move, and only in its range; a boost level falls after its quiet ticks. -/
def Obligations.RegionsAndContexts : Prop :=
  (∀ (s : State) (g : Rg),
      (s.val Obj.WARM_REMAINING g ≤ 1 → exec (.warmEnd g) s = .next (s.setVal Obj.WARM_REMAINING 0 g)) ∧
      (1 < s.val Obj.WARM_REMAINING g → exec (.warmEnd g) s = .next s) ∧
      ((s.rg g).specLen < s.nat Obj.SPEC_INT_TICKS → exec (.spectraPeriodEnd g) s = .next s) ∧
      ((s.rg g).specOn = true → 0 < (s.rg g).specLen → s.nat Obj.SPEC_INT_TICKS ≤ (s.rg g).specLen →
        goes (exec (.spectraPeriodEnd g) s) fun t =>
          (t.rg g).specOn = false ∧ (t.rg g).specLen = 0 ∧
          (∀ i, i < 16 → (t.inp (16 * g + i)).s1 = [] ∧ (t.inp (16 * g + i)).s2 = [] ∧ (t.inp (16 * g + i)).mEff = 0) ∧
          t.win.waiting.length = s.win.waiting.length +
            ((List.range 16).filter fun i => maskHas (s.blob Obj.SPEC_INPUT_MASK) (16 * g + i) &&
              !(s.infoAt 1).out.contains (16 * g + i)).length ∧
          (∀ i, i < 16 → t.val Obj.SPEC_LAST_M (16 * g + i) = (s.inp (16 * g + i)).mEff) ∧
          (((s.rg g).specFirst, (s.rg g).specLen) ∉ s.periods → t.val Obj.SPEC_PERIOD_COUNT =
            (s.val Obj.SPEC_PERIOD_COUNT + 1) % 2 ^ Obj.SPEC_PERIOD_COUNT.ty.bits) ∧ keepsMem s t)) ∧
  (∀ (s : State) (r : Role) (n : Ch) (k : Se) (first last f : Fin 2048),
      let queued (o : Host.Outcome State Fault Refusal) (q : CtxWrite) : Prop := goes o fun t =>
        t.ctxQueue = s.ctxQueue ++ [q] ∧ answered t St.OK ∧ t = { s with ctxQueue := t.ctxQueue, sdp := t.sdp }
      let takesCmd (cmd arg : Nat) (o : Host.Outcome State Fault Refusal) : Prop :=
        accepts s .owner (objAddr 0x4032 0 1 n) (leBytes 8 (ctxCmdWord cmd arg first last)) = true →
          queued o (.cmd n (ctxCmdWord cmd arg first last))
      let ctxOf (t : State) (k c : Nat) : Ctx := smGet {} (t.sl k).ctx c
      let old := ctxOf s (f / 8) (8 * n + f % 8)
      let moves (cmd arg : Nat) (new : Ctx) : Prop :=
        s.ctxQueue = [.cmd n (ctxCmdWord cmd arg f f)] → goes (exec .suppCtxApply s) fun t =>
          ctxOf t (f / 8) (8 * n + f % 8) = new ∧ t.ctxQueue = [] ∧
          (∀ k c, ¬(k = f.val / 8 ∧ c = 8 * n.val + f.val % 8) → ctxOf t k c = ctxOf s k c) ∧
          t = { s with ctxQueue := [], slices := t.slices, vals := t.vals }
      (∀ v : BitVec 128, accepts s r (objAddr 0x4031 0 6 k) (leBytes 16 v.toNat) = true →
        queued (exec (.suppCtxWrite r k v) s) (.set k (s.nat Obj.SUPP_CTX_SELECT k) (Ctx.ofWord v.toNat))) ∧
      takesCmd 1 0 (exec (.ctxHold n first last) s) ∧ takesCmd 2 0 (exec (.ctxRelease n first last) s) ∧
      takesCmd 3 0 (exec (.ctxMask n first last) s) ∧ takesCmd 4 0 (exec (.ctxUnmask n first last) s) ∧
      takesCmd 5 0 (exec (.ctxReseed n first last) s) ∧
      (∀ x : BitVec 8, takesCmd 6 x.toNat (exec (.ctxSetK n first last x) s)) ∧
      moves 1 0 (if old.state = 1 ∨ old.state = 2 then { old with state := 3 } else old) ∧
      moves 2 0 (if old.state = 3 then { old with state := 2 } else old) ∧
      moves 3 0 { old with state := 4, iso := false } ∧
      (old.state = 4 → old.iso = false → s.inService n = true →
        moves 4 0 { old with state := 1, warm := (s.liveVal Obj.SUPP_WARM_TICKS (f / 8 / 16)).toNat }) ∧
      (old.state = 4 → old.iso = false → s.inService n = false → moves 4 0 { old with iso := true }) ∧
      (old.state ≠ 4 → moves 4 0 old) ∧
      (old.iso = true → moves 4 0 old) ∧
      moves 5 0 (if old.state = 1 ∨ old.state = 2 ∨ old.state = 3 then { old with state := 0 } else old) ∧
      (∀ x : BitVec 8, moves 6 x.toNat (if old.state = 4 then old else { old with k := x.toNat })) ∧
      (0 < s.nat Obj.SUPP_BOOST k → s.nat Obj.SUPP_BOOST_RELEASE ≤ (s.sl k).quiet → goes (exec (.suppBoostFall k) s) fun t =>
        t.nat Obj.SUPP_BOOST k = s.nat Obj.SUPP_BOOST k - 1 ∧ (t.sl k).quiet = 0 ∧ keepsVals s t [Obj.SUPP_BOOST] ∧
        t = { s with vals := t.vals, slices := t.slices, sdp := t.sdp }) ∧
      ((s.nat Obj.SUPP_BOOST k = 0 ∨ (s.sl k).quiet < s.nat Obj.SUPP_BOOST_RELEASE) → exec (.suppBoostFall k) s = .next s))

/-- 01 R16, R17, R20, R21, R30; 21 R496, R497: isolations and quarantines wait for the boundary; there the element is out and its inputs
are out of service, and with the last of the eight dies the module leaves modes 2 to 9 for SAFE. A release returns a die through a soft reset; a stuck converter's channel is quarantined as `FAULTED`. 20
R476-R478: a soft reset waits for the boundary under a new action; there a channel's range controller and trigger path start anew
and the action ends, and a die is held in reset until its crossing has shaken hands and its PLL is locked. -/
def Obligations.ElementsLeaveAndReset : Prop :=
  (∀ (s : State) (r : Role) (d : Rd) (n : Ch),
      (accepts s r (objAddr 0x1081 0 4 d) [1] = true → s.dieOut d = false → goes (exec (.dieIsolate r d) s) fun t =>
        t.val Obj.DIE_STATE d = 1 ∧ t.val Obj.DIE_ISOLATE d = 1 ∧ t.cont.isolating = s.cont.isolating ++ [(d.val, 0)] ∧
        t.cont.out = s.cont.out ∧ answered t St.OK ∧ keepsVals s t [Obj.DIE_STATE, Obj.DIE_ISOLATE] ∧
        t = { s with vals := t.vals, cont := t.cont, sdp := t.sdp }) ∧
      (accepts s r (objAddr 0x1081 0 4 d) [0] = true → s.dieOut d = true → goes (exec (.dieRelease r d) s) fun t =>
        t.val Obj.DIE_STATE d = 0 ∧ t.val Obj.DIE_ISOLATE d = 0 ∧ d.val ∈ t.cont.returning ∧
        t.cont.isolating = s.cont.isolating.filter (fun e => e.1 != d.val) ∧ t.cont.out = s.cont.out ∧ answered t St.OK ∧
        t = { s with vals := t.vals, cont := t.cont, sdp := t.sdp }) ∧
      (∀ code, s.cont.isolating = [(d.val, code)] → s.cont.returning = [] → s.dieOut d = true → s.dieOff d = false →
        (s.mode < 2 ∨ 9 < s.mode ∨ ∃ e, e < 8 ∧ e ≠ d.val ∧ s.dieOff e = false) →
        (∀ m, m < 256 → s.inService m = s.served m) → goes (exec (.dieIsolationApply d) s) fun t =>
          t.dieOff d = true ∧ t.cont.isolating = [] ∧ t.val Obj.PLL_LOCK d = 0 ∧
          (∀ m, m < 256 → t.inService m = (s.inService m && m / 32 != d)) ∧ t.mode = s.mode) ∧
      (∀ code, s.cont.isolating = [(d.val, code)] → s.cont.returning = [] → s.dieOut d = true → s.dieOff d = false →
        2 ≤ s.mode → s.mode ≤ 9 → (∀ e, e < 8 → e ≠ d.val → s.dieOff e = true) → goes (exec (.dieIsolationApply d) s) fun t =>
          t.dieOff d = true ∧ t.cont.isolating = [] ∧ t.mode = 1) ∧
      (s.cont.isolating = [] → s.cont.returning = [d.val] → s.dieOut d = false → goes (exec (.dieIsolationApply d) s) fun t =>
        t.dieOff d = false ∧ t.cont.returning = [] ∧ smGet 0 t.cont.resetting d = s.clk.ord + 1) ∧
      (s.cont.isolating = [] → s.cont.returning = [] → exec (.dieIsolationApply d) s = .next s) ∧
      (accepts s r (objAddr 0x1088 0 1 n) [1] = true → s.val Obj.CH_STATE n = 0 → goes (exec (.chQuarantine r n) s) fun t =>
        t.val Obj.CH_STATE n = 1 ∧ t.val Obj.CH_QUARANTINE n = 1 ∧ t.cont.quarantining = s.cont.quarantining ++ [(n.val, 0)] ∧
        t.cont.quar = s.cont.quar ∧ answered t St.OK ∧ t = { s with vals := t.vals, cont := t.cont, sdp := t.sdp }) ∧
      (accepts s r (objAddr 0x1088 0 1 n) [0] = true → s.val Obj.CH_STATE n ≠ 0 → goes (exec (.chRelease r n) s) fun t =>
        t.val Obj.CH_STATE n = 0 ∧ t.val Obj.CH_QUARANTINE n = 0 ∧ 256 + n.val ∈ t.cont.returning ∧ t.cont.quar = s.cont.quar ∧
        answered t St.OK ∧ t = { s with vals := t.vals, cont := t.cont, sdp := t.sdp }) ∧
      (∀ code, s.cont.quarantining = [(n.val, code)] → s.cont.returning = [] → s.val Obj.CH_STATE n ≠ 0 →
        n.val ∉ s.cont.quar → (∀ m, m < 256 → s.inService m = s.served m) → goes (exec (.chQuarantineApply n) s) fun t =>
          n.val ∈ t.cont.quar ∧ t.cont.quarantining = [] ∧ (∀ m, m < 256 → t.inService m = (s.inService m && m != n)) ∧
          t.mode = s.mode) ∧
      (s.cont.quarantining = [] → s.cont.returning = [256 + n.val] → s.val Obj.CH_STATE n = 0 →
        goes (exec (.chQuarantineApply n) s) fun t =>
          n.val ∉ t.cont.quar ∧ t.cont.returning = [] ∧ (t.inp n).range = 3) ∧
      (s.converterRuns n = true → s.rangeLock n = none → (s.inp n).range = 0 → 65536 ≤ (s.inp n).stuckRun + 4096 →
        s.val Obj.CH_STATE n = 0 → goes (exec (.converterStuck n) s) fun t =>
          t.val Obj.CH_STATE n = 2 ∧ t.val Obj.CH_QUARANTINE n = 1 ∧ (t.inp n).stuckRun = 0 ∧
          t.cont.quarantining = s.cont.quarantining ++ [(n.val, 0x2110)]) ∧
      ((s.inp n).range ≠ 0 → exec (.converterStuck n) s = .next s)) ∧
  (∀ (s : State) (r : Role) (d : Rd) (n : Ch),
      (∀ e : ResetElem, accepts s r (objAddr 0x1050 0 (resetScope e).1 (resetScope e).2) [1] = true →
        goes (exec (.softReset r e) s) fun t => ∃ a, a ≠ 0 ∧ t.cont.softs = s.cont.softs ++ [((resetScope e).1, (resetScope e).2, a)] ∧
          t.sdp.answer = some { status := St.OK, action := a } ∧
          t = { s with cont := t.cont, sdp := t.sdp, freeCtr := t.freeCtr }) ∧
      (s.cont.softs = [] → exec .softResetApply s = .next s) ∧
      (∀ a, a ≠ 0 → s.cont.softs = [(1, n.val, a)] → s.dieOut (n / 32) = false → goes (exec .softResetApply s) fun t =>
        t.cont.softs = [] ∧ (t.inp n).range = 3 ∧ t.val Obj.RANGE_NOW n = 3 ∧ (t.trigCh n).armedR = true ∧ (t.trigCh n).rearm = 0 ∧
        ∃ e l, t.sdp.ring = e :: l ∧ e.code = 0xD001 ∧ e.arg.take 5 = leBytes 4 a ++ [0]) ∧
      (∀ a, s.cont.softs = [(4, d.val, a)] → s.dieOut d = false → goes (exec .softResetApply s) fun t =>
        t.cont.softs = [] ∧ smGet 0 t.cont.resetting d = s.clk.ord + 1 ∧ t.val Obj.PLL_LOCK d = 0 ∧
        t.cont.dieActions = s.cont.dieActions ++ [(d.val, a)]) ∧
      (smGet 0 s.cont.resetting d ≠ 0 → d.val ∈ s.cont.shaken → s.on Obj.PLL_LOCK d = true →
        goes (exec (.dieSoftResetDone d) s) fun t =>
          smGet 0 t.cont.resetting d = 0 ∧ (∀ i, i < 32 → (t.inp (32 * d + i)).range = 3) ∧ ∀ x ∈ t.cont.dieActions, x.1 ≠ d.val) ∧
      (d.val ∉ s.cont.shaken → exec (.dieSoftResetDone d) s = .next s))

/-! ### Triggers and the Domino bus (10) -/

/-- 10 R216-R221, R227: the samples up to a crossing reach the edge comparator in turn. A crossing of a selected direction that is armed
clears its armed bit, and the hysteresis sets it again; blanked where blanking gates the channel, or inhibited, it is only counted;
within the re-arm it is counted as lost; else it issues a primitive stamped at the crossing, begins the channel's re-arm and goes to
the cluster. 10 R227, R229: a re-arm that ends within the tick is over, one that does not goes on; the prescale level falls by one
after its quiet ticks. -/
def Obligations.TriggersAndRearms : Prop :=
  (∀ (s : State) (n : Ch) (x : CrossingIn),
      let h := trigSet (holed (s.trigHoles n) (slice (s.liveBlob Obj.TRIG_FILTER_SHADOW (n / 16)) 0 512)) (s.nat Obj.TRIG_FILTER_SEL n)
      let e := envelope3 h x.lin
      let e0 := nth 0 e 0
      let e1 := nth 0 e 1
      let level := s.nat Obj.TRIG_LEVEL n
      let hyst := s.nat Obj.TRIG_HYST n
      let c := s.trigCh n
      let up := s.nat Obj.TRIG_EDGE n ≠ 1 ∧ c.armedR = true ∧ e1 < level ∧ level ≤ e0
      let down := s.nat Obj.TRIG_EDGE n ≠ 0 ∧ c.armedF = true ∧ level ≤ e1 ∧ e0 < level
      let gated := s.blankedAt n x.sample = true ∧ s.on Obj.BLANK_GATES_TDC n = true
      let inhibited := Flag.any (s.inhibits n x.sample) (BitVec.ofInt 16 (s.val Obj.TRIG_INHIBIT_MASK n)) = true
      let u := if s.val Obj.TRIG_INTERP n = 1 then placeParabola (nth 0 e 2 : Nat) (e1 : Nat) (e0 : Nat) level
        else placeLinear (e1 : Nat) (e0 : Nat) level
      let stamp := s.timeAt x.sample + u - 128 - 3904
      let issue := stamp / 128 + 48
      let runs := Mode.record s.mode && s.on Obj.TRIG_ENABLE n && s.converterRuns n && s.inService n
      let fresh := runs = true ∧ c.seen ≤ s.absSample x.sample ∧ x.lin.length ≤ 64
      let crosses := fresh ∧ (up ∨ down)
      let bump (o : ObjDef) (k sub : Nat) (t : State) : Prop := t.val o k sub = (s.val o k sub + 1) % 2 ^ o.ty.bits
      let does (P : State → Prop) : Prop := goes (exec (.trigCrossing n x) s) fun t =>
        P t ∧ (t.trigCh n).seen = s.absSample x.sample + 1 ∧ t = { s with vals := t.vals, trig := t.trig }
      (runs = false → exec (.trigCrossing n x) s = .next s) ∧
      (runs = true → s.absSample x.sample < c.seen → goes (exec (.trigCrossing n x) s) fun t =>
        t.trigCh n = c ∧ t.trig.flight = s.trig.flight ∧ t = { s with trig := t.trig }) ∧
      (fresh → does fun t =>
        ((t.trigCh n).armedR = true ↔ (s.nat Obj.TRIG_EDGE n ≠ 1 ∧ e0 + hyst < level) ∨ (c.armedR = true ∧ ¬ up)) ∧
        ((t.trigCh n).armedF = true ↔ (s.nat Obj.TRIG_EDGE n ≠ 0 ∧ level + hyst < e0) ∨ (c.armedF = true ∧ ¬ down))) ∧
      (fresh → ¬ up → ¬ down → does fun t => t.vals = s.vals ∧ t.trig.flight = s.trig.flight ∧ (t.trigCh n).rearm = c.rearm) ∧
      (crosses → gated → does fun t => bump Obj.BLANK_HIT_DROP_COUNT n 0 t ∧ keepsVals s t [Obj.BLANK_HIT_DROP_COUNT] ∧
        t.trig.flight = s.trig.flight ∧ (t.trigCh n).rearm = c.rearm) ∧
      (crosses → ¬ gated → inhibited → does fun t => bump Obj.TRIG_INHIBIT_COUNT n 0 t ∧ keepsVals s t [Obj.TRIG_INHIBIT_COUNT] ∧
        t.trig.flight = s.trig.flight ∧ (t.trigCh n).rearm = c.rearm) ∧
      (crosses → ¬ gated → ¬ inhibited → issue < c.rearm → does fun t => bump Obj.TRIG_LOST_COUNT 0 1 t ∧
        keepsVals s t [Obj.TRIG_LOST_COUNT] ∧ t.trig.flight = s.trig.flight ∧ (t.trigCh n).rearm = c.rearm) ∧
      (crosses → ¬ gated → ¬ inhibited → c.rearm ≤ issue → does fun t =>
        bump Obj.TRIG_PRIM_COUNT n 0 t ∧ bump Obj.TRIG_ISSUED_COUNT 0 1 t ∧ keepsVals s t [Obj.TRIG_PRIM_COUNT, Obj.TRIG_ISSUED_COUNT] ∧
        (t.trigCh n).rearm = issue + max 2 (s.nat Obj.TRIG_REARM 0 1) * 4096 ∧
        ∃ m : MemberTrig, t.trig.flight = s.trig.flight ++ [(1, n.val / 4, m)] ∧ m.stamp = stamp ∧ m.origin = n ∧
          m.member = n.val % 4 ∧ m.level = 0) ∧
      (64 < x.lin.length → smWf {} s.trig.chans = true → ∀ k : Fin 4096, k.val + 1 = x.sample.val → runs = true → c.seen ≤ s.absSample k →
        goes (exec (.trigCrossing n { sample := k, lin := x.lin.tail }) s) fun t =>
          exec (.trigCrossing n x) s = exec (.trigCrossing n x) t)) ∧
  (∀ (s : State) (elem : Nat) (level : Fin 8),
      let after (r : Nat) : Nat := if r ≤ (s.tick + 1) * 4096 then 0 else r
      (level.val = 0 → goes (exec (.trigRearmEnd level elem) s) fun t =>
        (t.trigCh elem).rearm = after (s.trigCh elem).rearm ∧ (∀ m, m ≠ elem → t.trigCh m = s.trigCh m) ∧ t = { s with trig := t.trig }) ∧
      (1 ≤ level.val → level.val ≤ 4 → goes (exec (.trigRearmEnd level elem) s) fun t =>
        (t.coin level elem).rearm = after (s.coin level elem).rearm ∧ (t.coin level elem).win = (s.coin level elem).win ∧
        t = { s with trig := t.trig }) ∧
      (5 ≤ level.val → goes (exec (.trigRearmEnd level elem) s) fun t =>
        smGet 0 t.trig.sources (512 * level.val + elem) = after (smGet 0 s.trig.sources (512 * level.val + elem)) ∧
        t = { s with trig := t.trig }) ∧
      (0 < s.nat Obj.TRIG_PRESCALE_LEVEL → s.nat Obj.TRIG_RR_RELEASE ≤ s.trig.quiet → goes (exec .trigRrRelease s) fun t =>
        t.nat Obj.TRIG_PRESCALE_LEVEL = s.nat Obj.TRIG_PRESCALE_LEVEL - 1 ∧ t.trig.count = 0 ∧ t.trig.changed = s.clk.ord ∧
        t.trig.quiet = 0 ∧ keepsMem s t) ∧
      ((s.nat Obj.TRIG_PRESCALE_LEVEL = 0 ∨ s.trig.quiet < s.nat Obj.TRIG_RR_RELEASE) → exec .trigRrRelease s = .next s))

/-- 10 R222-R225, R227: a level with k = 1 issues with its member; one with more opens a window, that a second member joins; a window
that closes within the tick issues with its k members or more, and not with fewer; a trigger within the re-arm is counted as lost. The
module level issues with an external input or an engine at once, whatever window is open. -/
def Obligations.CoincidenceLevels : Prop :=
  ∀ (s : State) (lvl : CoinLevel) (elem : Nat) (m : MemberTrig),
    let c := CoinLevel.code lvl
    let at_ := s.arrivalAt c m
    let rule := s.coinRule c elem (s.ordOf (m.stamp / 2 ^ 19))
    let left := s.trig.flight.erase (c, elem, m)
    let takes := Mode.record s.mode && s.memberOn c elem m && decide (m.member < 8)
    let issued (t : State) : Prop :=
      t.val Obj.TRIG_ISSUED_COUNT 0 (c + 1) = (s.val Obj.TRIG_ISSUED_COUNT 0 (c + 1) + 1) % 2 ^ Obj.TRIG_ISSUED_COUNT.ty.bits ∧
      keepsVals s t [Obj.TRIG_ISSUED_COUNT]
    (Mode.record s.mode = false → exec (.coinMemberTrigger lvl elem m) s =
      .next (s.setTrig fun x => { x with flight := left })) ∧
    (takes = true → at_ < (s.coin c elem).rearm → goes (exec (.coinMemberTrigger lvl elem m) s) fun t =>
      t.val Obj.TRIG_LOST_COUNT 0 (c + 1) = (s.val Obj.TRIG_LOST_COUNT 0 (c + 1) + 1) % 2 ^ Obj.TRIG_LOST_COUNT.ty.bits ∧
      t.coin c elem = s.coin c elem) ∧
    (takes = true → (s.coin c elem).rearm ≤ at_ → (s.coin c elem).win = none → rule.1 < 2 → c < 4 →
      goes (exec (.coinMemberTrigger lvl elem m) s) fun t => issued t ∧
        (t.coin c elem).rearm = at_ + 2 + max 2 (s.nat Obj.TRIG_REARM 0 (c + 1)) * 4096 ∧
        t.trig.flight = left ++ [((coinUp c elem).1, (coinUp c elem).2.1, { m with member := (coinUp c elem).2.2 })] ∧
        t = { s with vals := t.vals, trig := t.trig }) ∧
    (takes = true → (s.coin c elem).rearm ≤ at_ → (s.coin c elem).win = none → 2 ≤ rule.1 →
      goes (exec (.coinMemberTrigger lvl elem m) s) fun t =>
        (t.coin c elem).win = some { t0 := m.stamp, k := rule.1, w := rule.2, joined := [m] } ∧ t.trig.flight = left ∧
        t = { s with trig := t.trig }) ∧
    (∀ w, takes = true → (s.coin c elem).rearm ≤ at_ → (s.coin c elem).win = some w → m.stamp ≤ w.t0 + 128 * w.w →
      (∀ j ∈ w.joined, j.member ≠ m.member) → goes (exec (.coinMemberTrigger lvl elem m) s) fun t =>
        (t.coin c elem).win = some { w with joined := w.joined ++ [m] } ∧ t = { s with trig := t.trig }) ∧
    (Mode.record s.mode = true → s.memberOn c elem m = true → c = 4 → elem = 0 → (s.coin 4 0).rearm ≤ at_ →
      (8 ≤ m.member ∨ ((s.coin 4 0).win = none ∧ rule.1 < 2)) → goes (exec (.coinMemberTrigger lvl elem m) s) fun t =>
        t.val Obj.TRIG_ISSUED_COUNT 0 5 = (s.val Obj.TRIG_ISSUED_COUNT 0 5 + 1) % 2 ^ Obj.TRIG_ISSUED_COUNT.ty.bits ∧
        (t.coin 4 0).rearm = at_ + 2 + max 2 (s.nat Obj.TRIG_REARM 0 5) * 4096 ∧ (t.coin 4 0).win = (s.coin 4 0).win) ∧
    ((s.coin c elem).win = none → exec (.coinWindowClose lvl elem) s = .next s) ∧
    (∀ w, Mode.record s.mode = true → (s.coin c elem).win = some w → (s.tick + 1) * 4096 ≤ s.coinCloseAt c w →
      exec (.coinWindowClose lvl elem) s = .next s) ∧
    (∀ w, Mode.record s.mode = true → (s.coin c elem).win = some w → s.coinCloseAt c w < (s.tick + 1) * 4096 →
      (s.coin c elem).held = [] →
      (w.joined.length < w.k → goes (exec (.coinWindowClose lvl elem) s) fun t =>
        (t.coin c elem).win = none ∧ (t.coin c elem).rearm = (s.coin c elem).rearm ∧ t = { s with trig := t.trig }) ∧
      (w.k ≤ w.joined.length → c < 4 → goes (exec (.coinWindowClose lvl elem) s) fun t => issued t ∧ (t.coin c elem).win = none ∧
        (t.coin c elem).rearm = s.coinCloseAt c w + 2 + max 2 (s.nat Obj.TRIG_REARM 0 (c + 1)) * 4096 ∧
        (∃ q, t.trig.flight = s.trig.flight ++ [((coinUp c elem).1, (coinUp c elem).2.1, q)] ∧ q.stamp = w.t0 ∧ q.level = c ∧
          q.members = w.joined.length) ∧ t = { s with vals := t.vals, trig := t.trig }))

/-- 10 R230-R235: a message that fails its CRC is discarded and counted by a module that relays nothing; a root's first report opens
the array window; a leaf's confirmation or veto of its own pending candidate waits for the boundary, and one for another stamp is
counted; an array trigger confirms the pending candidate it matches. 10 R237: a stamp later than its departure can have been is counted
and reported. 10 R232, R236: a probe on a lane that advertised `DOMINO_SYM` is answered with an echo of its stamp and of the time it was
held; an echo gives its lane's one-way delay; a lane probes at its entry into `ACTIVE`, and once a second in its module's tick. -/
def Obligations.DominoMessagesAndRoundTrips : Prop :=
  (∀ (s : State) (l : Ln) (m : BitVec 128) (arrival departure : Nat),
      let d := domUnpack m.toNat
      let up := Mode.lanes s.mode && s.laneState l == 6 && !s.laneFlushing l
      let good := up && domCrcOk m.toNat
      let checked := (s.domSeqCheck l m.toNat).domTimeCheck l arrival d
      let e := s.cand d.cand
      let stamp := (recover40 arrival d.stamp).toNat
      let counted (o : Host.Outcome State Fault Refusal) : Prop := o = .next (s.inc Obj.DOMINO_DISCARD_COUNT)
      let decides (t : State) (confirm : Bool) (stamp : Option Nat) (c : Nat) : Prop :=
        t.trig.decisions = s.trig.decisions ++ [{ confirm, cands := [c], stamp, ord := s.clk.ord }] ∧
        t = { s with vals := t.vals, trig := t.trig, sdp := t.sdp }
      let leaf := s.val Obj.DOMINO_ROLE = 0 ∧ s.nat Obj.DOMINO_UP_LANE = l ∧ d.module = s.nat Obj.MODULE_NUMBER ∧
        Mode.record s.mode = true
      (up = true → domCrcOk m.toNat = false → s.val Obj.DOMINO_ROLE ≠ 0 →
        counted (exec (.dominoReport l m arrival) s) ∧ counted (exec (.dominoConfirm l m arrival) s) ∧
        counted (exec (.dominoVeto l m arrival) s) ∧ counted (exec (.dominoArrayTrig l m arrival) s) ∧
        counted (exec (.dominoRate l m arrival) s) ∧ counted (exec (.dominoProbe l m arrival departure) s) ∧
        counted (exec (.dominoEcho l m arrival) s)) ∧
      (good = true → d.type = 1 → s.val Obj.DOMINO_ROLE = 1 → Mode.record s.mode = true → s.domDownLane = some l.val →
        (s.on Obj.ARR_REQUIRE_LOCK = false ∨ bitOf d.qual 15 = false) → s.trig.arrT0 = none →
        (∀ c, s.trig.closedTo = some c → c < stamp) → arrival < stamp + s.nat Obj.ARR_WINDOW + s.nat Obj.ARR_SETTLE → goes (exec (.dominoReport l m arrival) s) fun t =>
          t.trig.arrT0 = some stamp ∧ t.trig.joined.map (fun r => (r.module, r.cand)) = [(d.module, d.cand)] ∧
          t = { s with vals := t.vals, trig := t.trig, sdp := t.sdp }) ∧
      (up = false → exec (.dominoReport l m arrival) s = .next s ∧ exec (.dominoConfirm l m arrival) s = .next s ∧
        exec (.dominoVeto l m arrival) s = .next s ∧ exec (.dominoArrayTrig l m arrival) s = .next s ∧
        exec (.dominoRate l m arrival) s = .next s ∧ exec (.dominoProbe l m arrival departure) s = .next s ∧
        exec (.dominoEcho l m arrival) s = .next s) ∧
      (good = true → leaf → d.type = 2 → e.state = 1 → e.stamp % 2 ^ 40 = d.stamp →
        goes (exec (.dominoConfirm l m arrival) s) fun t => decides t true (some d.stamp) d.cand) ∧
      (good = true → leaf → d.type = 3 → e.state = 1 → e.stamp % 2 ^ 40 = d.stamp →
        goes (exec (.dominoVeto l m arrival) s) fun t => decides t false (some d.stamp) d.cand) ∧
      (good = true → leaf → d.type = 2 → (e.state ≠ 1 ∨ e.stamp % 2 ^ 40 ≠ d.stamp) →
        exec (.dominoConfirm l m arrival) s = .next (checked.inc Obj.DOMINO_LATE_COUNT)) ∧
      (good = true → leaf → d.type = 3 → (e.state ≠ 1 ∨ e.stamp % 2 ^ 40 ≠ d.stamp) →
        exec (.dominoVeto l m arrival) s = .next (checked.inc Obj.DOMINO_LATE_COUNT)) ∧
      (∀ c x, good = true → s.val Obj.DOMINO_ROLE = 0 → s.nat Obj.DOMINO_UP_LANE = l → s.domDownLane = none →
        Mode.record s.mode = true → d.type = 4 → s.spec.cands = [(c, x)] → x.state = 1 →
        x.stamp = (recover40 arrival d.stamp).toNat → goes (exec (.dominoArrayTrig l m arrival) s) fun t => decides t true none c) ∧
      (good = true → d.type = 7 → s.val Obj.DOMINO_ROLE = 1 → s.domDownLane = some l.val →
        exec (.dominoRate l m arrival) s = .next checked) ∧
      (let del := s.nat Obj.DOMINO_LINK_DELAY l
       let future := recover40 arrival d.stamp > (arrival : Int) - del + s.nat Obj.DOMINO_DELAY_TOL
       (del = 0xFFFFFFFF ∨ s.domProbes l = false ∨ ¬ future → s.domTimeCheck l arrival d = s) ∧
       (del ≠ 0xFFFFFFFF → s.domProbes l = true → future →
         (s.domTimeCheck l arrival d).val Obj.DOMINO_TIME_ERR_COUNT =
           (s.val Obj.DOMINO_TIME_ERR_COUNT + 1) % 2 ^ Obj.DOMINO_TIME_ERR_COUNT.ty.bits ∧
         newestIs (s.domTimeCheck l arrival d) 0x7002))) ∧
  (∀ (s : State) (l : Ln) (m : BitVec 128) (arrival departure : Nat),
      let d := domUnpack m.toNat
      let good := Mode.lanes s.mode && s.laneState l == 6 && !s.laneFlushing l && domCrcOk m.toNat
      let checked := (s.domSeqCheck l m.toNat).domTimeCheck l arrival d
      let sends (t : State) (w : DomMsg) : Prop := ∃ q, (t.ln l).ctrl.getLast? = some (max departure (s.ln l).ctrlFree, w.pack q)
      let room := decide (((s.ln l).ctrl.filter fun c => decide (departure < c.1)).length < 16)
      (good = true → d.type = 5 → s.domAdvertised l = true → room = true →
        goes (exec (.dominoProbe l m arrival departure) s) fun t =>
          sends t { type := 6, module := s.nat Obj.MODULE_NUMBER, stamp := d.stamp,
                    qual := (departure - arrival) / 2 ^ 16, arg := departure - arrival } ∧
          t = { s with vals := t.vals, trig := t.trig, lanes := t.lanes, sdp := t.sdp }) ∧
      (good = true → d.type = 5 → s.domAdvertised l = false →
        exec (.dominoProbe l m arrival departure) s = .next checked) ∧
      (good = true → d.type = 6 → s.domProbes l = true → goes (exec (.dominoEcho l m arrival) s) fun t =>
        t.nat Obj.DOMINO_LINK_DELAY l =
          (((arrival : Int) - recover40 arrival d.stamp - (d.qual * 2 ^ 16 + d.arg : Nat)) / 2).toNat) ∧
      (good = true → d.type = 6 → s.domProbes l = false → exec (.dominoEcho l m arrival) s = .next checked) ∧
      (Mode.lanes s.mode = true → s.laneState l = 6 → s.domProbes l = true →
        (smGet 0 s.trig.probed l ≤ (s.ln l).actOrd ∨
          (s.tick % 250000 = 1024 + s.nat Obj.MODULE_NUMBER ∧ smGet 0 s.trig.probed l ≤ s.clk.ord)) → room = true → goes (exec (.dominoProbeSend l departure) s) fun t =>
          sends t { type := 5, module := s.nat Obj.MODULE_NUMBER, stamp := departure } ∧ smGet 0 t.trig.probed l = s.clk.ord + 1 ∧
          t = { s with trig := t.trig, lanes := t.lanes }) ∧
      ((s.laneState l ≠ 6 ∨ s.domProbes l = false ∨ ((s.ln l).actOrd < smGet 0 s.trig.probed l ∧
        (s.tick % 250000 ≠ 1024 + s.nat Obj.MODULE_NUMBER ∨ s.clk.ord < smGet 0 s.trig.probed l))) →
        exec (.dominoProbeSend l departure) s = .next s))

/-- 10 R234, R238, R239; 22 R526: a root's window that closes with its reports confirms them; the wired output follows its pulses; an
edge of the wired input is counted, unless it follows the edge before it by less than 256 TU. -/
def Obligations.ArrayWindowAndWiredPins : Prop :=
  ∀ (s : State),
    (∀ t0 r, s.trig.arrT0 = some t0 → s.trig.joined = [r] → s.trig.held = [] → r.module = s.nat Obj.MODULE_NUMBER →
      s.on Obj.ARR_BROADCAST = false → t0 + s.nat Obj.ARR_WINDOW + s.nat Obj.ARR_SETTLE < s.timeNow + 2 ^ 19 →
      goes (exec .arrWindowClose s) fun t =>
        t.trig.arrT0 = none ∧ t.trig.joined = [] ∧
        t.trig.decisions = s.trig.decisions ++
          [{ confirm := decide (s.nat Obj.ARR_K ≤ 1), cands := [r.cand], stamp := some (r.stamp % 2 ^ 40), ord := s.clk.ord }] ∧
        (s.nat Obj.ARR_K ≤ 1 → t.val Obj.TRIG_ISSUED_COUNT 0 8 =
          (s.val Obj.TRIG_ISSUED_COUNT 0 8 + 1) % 2 ^ Obj.TRIG_ISSUED_COUNT.ty.bits) ∧
        t = { s with vals := t.vals, trig := t.trig }) ∧
    (s.trig.arrT0 = none → exec .arrWindowClose s = .next s) ∧
    (∀ t0, s.trig.arrT0 = some t0 → s.timeNow + 2 ^ 19 ≤ t0 + s.nat Obj.ARR_WINDOW + s.nat Obj.ARR_SETTLE →
      exec .arrWindowClose s = .next s) ∧
    (∀ p r, s.trig.pulses = p :: r → Mode.record s.mode = true → p.1 < (s.tick + 1) * 4096 →
      exec .trgoPulseStart s = .next (s.setTrig fun t => { t with trgo := true })) ∧
    ((∀ p r, s.trig.pulses = p :: r → Mode.record s.mode = false ∨ (s.tick + 1) * 4096 ≤ p.1) → exec .trgoPulseStart s = .next s) ∧
    ((∀ p r, s.trig.pulses = p :: r → s.trig.trgo = false ∨ (s.tick + 1) * 4096 ≤ p.2) → exec .trgoPulseEnd s = .next s) ∧
    (∀ p r, s.trig.pulses = p :: r → s.trig.trgo = true → p.2 < (s.tick + 1) * 4096 →
      exec .trgoPulseEnd s = .next (s.setTrig fun t => { t with trgo := false, pulses := r })) ∧
    (∀ stamp uncal, s.on Obj.TRGI_ENABLE = true → Mode.lanes s.mode = true → Mode.record s.mode = false →
      (∀ l, s.trig.trgiLast = some l → stamp < l ∨ l + 256 ≤ stamp) →
      exec (.trgiEdge stamp uncal) s = .next ((s.setTrig fun t => { t with trgiLast := some stamp }).inc Obj.TRGI_COUNT)) ∧
    (∀ stamp uncal c x, s.on Obj.TRGI_ENABLE = true → Mode.record s.mode = true →
      (∀ l, s.trig.trgiLast = some l → stamp < l ∨ l + 256 ≤ stamp) → s.spec.cands = [(c, x)] → x.state = 1 →
      x.stamp = stamp - s.nat Obj.TRGI_DELAY → goes (exec (.trgiEdge stamp uncal) s) fun t =>
        t.trig.decisions = s.trig.decisions ++ [{ confirm := true, cands := [c], stamp := none, ord := s.clk.ord }] ∧
        t.val Obj.TRGI_COUNT = (s.val Obj.TRGI_COUNT + 1) % 2 ^ Obj.TRGI_COUNT.ty.bits ∧ t.trig.trgiLast = some stamp) ∧
    (∀ stamp uncal l, s.trig.trgiLast = some l → l ≤ stamp → stamp < l + 256 →
      exec (.trgiEdge stamp uncal) s = .next (s.setTrig fun t => { t with trgiLast := some stamp })) ∧
    (∀ stamp uncal, s.on Obj.TRGI_ENABLE = false →
      exec (.trgiEdge stamp uncal) s = .next (s.setTrig fun t => { t with trgiLast := some stamp }))

/-! ### History, coder, records, candidates (11, 12, 13) -/

/-- 11 R244-R246, R249, R263; 12 R277: the slot of a tick is allocated once, in `FILLING`, for the run's inputs in service, and takes
its entry from an older slot; a segment starts at each 32nd tick with the static table where the table set is static; an arbitration
interval serves each user up to its reservation and then by priority, and every user but the history writer counts the intervals it
waited. 11 R257-R262; 12 R282; 13 R290, R295, R304: a record whose window is written is cut and releases its pins, is measured, is
sealed when cut, measured and past its engines' windows, and is exported in order once committed and sealed; none of it in `HALT`. -/
def Obligations.HistoryAndRecords : Prop :=
  (∀ s : State,
      (s.hist.on = true → s.slotOf s.run (s.tick / 64) = none → goes (exec .slotAllocate s) fun t =>
        (∃ x r, t.hist.slots = x :: r ∧ x.j = s.tick / 64 ∧ x.run = s.run ∧ x.state = 1 ∧ x.bits = s.hist.bits ∧
          x.inputs = s.hist.inputs.filter s.inService ∧ x.count = x.inputs.length * s.hist.bits ∧
          t.nat Obj.HIST_SLOT_GRANULES = x.count ∧ ∀ y ∈ r, 0 < y.pins ∨ y.j % 1310720 ≠ x.j % 1310720) ∧
        (∀ y ∈ s.hist.slots, 0 < y.pins → y ∈ t.hist.slots) ∧
        t = { s with hist := t.hist, spec := t.spec, vals := t.vals, poison := t.poison }) ∧
      (s.hist.on = false ∨ (s.slotOf s.run (s.tick / 64)).isSome = true → exec .slotAllocate s = .next s) ∧
      (s.hist.on = true → s.tick = s.nat Obj.HIST_RUN_START ∨ s.tick % 32 = 0 → s.coder.segTick ≠ some s.tick →
        (∀ n ∈ s.hist.inputs, n < 256) → goes (exec .segmentStart s) fun t =>
          t.coder.segTick = some s.tick ∧
          (∀ n ∈ s.hist.inputs, slice (s.liveBlob Obj.CODER_TAB_SHADOW (n / 16)) 0 1 = [0] ∨ s.tick = s.nat Obj.HIST_RUN_START →
            t.val Obj.CODER_SEG_TAB n = 0 ∧ (t.coderIn n).tab = 0 ∧ (t.coderIn n).prices = []) ∧
          t = { s with coder := t.coder, vals := t.vals, blobs := t.blobs }) ∧
      (s.hist.on = false ∨ s.coder.segTick = some s.tick ∨ (s.tick ≠ s.nat Obj.HIST_RUN_START ∧ s.tick % 32 ≠ 0) →
        exec .segmentStart s = .next s) ∧
      (∀ a b c d e : Nat, let want := [a, b, c, d, e]
        goes (exec (.dramArbitration want) s) fun t => ∃ got : List Nat,
          (∀ u, u < 5 → min (nth 0 want u) (nth 0 [280000, 128000, 64000, 16000, 0] u) ≤ nth 0 got u ∧ nth 0 got u ≤ nth 0 want u) ∧
          got.length = 5 ∧ got.sum ≤ 960000 ∧
          (∀ u, u < 5 → nth 0 got u < nth 0 want u → got.sum = 960000 ∧
            ∀ v, u < v → v < 5 → nth 0 got v ≤ nth 0 [280000, 128000, 64000, 16000, 0] v) ∧
          (∀ u, u < 5 → t.val Obj.DRAM_WAIT_COUNT 0 (u + 1) = if 0 < u ∧ nth 0 got u < nth 0 want u
            then (s.val Obj.DRAM_WAIT_COUNT 0 (u + 1) + 1) % 2 ^ Obj.DRAM_WAIT_COUNT.ty.bits
            else s.val Obj.DRAM_WAIT_COUNT 0 (u + 1)) ∧
          keepsVals s t [Obj.DRAM_WAIT_COUNT] ∧ t = { s with vals := t.vals })) ∧
  (∀ (s : State) (c : Cand),
      let e := s.cand c
      let live := s.mode ≠ 11 ∧ (e.state = 1 ∨ e.state = 2)
      let w := s.measWindow e
      (s.mode = 11 → exec (.recordCutDone c) s = .next s ∧ exec (.recMeasure c) s = .next s ∧ exec (.candidateSeal c) s = .next s ∧
        exec (.recordExport c) s = .next s) ∧
      (live → e.cutDone = false → s.windowWritten e = true → goes (exec (.recordCutDone c) s) fun t =>
        (t.cand c).cutDone = true ∧ (t.cand c).slots = [] ∧ (t.cand c).reserved = [] ∧ (t.cand c).state = e.state ∧
        (t.cand c).conds.length = e.order.length ∧ (t.cand c).meas = e.meas ∧ keepsMem s t ∧ t.clk = s.clk ∧ t.fr = s.fr) ∧
      (s.windowWritten e = false ∨ e.cutDone = true → exec (.recordCutDone c) s = .next s) ∧
      (live → e.measured = false → s.lateWithin e w.1 w.2 = false → (∃ n, s.hist.newest = some n ∧ w.2 ≤ 4096 * (n + 1)) →
        goes (exec (.recMeasure c) s) fun t =>
          (t.cand c).measured = true ∧
          (∃ l, (t.cand c).meas = l ++ e.meas ∧ l.length % 7 = 0 ∧ l.length ≤ 7 * e.measIns.length) ∧
          t = { s with spec := t.spec, vals := t.vals, freeCtr := t.freeCtr }) ∧
      (s.hist.newest = none ∨ e.measured = true ∨ s.lateWithin e w.1 w.2 = true → exec (.recMeasure c) s = .next s) ∧
      (live → e.isSealed = false → e.cutDone = true → e.measured = true →
        (e.notices = [] ∨ e.noticeTick + s.nat Obj.ENG_MEAS_WINDOW < s.clk.ord) → goes (exec (.candidateSeal c) s) fun t =>
          (t.cand c).isSealed = true ∧ (t.cand c).sealNo = s.spec.seals + 1 ∧ (t.cand c).state = e.state ∧
          keepsVals s t [Obj.SPEC_RECORD_BYTES, Obj.SPEC_MEAS_COUNT] ∧ t = { s with spec := t.spec, vals := t.vals }) ∧
      (e.cutDone = false ∨ e.measured = false ∨ e.isSealed = true ∨
        (e.notices ≠ [] ∧ s.clk.ord ≤ e.noticeTick + s.nat Obj.ENG_MEAS_WINDOW) → exec (.candidateSeal c) s = .next s) ∧
      (e.state ≠ 2 ∨ e.isSealed = false ∨ e.exporting = true ∨ e.ahead = true → exec (.recordExport c) s = .next s) ∧
      (Mode.record s.mode = true → e.state = 2 → e.isSealed = true → e.exporting = false → e.ahead = false →
        (∀ q ∈ s.spec.cands, q.1 ≠ c.val → q.2.state = 2 → q.2.exporting = true ∨ q.2.ahead = true ∨ e.seq < q.2.seq) →
        (s.queueCovers e = true → goes (exec (.recordExport c) s) fun t =>
          (t.cand c).exporting = true ∧
          t.fr.queue.length = s.fr.queue.length + ((e.bytes false).length + 4079) / 4080 ∧ keepsMem s t) ∧
        (s.queueCovers e = false → e.waits = true → exec (.recordExport c) s = .next s) ∧
        (s.queueCovers e = false → e.waits = false → goes (exec (.recordExport c) s) fun t =>
          (t.cand c).waits = true ∧ t.fr = s.fr ∧
          t.val Obj.CODER_JOB_FAIL_COUNT 0 2 = (s.val Obj.CODER_JOB_FAIL_COUNT 0 2 + 1) % 2 ^ Obj.CODER_JOB_FAIL_COUNT.ty.bits)))

/-- 13 R292-R294, R297, R299, R300: an open candidate is committed or freed by the decision that names it, or at its deadline as
`SPEC_EXPIRY_ACTION` says; a commit takes the next `SEQ`. A sealed one is sent ahead to a partner that takes it, and its commit
follows. -/
def Obligations.CandidateOutcomes : Prop :=
  ∀ (s : State) (c : Cand),
    let e := s.cand c
    let committed (t : State) (outcome : Nat) : Prop :=
      (t.cand c).state = 2 ∧ (t.cand c).outcome = outcome ∧ (t.cand c).seq = s.nat Obj.SPEC_NEXT_SEQ ∧
      t.val Obj.SPEC_OUTCOME_COUNT 0 outcome =
        (s.val Obj.SPEC_OUTCOME_COUNT 0 outcome + 1) % 2 ^ Obj.SPEC_OUTCOME_COUNT.ty.bits ∧
      t.nat Obj.SPEC_NEXT_SEQ = (if 2 ^ 32 - 1 ≤ s.nat Obj.SPEC_NEXT_SEQ then 1 else s.nat Obj.SPEC_NEXT_SEQ + 1) ∧ keepsMem s t
    let freed (t : State) (outcome : Nat) : Prop :=
      t.cand c = {} ∧ t.val Obj.SPEC_OUTCOME_COUNT 0 outcome =
        (s.val Obj.SPEC_OUTCOME_COUNT 0 outcome + 1) % 2 ^ Obj.SPEC_OUTCOME_COUNT.ty.bits ∧ keepsMem s t
    let ahead := decide (s.mode ≠ 11) && s.on Obj.SPEC_SEND_AHEAD && s.on Obj.SPEC_PARTNER_CAPABLE && s.queueCovers e
    (s.mode ≠ 11 → s.trig.decisions = [] → e.state = 1 → e.deadline ≤ s.tick →
      (s.val Obj.SPEC_EXPIRY_ACTION = 1 → goes (exec (.candidateExpire c) s) fun t => committed t 4) ∧
      (s.val Obj.SPEC_EXPIRY_ACTION ≠ 1 → e.ahead = false → goes (exec (.candidateExpire c) s) fun t => freed t 3)) ∧
    (s.trig.decisions = [] → s.tick < e.deadline ∨ e.state ≠ 1 → exec (.candidateExpire c) s = .next s) ∧
    (s.trig.decisions = [] → exec .candidateOutcomeApply s = .next s) ∧
    (∀ o stamp, s.mode ≠ 11 → o < s.clk.ord → e.state = 1 → (stamp = none ∨ stamp = some (e.stamp % 2 ^ 40)) →
      (s.trig.decisions = [{ confirm := true, cands := [c.val], stamp, ord := o }] →
        goes (exec .candidateOutcomeApply s) fun t => committed t 1 ∧ t.trig.decisions = []) ∧
      (s.trig.decisions = [{ confirm := false, cands := [c.val], stamp, ord := o }] → e.ahead = false →
        goes (exec .candidateOutcomeApply s) fun t => freed t 2 ∧ t.trig.decisions = [])) ∧
    (s.mode = 11 → exec .candidateOutcomeApply s = .next s ∧ exec (.candidateExpire c) s = .next s ∧
      exec (.sendAhead c) s = .next s ∧ exec (.specCommitSend c) s = .next s) ∧
    (ahead = true → e.state = 1 → e.isSealed = true → e.queued = false → (∀ f ∈ s.fr.queue, ¬(f.cls = 8 ∧ f.type = 1)) →
      (∀ q ∈ s.spec.cands, q.1 ≠ c.val → q.2.state = 1 → q.2.isSealed = true → q.2.queued = true ∨ e.sealNo < q.2.sealNo) →
      goes (exec (.sendAhead c) s) fun t => (t.cand c).queued = true ∧ (t.cand c).state = 1 ∧
        t.fr.queue.length = s.fr.queue.length + ((e.bytes true).length + 4079) / 4080 ∧
        (∀ f ∈ t.fr.queue.drop s.fr.queue.length, f.cls = 8 ∧ f.vc = 7 ∧ f.type = 1 ∧ f.cand = c) ∧ keepsMem s t) ∧
    (ahead = false ∨ e.state ≠ 1 ∨ e.isSealed = false ∨ e.queued = true → exec (.sendAhead c) s = .next s) ∧
    (e.state ≠ 2 ∨ e.ahead = false ∨ e.commitQueued = true → exec (.specCommitSend c) s = .next s) ∧
    (s.mode ≠ 11 → e.state = 2 → e.ahead = true → e.commitQueued = false → goes (exec (.specCommitSend c) s) fun t =>
      (t.cand c).commitQueued = true ∧ t.fr.queue.length = s.fr.queue.length + 1 ∧ t.fr.queue.take s.fr.queue.length = s.fr.queue ∧
      t = { s with spec := t.spec, fr := t.fr, poison := t.poison })

/-! ### Time-to-digital converters (14) -/

/-- 14 R310, R313, R314: the lock of a loop that ran in band for 256 ticks starts the calibration of its die's converters, its loss ends
it; a full histogram whose bins are all in bounds gives the table for the next boundary, another is rejected. 14 R307-R309, R315,
R316, R318: a movement of a discriminator's input through its threshold changes its output, and is an edge where the converter runs;
an edge of an unarmed converter becomes a hit with its calibrated stamp and the losses before it; one within 158 TU of the edge before
is lost, and so is one the buffer has no place for. 14 R323, R324: a start whose window is over without a stop gives an interval word
of status 2. -/
def Obligations.TdcHitsAndCalibration : Prop :=
  (∀ (s : State) (d : Fin 9) (u : TdcId),
      let restarted (t : State) (st : Int) : Prop := ∀ k ∈ tdcsOfDie d, t.val Obj.TDC_CAL_STATE k = st ∧
        t.val Obj.TDC_CAL_HITS k = 0 ∧ (t.tdcOf k).histo = [] ∧ (t.tdcOf k).newTable = none
      let since := smGet 0 s.tdc.loops d
      (s.dllRuns d = true → 0 < since → since + 255 ≤ s.clk.ord → s.on Obj.TDC_DLL_LOCK d = false →
        goes (exec (.tdcDllLock d) s) fun t =>
          t.val Obj.TDC_DLL_LOCK d = 1 ∧ restarted t 1 ∧ t.tdc.hits = s.tdc.hits ∧
          keepsVals s t [Obj.TDC_DLL_LOCK, Obj.TDC_CAL_STATE, Obj.TDC_CAL_HITS] ∧ t = { s with vals := t.vals, tdc := t.tdc }) ∧
      (s.dllRuns d = false ∨ since = 0 ∨ s.clk.ord < since + 255 ∨ s.on Obj.TDC_DLL_LOCK d = true → exec (.tdcDllLock d) s = .next s) ∧
      (s.on Obj.TDC_DLL_LOCK d = true → goes (exec (.tdcDllUnlock d) s) fun t =>
        t.val Obj.TDC_DLL_LOCK d = 0 ∧ restarted t 0 ∧ smGet 0 t.tdc.loops d = 0 ∧
        t.val Obj.TDC_DLL_UNLOCK_COUNT d = (s.val Obj.TDC_DLL_UNLOCK_COUNT d + 1) % 2 ^ Obj.TDC_DLL_UNLOCK_COUNT.ty.bits ∧
        t = { s with vals := t.vals, tdc := t.tdc }) ∧
      (s.on Obj.TDC_DLL_LOCK d = false → goes (exec (.tdcDllUnlock d) s) fun t => smGet 0 t.tdc.loops d = 0 ∧
        (∀ k, k ≠ d.val → smGet 0 t.tdc.loops k = smGet 0 s.tdc.loops k) ∧ t = { s with tdc := { s.tdc with loops := t.tdc.loops } }) ∧
      (s.val Obj.TDC_CAL_HITS u < 2 ^ 20 → exec (.tdcCalUpdate u) s = .next s) ∧
      (2 ^ 20 ≤ s.val Obj.TDC_CAL_HITS u →
        let fits := ∀ j, j < 64 → 4096 ≤ smGet 0 (s.tdcOf u).histo j ∧ smGet 0 (s.tdcOf u).histo j ≤ 32768
        (fits → goes (exec (.tdcCalUpdate u) s) fun t =>
          t.val Obj.TDC_CAL_HITS u = 0 ∧ (t.tdcOf u).histo = [] ∧ (t.tdcOf u).newTable = some (tdcPositions (s.tdcOf u).histo) ∧
          keepsVals s t [Obj.TDC_CAL_HITS] ∧ t = { s with vals := t.vals, tdc := t.tdc }) ∧
        (¬fits → goes (exec (.tdcCalUpdate u) s) fun t =>
          t.val Obj.TDC_CAL_HITS u = 0 ∧ (t.tdcOf u).histo = [] ∧ (t.tdcOf u).newTable = (s.tdcOf u).newTable ∧
          t.val Obj.TDC_CAL_REJECT_COUNT u = (s.val Obj.TDC_CAL_REJECT_COUNT u + 1) % 2 ^ Obj.TDC_CAL_REJECT_COUNT.ty.bits ∧
          t = { s with vals := t.vals, tdc := t.tdc }))) ∧
  (∀ (s : State) (n : Ch) (u : TdcId) (v : TdcEdge),
      let n' : TdcId := ⟨n.val, by omega⟩
      let fine : Nat := 256 * (v.period.val * 64) + leNat (slice (s.blob Obj.TDC_CAL_TABLE n) (2 * v.code.val) 2)
      let raw : Int := (256 * (s.tick * 2 ^ 19) : Nat) + fine
      let time : Int := (256 * (s.clk.ord * 2 ^ 19) : Nat) + fine
      let stamp := divAway (raw - 256 * s.val Obj.TDC_OFFSET n) 256
      let at_ := stamp + (s.clk.ord * 2 ^ 19 : Nat) - (s.tick * 2 ^ 19 : Nat)
      let uv := max (-1600000) (min 1600000 v.uv)
      let moves : Prop := if v.rising then (s.tdcOf n).high = false ∧ s.val Obj.DISC_THRESHOLD n * 500000 < uv * 511
        else (s.tdcOf n).high = true ∧ uv * 511 < (s.val Obj.DISC_THRESHOLD n - s.val Obj.DISC_HYST n) * 500000
      let blanked := s.blankedAt n (v.period.val / 2)
      let seen := s.mode ≠ 2 ∧ moves ∧ Mode.hits s.mode = true ∧ s.inService n = true ∧ s.on Obj.TDC_ENABLE n = true ∧
        s.val Obj.TDC_EDGE n = 2 ∧ (s.tdcOf n).gate = none ∧ (∀ k, k < 272 → s.nat Obj.TDC_ARM k < 2) ∧ s.val Obj.TDC_ARM n = 0
      let runs := seen ∧ (blanked = false ∨ s.on Obj.BLANK_GATES_TDC n = false)
      let apart := ∀ q, (s.tdcOf n).prev = some q → 158 * 256 ≤ time - q
      (s.mode ≠ 2 → ¬moves → exec (.tdcEdge n' v) s = .next s) ∧
      (s.mode ≠ 2 → moves → s.tdcRuns n = false → goes (exec (.tdcEdge n' v) s) fun t =>
        t.tdcOf n = { s.tdcOf n with high := v.rising } ∧ t.tdc.hits = s.tdc.hits ∧ t = { s with tdc := t.tdc }) ∧
      (s.mode ≠ 2 → 256 ≤ u.val → s.tdcRuns u = false → exec (.tdcEdge u v) s = .next s) ∧
      (s.mode = 2 → s.tdcServed u = true → s.on Obj.TDC_DLL_LOCK (tdcDie u) = true →
        s.val Obj.TDC_CAL_MODE u = 0 ∨ s.val Obj.TDC_CAL_STATE u = 1 →
        s.val Obj.TDC_CAL_HITS u < 2 ^ 20 → goes (exec (.tdcEdge u v) s) fun t =>
          t.val Obj.TDC_CAL_HITS u = s.val Obj.TDC_CAL_HITS u + 1 ∧
          smGet 0 (t.tdcOf u).histo v.code = smGet 0 (s.tdcOf u).histo v.code + 1 ∧ keepsVals s t [Obj.TDC_CAL_HITS] ∧
          t.tdc.hits = s.tdc.hits ∧ t = { s with vals := t.vals, tdc := t.tdc }) ∧
      (runs → apart → s.on Obj.HIT_OUT n = true → (s.tdcOf n).stored < 64 →
        goes (exec (.tdcEdge n' v) s) fun t =>
          (∃ w, t.tdc.hits = s.tdc.hits ++ [w] ∧ w.src = n.val ∧ w.word.toNat / 2 ^ 24 = toTwos 40 stamp ∧
            w.word.toNat / 2 ^ 15 % 2 ^ 9 = n.val ∧ w.word.toNat / 2 ^ 13 % 4 = (if v.rising then 1 else 2) ∧
            w.word.getLsbD 12 = decide (s.val Obj.TDC_CAL_STATE n ≠ 2) ∧ w.word.getLsbD 10 = blanked ∧
            (w.word.getLsbD 9 = true ↔ ∃ q ∈ (s.tdcOf n).losses, q < at_)) ∧
          (t.tdcOf n).prev = some time ∧ (t.tdcOf n).stored = (s.tdcOf n).stored + 1 ∧ (t.tdcOf n).high = v.rising ∧
          (∀ q ∈ (t.tdcOf n).losses, at_ ≤ q) ∧
          t.val Obj.HIT_COUNT n = (s.val Obj.HIT_COUNT n + 1) % 2 ^ Obj.HIT_COUNT.ty.bits ∧
          t = { s with vals := t.vals, tdc := t.tdc }) ∧
      (runs → apart → s.on Obj.HIT_OUT n = true → 64 ≤ (s.tdcOf n).stored → goes (exec (.tdcEdge n' v) s) fun t =>
        t.tdc.hits = s.tdc.hits ∧ at_ ∈ (t.tdcOf n).losses ∧ (t.tdcOf n).prev = some time ∧
        t.val Obj.HIT_OVERFLOW_COUNT n = (s.val Obj.HIT_OVERFLOW_COUNT n + 1) % 2 ^ Obj.HIT_OVERFLOW_COUNT.ty.bits ∧
        t = { s with vals := t.vals, tdc := t.tdc }) ∧
      (runs → ¬apart → goes (exec (.tdcEdge n' v) s) fun t =>
        t.tdc.hits = s.tdc.hits ∧ at_ ∈ (t.tdcOf n).losses ∧ (t.tdcOf n).prev = some time ∧
        t.val Obj.PAIR_LOST_COUNT n = (s.val Obj.PAIR_LOST_COUNT n + 1) % 2 ^ Obj.PAIR_LOST_COUNT.ty.bits ∧
        t = { s with vals := t.vals, tdc := t.tdc }) ∧
      (seen → blanked = true → s.on Obj.BLANK_GATES_TDC n = true → goes (exec (.tdcEdge n' v) s) fun t =>
        t.tdc.hits = s.tdc.hits ∧ at_ ∈ (t.tdcOf n).losses ∧ (t.tdcOf n).prev = (s.tdcOf n).prev ∧
        t.val Obj.BLANK_HIT_DROP_COUNT n = (s.val Obj.BLANK_HIT_DROP_COUNT n + 1) % 2 ^ Obj.BLANK_HIT_DROP_COUNT.ty.bits ∧
        t = { s with vals := t.vals, tdc := t.tdc }) ∧
      ((s.tdcOf u).starts = [] → exec (.tdcStartSettle u) s = .next s) ∧
      (∀ x, (s.tdcOf u).starts = [x] →
        let due := x.ord < s.clk.ord ∧ (x.at_ + x.hi + s.tdcOffset u + 1 < ((s.clk.ord * 2 ^ 19 : Nat) : Int) ∨ x.ord + 35 ≤ s.clk.ord)
        (¬due → exec (.tdcStartSettle u) s = .next s) ∧
        (due → (s.tdcOf u).edges = [] → goes (exec (.tdcStartSettle u) s) fun t =>
          (∃ k w, t.tdc.intervals = s.tdc.intervals ++ [(u.val, k, w)] ∧ w.toNat / 2 ^ 36 % 4 = 2 ∧
            (x.src < 512 → w.toNat / 2 ^ 56 = toTwos 40 x.stamp)) ∧ (t.tdcOf u).starts = [] ∧
          t.val Obj.NO_STOP_COUNT u = (s.val Obj.NO_STOP_COUNT u + 1) % 2 ^ Obj.NO_STOP_COUNT.ty.bits ∧
          keepsVals s t [Obj.NO_STOP_COUNT] ∧ t = { s with vals := t.vals, tdc := t.tdc })))

/-- 14 R326-R330: a gate whose ticks are over waits for its publication when it used eight stamps or more, and is counted otherwise;
the next follows with the settings in force; a published result carries its frequency and the next generation. -/
def Obligations.FrequencyGates : Prop :=
  ∀ (s : State) (u : TdcId),
    ((s.tdcOf u).gate = none → exec (.freqGateEnd u) s = .next s) ∧
    (∀ g, (s.tdcOf u).gate = some g → g.first ≤ s.tick → s.tick < g.first + g.g → exec (.freqGateEnd u) s = .next s) ∧
    (∀ g, (s.tdcOf u).gate = some g → g.first + g.g ≤ s.tick →
      let next : Gate := { first := g.first + g.g, g := s.nat Obj.FREQ_GATE u, d := s.nat Obj.FREQ_DECIM u
                           rising := decide (s.val Obj.TDC_EDGE u ≠ 1) }
      let follows (t : State) : Prop := (t.tdcOf u).gate =
        if s.on Obj.FREQ_ENABLE u = true ∧ s.tick < next.first + next.g then some next else none
      (8 ≤ g.n → goes (exec (.freqGateEnd u) s) fun t =>
        (t.tdcOf u).done = some { g with endOrd := s.clk.ord } ∧ follows t ∧ t = { s with tdc := t.tdc }) ∧
      (g.n < 8 → goes (exec (.freqGateEnd u) s) fun t =>
        (t.tdcOf u).notReady = true ∧ (t.tdcOf u).done = (s.tdcOf u).done ∧ follows t ∧
        t.val Obj.FREQ_NOT_READY_COUNT u = (s.val Obj.FREQ_NOT_READY_COUNT u + 1) % 2 ^ Obj.FREQ_NOT_READY_COUNT.ty.bits ∧
        t = { s with tdc := t.tdc, vals := t.vals })) ∧
    ((s.tdcOf u).done = none → exec (.freqResultPublish u) s = .next s) ∧
    (∀ g f r, (s.tdcOf u).done = some g → g.result = some (f, r) → goes (exec (.freqResultPublish u) s) fun t =>
      (t.tdcOf u).done = none ∧ (t.tdcOf u).notReady = false ∧ slice (t.blob Obj.FREQ_RESULT u) 24 8 = leBytes 8 f ∧
      slice (t.blob Obj.FREQ_RESULT u) 20 4 = leBytes 4 r ∧
      (let gen := leNat (slice (s.blob Obj.FREQ_RESULT u) 8 2)
       slice (t.blob Obj.FREQ_RESULT u) 8 2 = leBytes 2 (if 65535 ≤ gen then 1 else gen + 1)) ∧ keepsMem s t)

/-! ### Lanes (15) -/

/-- 15 R340, R344, R350, R353; 02 R57: the steps of a lane's bring-up, each from the state before it: a signal present for 256 ticks, two
good sweeps in a row, 256 ticks apart, bit lock, symbol lock on 65,536 clean symbols, the exchange with its acknowledgement, `ACTIVE`
with a fresh frame link. A command of another state, or of a lane whose crossing is flushed, does nothing. -/
def Obligations.LaneBringUp : Prop :=
  ∀ (s : State) (l : Ln),
    let st := s.laneState l
    let clear := s.laneFlushing l = false
    let clean := 65536 ≤ Lane.symbols (s.laneRate l) * (s.clk.ord + 1 - (s.ln l).cleanOrd)
    (st = 1 → (s.ln l).detOrd + 256 ≤ s.clk.ord → goes (exec (.laneSignalPresent l) s) fun t =>
      t.laneState l = 2 ∧ (t.ln l).trainOrd = s.clk.ord ∧ (t.ln l).sweepOrd = s.clk.ord ∧
      (t.ln l).good = 0 ∧ t.val Obj.LANE_PHASE_OFFSET l = 0 ∧ t.val Obj.LANE_RX_OFFSET l = 0 ∧ keepsMem s t) ∧
    (st ≠ 1 ∨ s.clk.ord < (s.ln l).detOrd + 256 → exec (.laneSignalPresent l) s = .next s) ∧
    (∀ e : Eye, let fom := min 255 (e.w * e.h / 16)
      let takes := clear ∧ (s.ln l).sweepOrd + 256 ≤ s.clk.ord
      let swept (t : State) : Prop := t.nat Obj.LANE_FOM l % 256 = fom ∧ (t.ln l).sweepOrd = s.clk.ord ∧ keepsMem s t
      let good := e.locked = true ∧ s.nat Obj.LANE_FOM_MIN l ≤ fom
      (takes → st = 2 → good → 0 < (s.ln l).good → goes (exec (.laneEyeSweep l e) s) fun t => t.laneState l = 3 ∧ swept t) ∧
      (takes → st = 2 → good → (s.ln l).good = 0 → goes (exec (.laneEyeSweep l e) s) fun t =>
        t.laneState l = 2 ∧ (t.ln l).good = 1 ∧ swept t) ∧
      (takes → st = 2 → ¬good → goes (exec (.laneEyeSweep l e) s) fun t => t.laneState l = 2 ∧ (t.ln l).good = 0 ∧ swept t) ∧
      (takes → 2 < st → st ≤ 6 → goes (exec (.laneEyeSweep l e) s) fun t => t.laneState l = st ∧ swept t ∧
        bitOf (t.nat Obj.LANE_FOM l) 15 = decide (st = 6 ∧ 58982 < e.idle) ∧
        (st = 6 → 58982 < e.idle → t.val Obj.LANE_PHASE_OFFSET l = s.val Obj.LANE_PHASE_OFFSET l ∧
          t.val Obj.LANE_RX_OFFSET l = s.val Obj.LANE_RX_OFFSET l ∧ t.val Obj.LANE_PEAKING_NOW l = s.val Obj.LANE_PEAKING_NOW l)) ∧
      (st < 2 ∨ 6 < st ∨ ¬clear ∨ s.clk.ord < (s.ln l).sweepOrd + 256 → exec (.laneEyeSweep l e) s = .next s)) ∧
    (st = 3 → clear → goes (exec (.laneBitLock l) s) fun t => t.laneState l = 4 ∧ (t.ln l).cleanOrd = s.clk.ord) ∧
    (st ≠ 3 ∨ ¬clear → exec (.laneBitLock l) s = .next s) ∧
    (st = 4 → clear → clean → goes (exec (.laneSymbolLock l) s) fun t => t.laneState l = 5 ∧ (t.ln l).exchOrd = s.clk.ord ∧
      (t.ln l).exchId = ((s.ln l).exchId + 1) % 2 ^ 32 ∧ (t.ln l).gotValid = false ∧ (t.ln l).gotAck = false ∧ (t.ln l).sentAck = 0) ∧
    (st ≠ 4 ∨ ¬clear ∨ ¬clean → exec (.laneSymbolLock l) s = .next s) ∧
    (st = 5 → goes (exec (.exchangeMessageSend l) s) fun t => (t.ln l).exchTx = some (s.exchMsg l) ∧
      (t.ln l).sentAck = (s.ln l).sentAck + (if (s.ln l).gotAck then 1 else 0) ∧ t = { s with lanes := t.lanes }) ∧
    (st ≠ 5 → exec (.exchangeMessageSend l) s = .next s) ∧
    (∀ m : BitVec 128, st ≠ 5 ∨ ¬clear ∨ exchValid m = false → exec (.exchangeMessage l m) s = .next s) ∧
    (∀ m : BitVec 128, st = 5 → clear → exchValid m = true → s.exchRefusal l m.toNat = none →
      goes (exec (.exchangeMessage l m) s) fun t =>
        (t.ln l).gotValid = true ∧ (t.ln l).gotAck = ((s.ln l).gotAck || m.getLsbD 97) ∧
        t.blob Obj.LINK_PARTNER_EXCH l = leBytes 16 m.toNat ∧ t.laneState l = 5) ∧
    (st = 5 → (s.ln l).gotAck = true → 4 ≤ (s.ln l).sentAck → goes (exec (.laneEnterActive l) s) fun t =>
      t.laneState l = 6 ∧ t.val Obj.LANE_FAIL_RUN l = 0 ∧ t.val Obj.LANE_DOWN l = 0 ∧ (t.ln l).unacked = [] ∧ (t.ln l).rxNext = 0 ∧
      (t.ln l).txAlive = 0 ∧ (t.ln l).used = 0 ∧ (t.ln l).limit = leNat (slice (s.blob Obj.LINK_PARTNER_EXCH l) 8 2)) ∧
    (st ≠ 5 ∨ (s.ln l).gotAck = false ∨ (s.ln l).sentAck < 4 → exec (.laneEnterActive l) s = .next s)

/-- 15 R334, R340-R342, R345: how a lane fails and starts again. A timeout and a refused partner end in `BACKOFF` with the cause
counted; the backoff doubles with the run; a loss of signal returns to `DETECT`, and errors or the partner to `TRAIN`; a lane that is
`OFF` ignores its receiver. 15 R332, R333, R340, R342; 02 R57: `LANE_CMD` resets, disables or enables one lane; a line rate waits for
the boundary. -/
def Obligations.LanesFailAndAreCommanded : Prop :=
  (∀ (s : State) (l : Ln),
      let st := s.laneState l
      let clear := s.laneFlushing l = false
      let failed (t : State) (cause : Nat) : Prop := t.laneState l = 7 ∧ t.val Obj.LANE_LAST_FAIL l = cause ∧
        (t.ln l).backOrd = s.clk.ord ∧ t.nat Obj.LANE_FAIL_RUN l = min 8 (s.nat Obj.LANE_FAIL_RUN l + 1) ∧
        t.val Obj.LANE_FAIL_COUNT l = (s.val Obj.LANE_FAIL_COUNT l + 1) % 2 ^ Obj.LANE_FAIL_COUNT.ty.bits
      let dropped (t : State) : Prop :=
        t.val Obj.LANE_DROP_COUNT l = (s.val Obj.LANE_DROP_COUNT l + 1) % 2 ^ Obj.LANE_DROP_COUNT.ty.bits ∧ (t.ln l).unacked = []
      let wait := 250 * 2 ^ (min (s.nat Obj.LANE_FAIL_RUN l) 8 - 1)
      (2 ≤ st → st ≤ 4 → (s.ln l).trainOrd + 2500 ≤ s.clk.ord → goes (exec (.laneTrainTimeout l) s) fun t => failed t 1) ∧
      (s.clk.ord < (s.ln l).trainOrd + 2500 ∨ st < 2 ∨ 4 < st → exec (.laneTrainTimeout l) s = .next s) ∧
      (st = 5 → (s.ln l).exchOrd + 1250 ≤ s.clk.ord → goes (exec (.laneExchangeTimeout l) s) fun t => failed t 2) ∧
      (s.clk.ord < (s.ln l).exchOrd + 1250 ∨ st ≠ 5 → exec (.laneExchangeTimeout l) s = .next s) ∧
      (∀ (m : BitVec 128) (cause : Nat), st = 5 → clear → exchValid m = true → s.exchRefusal l m.toNat = some cause →
        goes (exec (.exchangeMessage l m) s) fun t => failed t cause) ∧
      (∀ m : BitVec 128, m.toNat / 2 ^ 120 % 16 ≠ 1 → s.exchRefusal l m.toNat = some 3) ∧
      (1 ≤ st → st ≤ 5 → goes (exec (.laneLossOfSignal l) s) fun t => t.laneState l = 1 ∧ (t.ln l).detOrd = s.clk.ord) ∧
      (st = 6 → goes (exec (.laneLossOfSignal l) s) fun t => t.laneState l = 1 ∧ (t.ln l).detOrd = s.clk.ord ∧ dropped t) ∧
      (st < 1 ∨ 6 < st → exec (.laneLossOfSignal l) s = .next s) ∧
      (∀ n, st = 0 ∨ ¬clear → exec (.laneErrorRetrain l n) s = .next s) ∧
      (∀ n, st = 6 → clear → 64 < n → goes (exec (.laneErrorRetrain l n) s) fun t => t.laneState l = 2 ∧ dropped t ∧
        t.val Obj.LANE_CODE_ERR_COUNT l = (s.val Obj.LANE_CODE_ERR_COUNT l + n) % 2 ^ Obj.LANE_CODE_ERR_COUNT.ty.bits) ∧
      (∀ n, st ≠ 0 → clear → st ≠ 6 ∨ n ≤ 64 → st ≠ 4 ∨ n = 0 →
        exec (.laneErrorRetrain l n) s = .next (s.inc Obj.LANE_CODE_ERR_COUNT l (n := n))) ∧
      (∀ n, st = 4 → clear → 0 < n → goes (exec (.laneErrorRetrain l n) s) fun t =>
        t.laneState l = 4 ∧ (t.ln l).cleanOrd = s.clk.ord ∧
        t.val Obj.LANE_CODE_ERR_COUNT l = (s.val Obj.LANE_CODE_ERR_COUNT l + n) % 2 ^ Obj.LANE_CODE_ERR_COUNT.ty.bits) ∧
      (st = 6 → clear → goes (exec (.lanePartnerRetrain l) s) fun t => t.laneState l = 2 ∧ dropped t ∧ (t.ln l).trainOrd = s.clk.ord) ∧
      (st ≠ 6 ∨ ¬clear → exec (.lanePartnerRetrain l) s = .next s) ∧
      (st = 7 → (s.ln l).backOrd + wait ≤ s.clk.ord → goes (exec (.laneBackoffEnd l) s) fun t =>
        t.laneState l = 1 ∧ (t.ln l).detOrd = s.clk.ord) ∧
      (st ≠ 7 ∨ s.clk.ord < (s.ln l).backOrd + wait → exec (.laneBackoffEnd l) s = .next s)) ∧
  (∀ (s : State) (r : Role) (l : Ln),
      (accepts s r (objAddr 0x9002 0 8 l) [1] = true → goes (exec (.laneReset r l) s) fun t =>
        t.laneState l = (if s.laneEnabled l && Mode.lanes s.mode then 1 else 0) ∧ t.val Obj.LANE_DOWN l = 0 ∧ t.val Obj.LANE_FAIL_RUN l = 0 ∧
        Crossing.lane l ∈ t.clk.flushing ∧ answered t St.OK) ∧
      (accepts s r (objAddr 0x9002 0 8 l) [2] = true → goes (exec (.laneDisable r l) s) fun t =>
        t.laneState l = 0 ∧ (t.ln l).disabled = true ∧ answered t St.OK) ∧
      (accepts s r (objAddr 0x9002 0 8 l) [3] = true → goes (exec (.laneEnable r l) s) fun t =>
        (t.ln l).disabled = false ∧ answered t St.OK ∧
        (s.laneState l = 0 → t.laneState l = if s.laneMasked l && Mode.lanes s.mode then 1 else 0)) ∧
      (∀ rate, rate < 256 → accepts s r (objAddr 0x9011 0 0 0) (leBytes 1 rate) = true → exec (.linkRateWrite r true rate) s =
        .next ((s.setFr fun x => { x with rateCasc := some rate }).answer { status := St.OK })) ∧
      (∀ rate, rate < 256 → accepts s r (objAddr 0x9010 0 0 0) (leBytes 1 rate) = true → exec (.linkRateWrite r false rate) s =
        .next ((s.setFr fun x => { x with rateDown := some rate }).answer { status := St.OK })))

/-! ### Frames (16) -/

/-- 16 R364-R367: a `LINK` frame acknowledges frames in order and grants credits; a replay starts where no acknowledgement came in the
tick or the partner asks for it, and is counted; after eight without progress the next resets the lane instead; a `LINK` frame carries
the last number received, the `NAK` due, and the credits. -/
def Obligations.FrameLinks : Prop :=
  ∀ (s : State) (l : Ln) (w : BitVec 64),
    let x := s.ln l
    let n := (w.toNat / 2 ^ 56 + 256 - x.lastAck) % 256
    let clear := s.laneFlushing l = false
    let due := s.laneState l = 6 ∧ x.unacked ≠ [] ∧ x.replaySyms = 0
    let replayed (t : State) : Prop :=
      t.val Obj.LANE_REPLAY_COUNT l = (s.val Obj.LANE_REPLAY_COUNT l + 1) % 2 ^ Obj.LANE_REPLAY_COUNT.ty.bits ∧
      (t.ln l).stuckReplays = x.stuckReplays + 1 ∧ (t.ln l).unacked = x.unacked ∧ (t.ln l).ackOrd = s.clk.ord ∧ t.laneState l = 6
    (s.laneState l ≠ 6 → exec (.linkFrame l w) s = .next s ∧ exec (.replayTimeout l) s = .next s ∧
      exec (.linkFrameSend l) s = .next s) ∧
    (¬clear → exec (.linkFrame l w) s = .next s) ∧
    (s.laneState l = 6 → clear → w.getLsbD 55 = false → goes (exec (.linkFrame l w) s) fun t =>
      (t.ln l).limit = w.toNat % 2 ^ 32 ∧
      (0 < n → n ≤ x.unacked.length → (t.ln l).unacked = x.unacked.drop n ∧ (t.ln l).lastAck = w.toNat / 2 ^ 56 ∧
        (t.ln l).stuckReplays = 0 ∧ (t.ln l).ackOrd = s.clk.ord) ∧
      (n = 0 ∨ x.unacked.length < n → (t.ln l).unacked = x.unacked ∧ (t.ln l).lastAck = x.lastAck ∧ (t.ln l).ackOrd = x.ackOrd) ∧
      (∀ k, k ≠ l.val → t.ln k = s.ln k) ∧ t = { s with lanes := t.lanes }) ∧
    (due → clear → w.getLsbD 55 = true → n = 0 → x.stuckReplays < 8 → goes (exec (.linkFrame l w) s) replayed) ∧
    (due → x.ackOrd < s.clk.ord → x.stuckReplays < 8 → goes (exec (.replayTimeout l) s) replayed) ∧
    (due → x.ackOrd < s.clk.ord → 8 ≤ x.stuckReplays → goes (exec (.replayTimeout l) s) fun t =>
      t.laneState l = (if s.laneEnabled l && Mode.lanes s.mode then 1 else 0) ∧ (t.ln l).unacked = []) ∧
    (x.unacked = [] ∨ s.clk.ord ≤ x.ackOrd → exec (.replayTimeout l) s = .next s) ∧
    (s.laneState l = 6 → x.rxLimit < 2 ^ 32 → goes (exec (.linkFrameSend l) s) fun t =>
      (∃ v, (t.ln l).linkTx = some v ∧ v.toNat / 2 ^ 56 = (x.rxNext + 255) % 256 ∧ v.getLsbD 55 = x.nakDue ∧
        v.toNat % 2 ^ 32 = x.rxLimit) ∧ (t.ln l).nakDue = false ∧ t = { s with lanes := t.lanes })

/-- 16 R362-R365, R368, R379, R385, R388: what a lane receives. A discarded frame is counted and asked for again once; a duplicate is
dropped; a frame in order is delivered: SDP for another module goes down the cascade, a Domino message is checked, a cascade frame
joins its block. 16 R368-R370, R384, R387: the framer hands out the `TICK` of a new block, or the next frame in class order, to an
open lane in its sequence; frames past their age are dropped; a missing cascade number is passed over after 256 ticks, and a hold
that has run is over. -/
def Obligations.FramesReceivedAndHandedOut : Prop :=
  (∀ (s : State) (l : Ln) (f : RxFrame) (gseq : BitVec 32) (alive : BitVec 8) (len : Nat),
      let x := s.ln l
      let counts (t : State) (o : ObjDef) (e : Nat) : Prop := t.val o e = (s.val o e + 1) % 2 ^ o.ty.bits
      let clear := s.laneFlushing l = false
      let inOrder (o : RxOrder) : Prop := s.laneState l = 6 ∧ clear ∧ f.alive.toNat = x.rxNext ∧ o.waiting = [] ∧
        (o.next = none ∨ o.next = some f.gseq.toNat)
      let took (t : State) : Prop := (t.ln l).rxNext = (x.rxNext + 1) % 256 ∧ keepsMem s t
      (s.laneState l ≠ 6 ∨ ¬clear → exec (.sdpFrame l f) s = .next s ∧ exec (.dominoFrame l f) s = .next s ∧
        exec (.cascadeFrame l f) s = .next s ∧
        ∀ why, why ≠ .sequence ∨ s.laneState l ≠ 5 ∨ ¬clear → exec (.frameDiscardRx l why alive gseq len) s = .next s) ∧
      (∀ why ∈ [RxFault.crc, .length, .noEnd, .special], s.laneState l = 6 → clear →
        goes (exec (.frameDiscardRx l why alive gseq len) s) fun t => counts t Obj.LANE_CRC_ERR_COUNT l ∧
          (t.ln l).nakDue = (x.nakDue || !x.nakDone) ∧ (t.ln l).rxNext = x.rxNext ∧ t = { s with vals := t.vals, lanes := t.lanes }) ∧
      (s.laneState l = 6 → clear → goes (exec (.frameDiscardRx l .control alive gseq len) s) fun t =>
        counts t Obj.LANE_CTRL_ABORT_COUNT l ∧ counts t Obj.LANE_CRC_ERR_COUNT l ∧
        (t.ln l).nakDue = (x.nakDue || !x.nakDone) ∧ (t.ln l).rxNext = x.rxNext ∧ t = { s with vals := t.vals, lanes := t.lanes }) ∧
      (s.laneState l = 5 ∨ s.laneState l = 6 → clear → goes (exec (.frameDiscardRx l .sequence alive gseq len) s) fun t =>
        counts t Obj.LANE_CTRL_ABORT_COUNT l ∧ keepsVals s t [Obj.LANE_CTRL_ABORT_COUNT] ∧ t = { s with vals := t.vals }) ∧
      (s.laneState l = 6 → clear → alive.toNat = x.rxNext → (s.rxOrder (decide (l.val < 32))).waiting = [] →
        ((s.rxOrder (decide (l.val < 32))).next = none ∨ (s.rxOrder (decide (l.val < 32))).next = some gseq.toNat) →
        goes (exec (.frameDiscardRx l .direction alive gseq len) s) fun t => took t ∧ counts t Obj.RX_DISCARD_COUNT 0) ∧
      (s.laneState l = 6 → clear → f.alive.toNat ≠ x.rxNext → rxDuplicate x.rxNext f.alive.toNat = true →
        exec (.sdpFrame l f) s = .next s ∧ exec (.dominoFrame l f) s = .next s ∧ exec (.cascadeFrame l f) s = .next s) ∧
      (l.val < 32 → inOrder s.fr.rxDown → f.module.toNat ≠ s.nat Obj.MODULE_NUMBER → s.cascadeUp = true →
        goes (exec (.sdpFrame l f) s) fun t => took t ∧ ∃ q, t.fr.fwdCasc = s.fr.fwdCasc ++ [q] ∧ q.payload = f.payload ∧
          q.module = f.module.toNat ∧ q.vc = 0 ∧ q.type = 4) ∧
      (l.val < 32 → inOrder s.fr.rxDown → f.module.toNat ≠ s.nat Obj.MODULE_NUMBER → s.cascadeUp = false →
        goes (exec (.sdpFrame l f) s) fun t => took t ∧ counts t Obj.RX_DISCARD_COUNT 0) ∧
      (l.val < 32 → inOrder s.fr.rxDown → Mode.lanes s.mode = true → s.val Obj.DOMINO_ROLE ≠ 0 → f.payload.length = 16 →
        domCrcOk (leNat f.payload) = false → goes (exec (.dominoFrame l f) s) fun t => took t ∧ counts t Obj.DOMINO_DISCARD_COUNT 0) ∧
      (32 ≤ l.val → inOrder s.fr.rxCasc → relayType f.vc f.type_ = true → s.fr.casc = [] →
        goes (exec (.cascadeFrame l f) s) fun t => took t ∧
          t.fr.casc = [{ ftick := f.ftick.toNat, frames := [{ lane := l, at_ := s.clk.ord, frame := f }] }]) ∧
      (l.val < 32 → exec (.cascadeFrame l f) s = .next s)) ∧
  (∀ s : State,
      let idle := s.fr.resendCasc = [] ∧ s.fr.fwdCasc = [] ∧ s.fr.resendDown = [] ∧ s.fr.casc = [] ∧ Mode.lanes s.mode = true
      (Mode.lanes s.mode = false → exec .frameHandout s = .next s) ∧
      (∀ h r l, idle → s.fr.ticks = h :: r → s.holdEnded h = true → s.pickLane true 32 = some l → s.framePoisoned h.place 32 = false →
        goes (exec .frameHandout s) fun t => t.fr.ticks = r ∧ t.fr.block = h.tick ∧ t.fr.blockOpen = true ∧ t.fr.blockFrames = 0 ∧
          t.fr.gseqDown = (s.fr.gseqDown + 1) % 2 ^ 32 ∧
          (∃ f, (t.ln l).unacked = (s.ln l).unacked ++ [f] ∧ f.vc = 0 ∧ f.type = 1 ∧ f.gseq = s.fr.gseqDown ∧
            f.alive = (s.ln l).txAlive ∧ f.ftick = h.tick % 2 ^ 20) ∧
          t.val Obj.FRAME_TX_COUNT 0 1 = (s.val Obj.FRAME_TX_COUNT 0 1 + 1) % 2 ^ Obj.FRAME_TX_COUNT.ty.bits ∧
          t = { s with vals := t.vals, lanes := t.lanes, fr := t.fr }) ∧
      (∀ f l, idle → s.mode ≠ 11 → s.fr.ticks = [] → s.fr.queue = [f] → f.cls < 7 → (f.cls = 5 → s.covers 1 f.charge = true) → s.framePoisoned f.place f.payload.length = false →
        s.pickLane true f.payload.length = some l → goes (exec .frameHandout s) fun t => t.fr.queue = [] ∧
          t.fr.gseqDown = (s.fr.gseqDown + 1) % 2 ^ 32 ∧ t.fr.blockFrames = s.fr.blockFrames + 1 ∧
          (∃ g, (t.ln l).unacked = (s.ln l).unacked ++ [g] ∧ g.vc = f.vc ∧ g.type = f.type ∧ g.payload = f.payload ∧
            g.gseq = s.fr.gseqDown ∧ g.ftick = s.fr.block % 2 ^ 20) ∧
          t = { s with vals := t.vals, lanes := t.lanes, fr := t.fr }) ∧
      (goes (exec .queueAgeDrop s) fun t => t.fr.queue = s.fr.queue.filter (fun f =>
          !((f.cls == 3 || f.cls == 4 || f.cls == 6) && decide (f.born + s.nat Obj.LINK_QUEUE_LIMIT < s.clk.ord))) ∧
        t = { s with vals := t.vals, fr := t.fr }) ∧
      (∀ g w, s.fr.rxCasc.next = some g → s.fr.rxCasc.waiting = [w] → w.at_ + 256 ≤ s.clk.ord → w.frame.gseq.toNat ≠ (g + 1) % 2 ^ 32 →
        goes (exec .cascadeGapSkip s) fun t => t.fr.rxCasc = { next := some ((g + 1) % 2 ^ 32), waiting := [w] } ∧
          t.val Obj.CASCADE_GAP_COUNT = (s.val Obj.CASCADE_GAP_COUNT + 1) % 2 ^ Obj.CASCADE_GAP_COUNT.ty.bits ∧
          t = { s with vals := t.vals, fr := t.fr }) ∧
      (s.fr.rxCasc.waiting = [] ∨ (∀ w ∈ s.fr.rxCasc.waiting, s.clk.ord < w.at_ + 256) → exec .cascadeGapSkip s = .next s) ∧
      (∀ h r, s.fr.ticks = h :: r → h.ord + s.nat Obj.CASCADE_HOLD ≤ s.clk.ord →
        exec .cascadeHoldExpire s = .next (s.setFr fun x => { x with holdOver := true })) ∧
      (s.fr.ticks = [] ∨ (∃ h r, s.fr.ticks = h :: r ∧ s.clk.ord < h.ord + s.nat Obj.CASCADE_HOLD) → exec .cascadeHoldExpire s = .next s))

/-! ### Sessions and requests of the dictionary protocol (17) -/

/-- 17 R400-R405, R396: `HELLO` opens a pending session, `AUTH` opens it or closes it with its source barred, `CLOSE` closes it; a
request no session takes gets `ACCESS`, an opcode not in the table `NO_OBJECT`; a wrong `MAC` is counted and dropped, a repeat
gets the kept response, an old number is dropped; limits on time close sessions. -/
def Obligations.SessionsOpenAndClose : Prop :=
  ∀ (s : State) (h : SdpHdr) (x : Session),
    (∀ (role slot : Nat) (nonce : List Byte), s.serves = true → (∀ b ∈ s.sdp.banned, b.1 = h.src → b.2 ≤ s.clk.ord) →
      h.resp = false → h.lengthOk = true → s.sdp.jobs.length < 32 → slot < 8 → role < 256 →
      (s.blob Obj.KEY_PUBLIC 0 (slot + 1) ≠ List.replicate 32 0 → role ≤ s.nat Obj.KEY_ROLE 0 (slot + 1) →
        s.sdp.sessions.length < 8 → goes (exec (.hello h role slot nonce) s) fun t => ∃ y,
          t.sdp.sessions = s.sdp.sessions ++ [y] ∧ y.num ≠ 0 ∧ y.num < 65536 ∧ (∀ z ∈ s.sdp.sessions, z.num ≠ y.num) ∧
          y.src = h.src ∧ y.role = role ∧ y.slot = slot ∧ y.isOpen = false ∧ y.nonceC = slice nonce 0 16 ∧
          y.nonceM.length = 32 ∧ y.since = s.clk.ord ∧
          plainly t 1 0 St.OK (leBytes 2 y.num ++ leInt 2 (s.val Obj.MODULE_NUMBER) ++ leBytes 4 0 ++ y.nonceM)) ∧
      (s.blob Obj.KEY_PUBLIC 0 (slot + 1) = List.replicate 32 0 ∨ s.nat Obj.KEY_ROLE 0 (slot + 1) < role →
        goes (exec (.hello h role slot nonce) s) fun t => plainly t 1 0 St.ACCESS [] ∧ t.sdp.sessions = s.sdp.sessions)) ∧
    (∀ sig : List Byte, s.serves = true → s.session h.session = some x → x.isOpen = false → x.src = h.src → h.resp = false →
      h.lengthOk = true → sig.length = 64 → goes (exec (.auth h sig) s) fun t =>
        if ed25519 (s.blob Obj.KEY_PUBLIC 0 (x.slot + 1)) (s.authText x) sig = true then
          replied s t h x 2 St.OK (leBytes 1 x.role ++ leBytes 1 0 ++ leInt 2 (s.val Obj.SDP_IDLE_TIMEOUT)) ∧
          ∃ y, t.session h.session = some y ∧ y.isOpen = true ∧ y.lastReq = some h.reqId ∧ y.since = s.clk.ord ∧ y.role = x.role
        else plainly t 2 h.session St.TRUST [] ∧ t.session h.session = none ∧
          (h.src, s.clk.ord + 250000) ∈ t.sdp.banned ∧
          t.val Obj.SDP_AUTH_FAIL_COUNT = (s.val Obj.SDP_AUTH_FAIL_COUNT + 1) % 2 ^ Obj.SDP_AUTH_FAIL_COUNT.ty.bits) ∧
    (sessionTakes s h 3 [] x → goes (exec (.close h) s) fun t =>
      t.session h.session = none ∧ replied s t h x 3 St.OK [] ∧ onlySdp s t) ∧
    (∀ (op : BitVec 8) (b : List Byte), op.toNat ∉ sdpOps → sessionTakes s h op.toNat b x →
      goes (exec (.sdpUnknownOpcode h op b) s) fun t => replied s t h x op.toNat St.NO_OBJECT [] ∧ onlySdp s t) ∧
    (∀ b : List Byte, s.serves = true → s.session h.session = none →
      goes (exec (.ping h b) s) fun t => plainly t 0x0E h.session St.ACCESS [] ∧ onlySdp s t) ∧
    (∀ b : List Byte,
      let mac := BitVec.ofNat 64 (leNat (macBytes (s.sessionKey x) (rowReq h 0x0E b).hdr b))
      s.serves = true → s.session h.session = some x → x.isOpen = true → x.src = h.src →
        (h.mac ≠ mac → goes (exec (.ping h b) s) fun t =>
          t.sdp.reply = s.sdp.reply ∧
          t.val Obj.SDP_MAC_FAIL_COUNT = (s.val Obj.SDP_MAC_FAIL_COUNT + 1) % 2 ^ Obj.SDP_MAC_FAIL_COUNT.ty.bits ∧
          (15 ≤ x.macFails → t.session h.session = none) ∧
          (x.macFails < 15 → ∃ y, t.session h.session = some y ∧ y.macFails = x.macFails + 1)) ∧
        (∀ e, h.mac = mac → (x.kept.find? fun e => e.1 == h.reqId && e.2.1 == h.mac) = some e →
          goes (exec (.ping h b) s) fun t => t.sdp.reply = some e.2.2 ∧ onlySdp s t) ∧
        (h.mac = mac → (x.kept.find? fun e => e.1 == h.reqId && e.2.1 == h.mac) = none → reqRises x.lastReq h.reqId = false →
          exec (.ping h b) s = .next (s.inc Obj.SDP_REPLAY_DROP_COUNT))) ∧
    (s.serves = true → exec .sdpMalformedDatagram s = .next (s.inc Obj.SDP_FORMAT_DROP_COUNT)) ∧
    (∀ n, x ∈ s.sdp.sessions → x.num = n → x.isOpen = false → x.since + 250000 ≤ s.clk.ord →
      goes (exec (.sessionAuthTimeout n) s) fun t => x ∉ t.sdp.sessions ∧ onlySdp s t ∧
        ∀ y ∈ s.sdp.sessions, (y.num ≠ n ∨ y.isOpen = true ∨ s.clk.ord < y.since + 250000) → y ∈ t.sdp.sessions) ∧
    (∀ n, x ∈ s.sdp.sessions → x.num = n → x.isOpen = true → x.since + 250000 * s.nat Obj.SDP_IDLE_TIMEOUT ≤ s.clk.ord →
      goes (exec (.sessionIdleTimeout n) s) fun t => x ∉ t.sdp.sessions ∧ onlySdp s t ∧
        ∀ y ∈ s.sdp.sessions, (y.num ≠ n ∨ y.isOpen = false ∨ s.clk.ord < y.since + 250000 * s.nat Obj.SDP_IDLE_TIMEOUT) →
          y ∈ t.sdp.sessions)

/-- 17 R400, R406, R409, R410, R414: requests that read: a `READ` of one object gives its item, marked again when the session has
received that generation; a `READ_SEG` gives a part of a BLOB; an `EVENT_READ` the records from a sequence number; a `PING` its
bytes. -/
def Obligations.RequestsThatRead : Prop :=
  ∀ (s : State) (h : SdpHdr) (x : Session),
    let u := noted s h x
    (∀ a : ObjAddr, sessionTakes s h 4 (addrBytes a) x → addrOf (addrBytes a) = a → appIndex a.index = false →
      u.readWaits a.index = false → (u.readItem a).value.length ≤ 256 →
      ((u.readItem a).gen = none → goes (exec (.read h [a]) s) fun t =>
        replied s t h x 4 (u.readItem a).status (readItemBytes (u.readItem a) false) ∧ onlySdp s t) ∧
      (∀ g, (u.readItem a).gen = some g → goes (exec (.read h [a]) s) fun t =>
        replied s t h x 4 St.OK (readItemBytes (u.readItem a)
          ((u.readItem a).status == St.OK && (x.remembered.find? fun e => e.1 == rememberKey a) == some (rememberKey a, g))) ∧
        onlySdp s t ∧ ∃ y, t.session h.session = some y ∧ y.remembered.head? = some (rememberKey a, g))) ∧
    (∀ a : ObjAddr, sessionTakes s h 4 (addrBytes a) x → addrOf (addrBytes a) = a →
      u.readWaits a.index = true ∨ (u.appRuns = true ∧ appIndex a.index = true ∧ u.indexServed a.index = true) →
      goes (exec (.read h [a]) s) fun t => t.sdp.reply = s.sdp.reply ∧ t.sdp.jobs.length = s.sdp.jobs.length + 1 ∧ onlySdp s t) ∧
    (∀ (a : ObjAddr) (o : ObjDef) (e off n : Nat),
      sessionTakes s h 6 (addrBytes a ++ leBytes 4 off ++ leBytes 2 n ++ leBytes 2 0) x → addrOf (addrBytes a) = a →
      off < 2 ^ 32 → n ≤ 1024 → 0 < n → u.resolve a = .ok (o, e) → o.access ≠ .wo → o.ty = .blob →
      u.readWaits a.index = false →
      (u.readLen o e a.sub < off → goes (exec (.readSeg h a off n) s) fun t => replied s t h x 6 St.RANGE [] ∧ onlySdp s t) ∧
      (off ≤ u.readLen o e a.sub → goes (exec (.readSeg h a off n) s) fun t =>
        replied s t h x 6 St.OK (leBytes 4 (u.readLen o e a.sub) ++ leBytes 2 (if o.result then u.genOf o e a.sub else 0) ++
          leBytes 1 (if u.readLen o e a.sub ≤ off + n then 1 else 0) ++ leBytes 1 0 ++
          pad4 (u.readSlice o e a.sub off (min n (u.readLen o e a.sub - off)))) ∧ onlySdp s t)) ∧
    (∀ first n : Nat, first < 2 ^ 32 → n < 256 → sessionTakes s h 0x0B (leBytes 4 first ++ leBytes 1 n ++ leBytes 3 0) x →
      (0 < n → n ≤ 16 → goes (exec (.eventRead h first n) s) fun t =>
        replied s t h x 0x0B St.OK
          (((s.sdp.ring.reverse.filter fun e => !before32 e.seq first).take n).flatMap Event.bytes) ∧ onlySdp s t) ∧
      (16 < n → goes (exec (.eventRead h first n) s) fun t => replied s t h x 0x0B St.RANGE [] ∧ onlySdp s t)) ∧
    (∀ b : List Byte, sessionTakes s h 0x0E b x → goes (exec (.ping h b) s) fun t =>
      replied s t h x 0x0E St.OK b ∧ onlySdp s t ∧
      ∃ y, t.session h.session = some y ∧ y.lastReq = some h.reqId ∧ y.since = s.clk.ord)

/-- 17 R395, R405, R407, R408, R411, R417: requests and commands that write: a `WRITE` with a failing item applies none of its items,
one without answers `OK`, with an action when an item starts one; a segment is kept until the last one writes the whole value; a
setting that waits for its boundary is staged; a key slot's change closes its sessions; an erased slot holds no set. -/
def Obligations.RequestsThatWrite : Prop :=
  ∀ (s : State) (h : SdpHdr) (x : Session) (r : Role),
    let u := noted s h x
    (∀ items : List WItem, sessionTakes s h 5 (items.flatMap itemBytes) x → bodyItems 16 (items.flatMap itemBytes) = some items →
      (∀ w ∈ items, appIndex w.addr.index = false) →
      let ds := items.map (u.decodeItem x.role false)
      let failing := u.firstFailing (viewOf (passed ds)) items.length 0 [] ds
      (∀ i st, failing = some (i, st) → goes (exec (.write h items) s) fun t =>
        replied s t h x 5 st (leBytes 1 i ++ leBytes 3 0 ++ leBytes 4 0) ∧
        t = { s with sdp := t.sdp, fr := t.fr, poison := t.poison, vals := t.vals } ∧ keepsVals s t [Obj.MODE_LAST_REFUSAL]) ∧
      (failing = none → goes (exec (.write h items) s) fun t =>
        ∃ action, replied s t h x 5 St.OK (leBytes 1 0xFF ++ leBytes 3 0 ++ leBytes 4 action) ∧
          (action ≠ 0 ↔ ((passed ds).any fun d => d.o.long) = true))) ∧
    (∀ (a : ObjAddr) (o : ObjDef) (e off : Nat) (data : List Byte) (last : Bool),
      let k := key o e a.sub
      let old := match u.partialOf k with | some p => p.data | none => []
      let done := match u.partialOf k with | some p => p.done | none => 0
      sessionTakes s h 7 (addrBytes a ++ leBytes 4 off ++ leBytes 2 data.length ++ leBytes 2 (if last then 1 else 0) ++ pad4 data) x →
      addrOf (addrBytes a) = a → off < 2 ^ 32 → u.resolve a = .ok (o, e) → o.access ≠ .ro → o.role ≤ x.role →
      u.modeAllows o [] = true → u.elemOutFor o a e = false → o.ty = .blob → o.idx ≠ 0xB010 →
      (∀ p ∈ s.sdp.partials, p.key = k → p.session = x.num ∧ p.timedOut = false) → 0 < data.length → data.length ≤ 1024 →
      (off = done → last = false → off + data.length < o.size → goes (exec (.writeSeg h a off data last) s) fun t =>
        replied s t h x 7 St.OK [] ∧ onlySdp s t ∧ ∃ p ∈ t.sdp.partials, p.key = k ∧ p.session = x.num ∧ p.addr = a ∧
          p.data = old ++ data ∧ p.done = off + data.length ∧ p.since = s.clk.ord ∧ p.timedOut = false) ∧
      (off ≠ done → goes (exec (.writeSeg h a off data last) s) fun t =>
        replied s t h x 7 St.RANGE [] ∧ onlySdp s t ∧ ∀ p ∈ t.sdp.partials, p.key ≠ k) ∧
      (off = done → last = true → off + data.length = o.size →
        goes (exec (.writeSeg h a off data last) s) fun t =>
          let v := (u.segStore o a k x.num off data).dropPartial k
          let w := v.writeItems x.role false [{ addr := a, value := old ++ data }]
          replied s t h x 7 w.1.1 [] ∧ t.vals = w.2.vals ∧ t.blobs = w.2.blobs ∧ t.staged = w.2.staged)) ∧
    (∀ a : ObjAddr, goes (exec (.writeSegTimeout a) s) fun t =>
      (∀ p ∈ t.sdp.partials, p.addr = a → p.since + 250000 ≤ s.clk.ord → p.timedOut = true) ∧
      t.sdp.partials.length = s.sdp.partials.length ∧ t = { s with sdp := t.sdp }) ∧
    (∀ (a : ObjAddr) (v : List Byte), s.serves = true → appIndex a.index = false →
      (∀ st, s.decodeItem r.code false { addr := a, value := v } = .error st →
        exec (.genericObjectWrite r a v) s = .next (s.answer { status := st, item := 0 })) ∧
      (∀ d, s.decodeItem r.code false { addr := a, value := v } = .ok d → s.lateSteps (viewOf [d]) 1 [] d = St.OK →
        waitsForBoundary d.o.idx = true → d.o.long = false → goes (exec (.genericObjectWrite r a v) s) fun t =>
          t.staged = s.staged ++ [{ key := d.key, value := d.val, blob := if d.o.ty = .blob then d.raw else [] }] ∧
          t.vals = s.vals ∧ t.blobs = s.blobs ∧ answered t St.OK)) ∧
    (∀ b : Byte, accepts s r (objAddr 0xB084 0 0 0) [b] = true → goes (exec (.genericObjectWrite r (objAddr 0xB084 0 0 0) [b]) s) fun t =>
      t.val Obj.DUMP_KEEP_FIRST = b.toNat ∧ keepsVals s t [Obj.DUMP_KEEP_FIRST] ∧ answered t St.OK) ∧
    (∀ (slot : Fin 8) (part : KeyPart) (v : List Byte), accepts s r (objAddr (keyIndex part) (slot + 1) 0 0) v = true →
      goes (exec (.keySlotWrite r slot part v) s) fun t =>
        (∀ y ∈ t.sdp.sessions, y.slot ≠ slot.val) ∧ (∀ y ∈ s.sdp.sessions, y.slot ≠ slot.val → y ∈ t.sdp.sessions) ∧
        answered t St.OK ∧ (part = .pubKey → t.blob Obj.KEY_PUBLIC 0 (slot + 1) = v) ∧
        (part = .secret → t.blob Obj.KEY_SECRET 0 (slot + 1) = v) ∧ (part = .slotRole → t.nat Obj.KEY_ROLE 0 (slot + 1) = leNat v)) ∧
    (∀ slot : Fin 8, accepts s r (objAddr 0x0023 (slot + 1) 0 0) [1] = true → goes (exec (.setErase r slot) s) fun t =>
      (t.sdp.sets.find? fun e => e.1 == slot.val) = none ∧
      (∀ j, j ≠ slot.val → (t.sdp.sets.find? fun e => e.1 == j) = s.sdp.sets.find? fun e => e.1 == j) ∧
      answered t St.OK ∧ t = { s with sdp := t.sdp })

/-- 17 R413, R414: subscriptions, and the messages that carry a session's records: at most 16, the lost ones named first, 100 messages
a second. -/
def Obligations.SubscriptionsAndEventMessages : Prop :=
  ∀ (s : State) (h : SdpHdr) (x : Session),
    (∀ y : EvSub, y.kind < 256 → y.num < 65536 →
      sessionTakes s h 8 (leBytes 2 y.code.toNat ++ leBytes 2 y.mask.toNat ++ leBytes 1 y.kind ++ leBytes 1 0 ++ leBytes 2 y.num) x →
      (y.kind ≤ 11 → (y.num = 0xFFFF ∨ y.num < kindCount y.kind) → x.subs.length < 8 → goes (exec (.subscribe h y) s) fun t =>
        ∃ id z, id < 256 ∧ (∀ e ∈ x.subs, e.1 ≠ id) ∧ replied s t h x 8 St.OK (leBytes 1 id ++ leBytes 3 0) ∧
          t.session h.session = some z ∧ z.subs = x.subs ++ [(id, y)]) ∧
      (y.kind ≤ 11 → (y.num = 0xFFFF ∨ y.num < kindCount y.kind) → 8 ≤ x.subs.length → goes (exec (.subscribe h y) s) fun t =>
        replied s t h x 8 St.BUSY [] ∧ ∃ z, t.session h.session = some z ∧ z.subs = x.subs) ∧
      (11 < y.kind → goes (exec (.subscribe h y) s) fun t => replied s t h x 8 St.RANGE [] ∧
        ∃ z, t.session h.session = some z ∧ z.subs = x.subs)) ∧
    (∀ n, n < 256 → sessionTakes s h 9 (leBytes 1 n ++ leBytes 3 0) x → goes (exec (.unsubscribe h n) s) fun t =>
      replied s t h x 9 (if x.subs.any fun e => e.1 == n then St.OK else St.NO_OBJECT) [] ∧
      ∃ z, t.session h.session = some z ∧ z.subs = x.subs.filter fun e => e.1 != n) ∧
    (∀ n, s.session n = some x → x.isOpen = true → s.serves = true → x.sentThisSecond < 100 →
      (x.waiting ≠ [] → x.lost = none → goes (exec (.eventSend n) s) fun t =>
        t.sdp.event = some (n, (x.msgCount + 1) % 2 ^ 32, x.waiting.take 16) ∧ onlySdp s t ∧
        ∃ z, t.session n = some z ∧ z.waiting = x.waiting.drop 16 ∧ z.sentThisSecond = x.sentThisSecond + 1) ∧
      (∀ l, x.lost = some l → goes (exec (.eventSend n) s) fun t => ∃ e z,
        t.sdp.event = some (n, (x.msgCount + 1) % 2 ^ 32, e :: x.waiting.take 15) ∧ e.code = 0xD002 ∧ e.seq = l.oldest ∧
        e.arg = argBytes (leBytes 4 l.count ++ leBytes 4 l.newest) ∧ t.session n = some z ∧ z.lost = none ∧
        z.waiting = x.waiting.drop 15) ∧
      (x.waiting = [] → x.lost = none → exec (.eventSend n) s = .next s)) ∧
    (∀ n, s.session n = some x → 100 ≤ x.sentThisSecond → exec (.eventSend n) s = .next s)

/-- 17 R417, R418: a save captures the settings of its tick and stores them when it is done; a restore ends with its status, and one
that is not `OK` changes no setting. -/
def Obligations.SavedSets : Prop :=
  ∀ (s : State) (h : SdpHdr) (x : Session),
    (∀ (slot : Nat) (name : List Byte), slot < 256 → sessionTakes s h 0x0C (leBytes 1 slot ++ leBytes 3 0 ++ slice name 0 12) x →
      (2 ≤ x.role → 1 ≤ s.mode → s.mode ≤ 10 → slot < 8 → s.sdp.saving = none → goes (exec (.setSave h slot name) s) fun t =>
        ∃ action set, action ≠ 0 ∧ replied s t h x 0x0C St.OK (leBytes 4 action) ∧ t.sdp.saving = some (slot, action, set) ∧
          set.vals = s.savedVals ∧ set.blobs = s.savedBlobs ∧ set.tick = s.tick ∧ set.name = slice name 0 12 ∧
          set.layout = s.nat Obj.DICT_LAYOUT ∧ set.valid = true ∧ t.vals = s.vals ∧ t.blobs = s.blobs) ∧
      (x.role < 2 → goes (exec (.setSave h slot name) s) fun t => replied s t h x 0x0C St.ACCESS [] ∧ t.sdp.saving = s.sdp.saving)) ∧
    (∀ slot action set, s.sdp.saving = some (slot, action, set) → action ≠ 0 → goes (exec .setSaveDone s) fun t =>
      t.sdp.saving = none ∧ (t.sdp.sets.find? fun e => e.1 == slot) = some (slot, set) ∧
      (∀ j, j ≠ slot → (t.sdp.sets.find? fun e => e.1 == j) = s.sdp.sets.find? fun e => e.1 == j) ∧ actionEnds t action St.OK ∧
      t = { s with sdp := t.sdp }) ∧
    (∀ slot : Nat, slot < 256 → sessionTakes s h 0x0D (leBytes 1 slot ++ leBytes 3 0) x →
      (1 ≤ x.role → s.mode = 1 → slot < 8 → s.sdp.restoring = none → goes (exec (.setRestore h slot) s) fun t =>
        ∃ action, action ≠ 0 ∧ replied s t h x 0x0D St.OK (leBytes 4 action) ∧ t.sdp.restoring = some (slot, action) ∧
          t.vals = s.vals ∧ t.blobs = s.blobs) ∧
      (1 ≤ x.role → s.mode ≠ 1 → goes (exec (.setRestore h slot) s) fun t => replied s t h x 0x0D St.MODE [] ∧ onlySdp s t)) ∧
    (∀ slot action, s.sdp.restoring = some (slot, action) → action ≠ 0 →
      let v : State := { s with sdp := { s.sdp with restoring := none } }
      (goes (exec .setRestoreDone s) fun t => t.sdp.restoring = none ∧ actionEnds t action (v.restoreSet slot).1 ∧
        ((v.restoreSet slot).1 ≠ St.OK → t = { s with sdp := t.sdp })) ∧
      ((s.sdp.sets.find? fun e => e.1 == slot) = none → (v.restoreSet slot).1 = St.NO_OBJECT) ∧
      (∀ set, (s.sdp.sets.find? fun e => e.1 == slot) = some (slot, set) → set.valid = false →
        (v.restoreSet slot).1 = St.CHECK))

/-! ### The supervisor application (19) -/

/-- 19 R460-R463: the application starts from a verified slot and falls back from one that fails; an access fault, a bad service,
poison and a silent watchdog stop it and start it again within the hour's limit; the trial ends by a confirmation or by its limit. -/
def Obligations.ApplicationSupervision : Prop :=
  ∀ s : State,
    let slot := s.nat Obj.APP_SLOT_RUNNING
    let n := if s.app.hour = s.tick / 900000000 then s.app.restarts else 0
    let waiting : Prop := ∀ j ∈ s.sdp.jobs, j.waits ≠ []
    let stops (o : Host.Outcome State Fault Refusal) : Prop :=
      (n < s.nat Obj.APP_RESTART_LIMIT → goes o fun t => t.val Obj.APP_STATE = 1 ∧ t.val Obj.APP_SLOT_RUNNING = 0xFF ∧
        t.app.starting = some slot ∧ t.app.restarts = n + 1 ∧ t.app.hour = s.tick / 900000000 ∧ t.sdp.jobs = [] ∧
        t.val Obj.APP_RESTART_COUNT = (s.val Obj.APP_RESTART_COUNT + 1) % 2 ^ Obj.APP_RESTART_COUNT.ty.bits ∧ newestIs t 0xF003) ∧
      (s.nat Obj.APP_RESTART_LIMIT ≤ n → goes o fun t => t.val Obj.APP_STATE = 1 ∧ t.app.starting = some (5 - slot) ∧
        t.boot.aPref = 5 - slot ∧ t.app.failed = [slot] ∧ t.sdp.jobs = [] ∧ newestIs t 0xF002)
    (∀ k, s.app.starting = some k → goes (exec .appStartDone s) fun t =>
      (s.slotPasses k = true → t.val Obj.APP_STATE = (if s.boot.aTrial && s.boot.aPref == k then 2 else 3) ∧
        t.val Obj.APP_SLOT_RUNNING = k ∧ t.app.starting = none ∧ t.app.startOrd = s.clk.ord ∧ t.app.kickOrd = s.clk.ord) ∧
      (s.slotPasses k = false → 5 - k ∉ s.app.failed → 5 - k ≠ k → t.val Obj.APP_STATE = 1 ∧ t.app.starting = some (5 - k) ∧
        k ∈ t.app.failed ∧ t.boot.aPref = 5 - k ∧ t.boot.aTrial = false) ∧
      (s.slotPasses k = false → 5 - k ∈ s.app.failed → t.val Obj.APP_STATE = 0 ∧ t.val Obj.APP_SLOT_RUNNING = 0xFF ∧
        t.app.starting = none)) ∧
    (s.app.starting = none → exec .appStartDone s = .next s) ∧
    (s.appRuns = true → waiting → 2 ≤ slot → slot ≤ 3 →
      stops (exec .appAccessFault s) ∧ stops (exec .appPoisonStop s) ∧
      (∀ k, k = 0 ∨ 10 < k → stops (exec (.appBadService k) s)) ∧
      (s.app.kickOrd + s.nat Obj.APP_WATCHDOG ≤ s.clk.ord → stops (exec .appWatchdogExpire s))) ∧
    (∀ k, 1 ≤ k → k ≤ 10 → exec (.appBadService k) s = .next s) ∧
    (s.clk.ord < s.app.kickOrd + s.nat Obj.APP_WATCHDOG → exec .appWatchdogExpire s = .next s) ∧
    (s.appRuns = false → exec .appAccessFault s = .next s) ∧
    (s.val Obj.APP_STATE = 2 → waiting → 2 ≤ slot → slot ≤ 3 → s.app.startOrd + s.nat Obj.IMAGE_TRIAL_LIMIT ≤ s.clk.ord →
      goes (exec .appTrialTimeout s) fun t => t.imgState slot = 4 ∧ t.val Obj.APP_STATE = 1 ∧ t.app.starting = some (5 - slot) ∧
        t.boot.aTrial = false ∧ newestIs t 0xF002) ∧
    (s.clk.ord < s.app.startOrd + s.nat Obj.IMAGE_TRIAL_LIMIT → exec .appTrialTimeout s = .next s) ∧
    (s.val Obj.APP_STATE = 2 → goes (exec .appConfirm s) fun t => t.val Obj.APP_STATE = 3 ∧ t.boot.aTrial = false ∧
      newestIs t 0xF001 ∧ answered t St.OK ∧ keepsVals s t [Obj.APP_STATE]) ∧
    (s.val Obj.APP_STATE = 3 → exec .appConfirm s = .next (s.status St.MODE)) ∧
    (s.appRuns = true → goes (exec .appKick s) fun t => t.app.kickOrd = s.clk.ord ∧ answered t St.OK ∧ t.vals = s.vals)

/-- 19 R463, R464: the services of the running application, and the requests that it answers. -/
def Obligations.ApplicationServices : Prop :=
  ∀ s : State, s.appRuns = true →
    (∀ a : ObjAddr, (appIndex a.index = false ∨ s.indexServed a.index = false) → s.readWaits a.index = false →
      exec (.appObjRead a) s = .next (s.answer { status := (s.readItem a).status, data := (s.readItem a).value })) ∧
    (∀ a : ObjAddr, appIndex a.index = true → s.indexServed a.index = true → goes (exec (.appObjRead a) s) fun t =>
      ∃ j, t.sdp.jobs.getLast? = some j ∧ j.hdr = none ∧ j.role = 2 ∧ j.writes = false ∧ j.items = [{ addr := a, value := [] }] ∧
        j.waits = [(s.sdp.nextForward, 0, s.clk.ord)] ∧ t.sdp.jobs.length = s.sdp.jobs.length + 1 ∧
        t.sdp.nextForward = s.sdp.nextForward + 1 ∧ t = { s with sdp := t.sdp }) ∧
    (∀ a : ObjAddr, s.readWaits a.index = true → goes (exec (.appObjRead a) s) fun t =>
      ∃ j, t.sdp.jobs.getLast? = some j ∧ j.hdr = none ∧ j.held = true ∧ j.waits = [] ∧ t.sdp.jobs.length = s.sdp.jobs.length + 1 ∧
        t.sdp.answer = s.sdp.answer ∧ t = { s with sdp := t.sdp }) ∧
    (∀ (a : ObjAddr) (v : List Byte), appIndex a.index = false →
      (∀ st, s.decodeItem 2 true { addr := a, value := v } = .error st →
        exec (.appObjWrite a v) s = .next (s.answer { status := st, item := 0 })) ∧
      (∀ d, s.decodeItem 2 true { addr := a, value := v } = .ok d → s.lateSteps (viewOf [d]) 1 [] d = St.OK →
        goes (exec (.appObjWrite a v) s) fun t => answered t St.OK ∧
          ∀ w, t.sdp.answer = some w → (w.action ≠ 0 ↔ d.o.long = true))) ∧
    (∀ (k : Se) (m : Msg), (s.eng k).inRoom = true → goes (exec (.appEngSend k m) s) fun t =>
      (t.eng k).arriving = (s.eng k).arriving ++ [msgList m] ∧ (∀ j, j ≠ k.val → t.eng j = s.eng j) ∧ answered t St.OK) ∧
    (∀ (k : Se) (m : Msg), (s.eng k).inRoom = false → exec (.appEngSend k m) s = .next (s.status St.BUSY)) ∧
    (∀ k : Se, (∀ m r, (s.eng k).outq = m :: r → goes (exec (.appEngRecv k) s) fun t => (t.eng k).outq = r ∧
        (∀ j, j ≠ k.val → t.eng j = s.eng j) ∧
        ∃ a, t.sdp.answer = some a ∧ a.status = St.OK ∧ a.data = m.flatMap fun w => leBytes 4 w.toNat) ∧
      ((s.eng k).outq = [] → exec (.appEngRecv k) s = .next (s.status St.NOT_READY))) ∧
    (∀ (u : Fin 4) (d : BitVec 256), (∀ st, s.cvuRefusal u d = some st → exec (.appCvu u d) s = .next (s.status st)) ∧
      (s.cvuRefusal u d = none → goes (exec (.appCvu u d) s) fun t =>
        (t.cvu u).queue = (s.cvu u).queue ++ [{ desc := d, action := 0 }] ∧ answered t St.OK)) ∧
    (∀ (off len : Nat) (data : List Byte),
      (48 < len ∨ 974848 < off + len → ∀ w, exec (.appDataRw off len w data) s = .next (s.status St.RANGE)) ∧
      (len ≤ 48 → off + len ≤ 974848 →
        (goes (exec (.appDataRw off len true data) s) fun t =>
          (∀ i, i < len → t.byte (appDataBase + off + i) = nth 0 data i) ∧
          (∀ a, (a < appDataBase + off ∨ appDataBase + off + len ≤ a) → t.byte a = s.byte a) ∧ answered t St.OK) ∧
        exec (.appDataRw off len false data) s =
          .next (s.answer { status := St.OK, data := s.bytes (appDataBase + off) len }))) ∧
    (∀ (code : Nat) (arg : List Byte),
      (0x80 ≤ code → code ≤ 0xFF → s.flt.spans = [] → s.flt.mramDead = false → goes (exec (.appLogFault code arg) s) fun t =>
        answered t St.OK ∧ newestIs t 0xF004 ∧ t.nat Obj.FAULT_SEQ = (s.nat Obj.FAULT_SEQ + 1) % 2 ^ 32 ∧
        t.flt.spans = [{ code := 0x1F00 + code, kind := 0, num := 0, start := s.clk.ord }]) ∧
      (code < 0x80 ∨ 0xFF < code → exec (.appLogFault code arg) s = .next (s.status St.RANGE))) ∧
    (∀ (req role ord : Nat) (it : WItem),
      s.sdp.jobs = [{ hdr := none, role, writes := false, items := [it], waits := [(req, 0, ord)] }] → appIndex it.addr.index = true →
      (∀ v : List Byte, v.length ≤ 256 → goes (exec (.appObjReply req 0 v) s) fun t =>
        t.sdp.jobs = [] ∧ ∃ a, t.sdp.answer = some a ∧ a.status = St.OK ∧ a.data = v) ∧
      (∀ v : List Byte, 256 < v.length → goes (exec (.appObjReply req 0 v) s) fun t => t.sdp.jobs = [] ∧ answered t St.LENGTH) ∧
      (∀ st v, 0 < st → st < 256 → goes (exec (.appObjReply req st v) s) fun t => t.sdp.jobs = [] ∧ answered t st) ∧
      (ord + 125 ≤ s.clk.ord → goes (exec (.appReplyTimeout req) s) fun t => t.sdp.jobs = [] ∧ answered t St.INTERNAL) ∧
      (s.clk.ord < ord + 125 → exec (.appReplyTimeout req) s = .next s)) ∧
    (∀ req st v, (∀ j ∈ s.sdp.jobs, ∀ w ∈ j.waits, w.1 ≠ req) → exec (.appObjReply req st v) s = .next (s.status St.RANGE))

/-! ### Images and fuses (19) -/

/-- 19 R454-R456, R459, R465, R466: a verification gives its slot `VALID` or `INVALID`, an erase zeros and `EMPTY`; a confirmation
ends the kernel's trial; a fuse burn takes its key, its revocation or the rollback level when it is done. -/
def Obligations.ImagesAndFuses : Prop :=
  ∀ (s : State) (r : Role),
    (∀ slot : Fin 68,
      (accepts s r (objAddr 0xB013 (slot + 1) 0 0) [1] = true → goes (exec (.imageVerify r slot) s) fun t =>
        ∃ a, started t a ∧ t.acts.verifies = s.acts.verifies ++ [(slot.val, a)] ∧ keepsMem s t ∧ t.vals = s.vals) ∧
      (∀ a, (s.acts.verifies.find? fun v => v.1 == slot.val) = some (slot.val, a) → a ≠ 0 →
        goes (exec (.imageVerifyDone slot) s) fun t =>
          t.imgState slot = (match s.imgVerify slot with | none => 3 | some _ => 4) ∧
          actionEnds t a (match s.imgVerify slot with | none => St.OK | some f => f.2) ∧
          t.acts.verifies = s.acts.verifies.erase (slot.val, a) ∧ keepsMem s t) ∧
      ((s.acts.verifies.find? fun v => v.1 == slot.val) = none → exec (.imageVerifyDone slot) s = .next s) ∧
      (accepts s r (objAddr 0xB014 (slot + 1) 0 0) [1] = true → goes (exec (.imageErase r slot) s) fun t =>
        t.imgState slot = 0 ∧ (∀ i, i < slotBytes slot → t.byte (slotAddr slot i) = 0) ∧
        (∀ a, (a < slotAddr slot 0 ∨ slotAddr slot (slotBytes slot) ≤ a) → t.byte a = s.byte a) ∧ answered t St.OK)) ∧
    (accepts s r (objAddr 0xB001 0 0 0) [1] = true →
      (s.boot.onTrial = true → goes (exec (.kernelConfirm r) s) fun t => t.boot.kTrial = false ∧ t.boot.kTried = false ∧
        t.boot.onTrial = false ∧ newestIs t 0xF001 ∧ answered t St.OK ∧ t.vals = s.vals) ∧
      (s.boot.onTrial = false → goes (exec (.kernelConfirm r) s) fun t => answered t St.OK ∧ t = { s with sdp := t.sdp })) ∧
    (accepts s r (objAddr 0xB003 0 0 0) [1] = true → goes (exec (.rollbackCommit r) s) fun t =>
      ∃ a, started t a ∧ t.acts.burn = some (3, 0, [], a) ∧ t.vals = s.vals) ∧
    (∀ (key : Fin 4) (hash : List Byte), accepts s r (objAddr 0xB005 (key + 1) 0 0) hash = true →
      goes (exec (.fuseOwnerKey r key hash) s) fun t =>
        ∃ a, started t a ∧ t.acts.burn = some (1, key.val + 1, hash, a) ∧ t.blobs = s.blobs) ∧
    (∀ key : Fin 4, accepts s r (objAddr 0xB006 (key + 1) 0 0) [1] = true → goes (exec (.fuseOwnerRevoke r key) s) fun t =>
      ∃ a, started t a ∧ t.acts.burn = some (2, key.val + 1, [], a) ∧ t.vals = s.vals) ∧
    (∀ n b a, s.acts.burn = some (1, n, b, a) → a ≠ 0 → n ≤ 4 → goes (exec .fuseBurnDone s) fun t =>
      t.blob Obj.FUSE_OWNER_KEY 0 n = b ∧ t.acts.burn = none ∧ actionEnds t a St.OK ∧ t.vals = s.vals) ∧
    (∀ n b a, s.acts.burn = some (2, n, b, a) → a ≠ 0 → n ≤ 4 → goes (exec .fuseBurnDone s) fun t =>
      t.val Obj.FUSE_OWNER_REVOKE 0 n = 1 ∧ keepsVals s t [Obj.FUSE_OWNER_REVOKE] ∧ t.acts.burn = none ∧ actionEnds t a St.OK) ∧
    (∀ n b a, s.acts.burn = some (3, n, b, a) → a ≠ 0 → goes (exec .fuseBurnDone s) fun t =>
      t.nat Obj.ROLLBACK_FUSE = max (s.nat Obj.ROLLBACK_FUSE) (min 64 s.kernelLevel) ∧
      keepsVals s t [Obj.ROLLBACK_FUSE, Obj.IMAGE_STATE] ∧ t.acts.burn = none ∧ actionEnds t a St.OK) ∧
    (s.acts.burn = none → exec .fuseBurnDone s = .next s)

/-! ### Fatal faults and the dump (21) -/

/-- 20 R486; 21 R491, R504, R507, R508: a fatal fault halts the module at once and begins the dump, unless one is held; the dump is
laid out in DRAM, then copied to MRAM, and its state and event say which is held. -/
def Obligations.FatalFaultsAndTheDump : Prop :=
  ∀ (s : State) (r : Role),
    let halts (o : Host.Outcome State Fault Refusal) (code : Nat) : Prop :=
      (s.mode ≠ 11 → goes o fun t => t.mode = 11 ∧ t.nat Obj.MODE_PENDING = 0 ∧ t.boot.haltOrd = s.clk.ord ∧ t.flt.spans = []) ∧
      (s.flt.dumping = false → s.on Obj.DUMP_KEEP_FIRST = false → goes o fun t => t.mode = 11 ∧ t.flt.dumping = true ∧
        t.val Obj.DUMP_STATE = 1 ∧ t.val Obj.DUMP_FAULT = code ∧ t.flt.dumpMode = s.mode.toNat ∧ t.flt.dumpTick = s.tick ∧
        t.flt.dumpDram = false ∧ t.flt.dumpLost = stackLost code ∧ t.flt.dumpNoMram = (code == 0x3E08)) ∧
      (s.flt.dumping = true → goes o fun t => t.mode = 11 ∧ t.flt.dumping = true ∧ t.val Obj.DUMP_FAULT = s.val Obj.DUMP_FAULT ∧
        t.flt.dumpTick = s.flt.dumpTick) ∧
      (s.flt.dumping = false → s.on Obj.DUMP_KEEP_FIRST = true → (s.val Obj.DUMP_STATE = 2 ∨ s.val Obj.DUMP_STATE = 3) →
        s.flt.dumpAcked = false → goes o fun t => t.mode = 11 ∧ t.flt.dumping = false ∧ t.val Obj.DUMP_FAULT = s.val Obj.DUMP_FAULT ∧
          t.val Obj.DUMP_STATE = s.val Obj.DUMP_STATE ∧ t.flt.dumpTick = s.flt.dumpTick)
    (∀ (c : BitVec 16) kind num, s.boot.step ≠ 0 →
      (c.toNat ∈ [0x3030, 0x3031, 0x3E05, 0x3E06, 0x3E07, 0x3E08, 0x3F10, 0x3F11] → halts (exec (.fatalFault c kind num) s) c.toNat) ∧
      (c.toNat ∉ [0x3030, 0x3031, 0x3E05, 0x3E06, 0x3E07, 0x3E08, 0x3F10, 0x3F11] → exec (.fatalFault c kind num) s = .next s)) ∧
    (s.boot.step ≠ 0 → halts (exec .lockstepMismatch s) 0x3F10) ∧
    (s.boot.step = 0 → exec .lockstepMismatch s = .next s) ∧
    (s.flt.dumping = true → s.flt.dumpLost = false → s.flt.dumpDram = false → goes (exec .dumpWriteDone s) fun t =>
      t.flt.dumpDram = true ∧ (∀ i, i < 4 → t.byte (dumpBase + i) = nth 0 (leBytes 4 0x44464C4B) i) ∧
      (s.flt.dumpNoMram = false → t.flt.dumping = true ∧ t.flt.dumpCopy = false ∧ t.vals = s.vals) ∧
      (s.flt.dumpNoMram = true → t.flt.dumping = false ∧ t.val Obj.DUMP_STATE = 2 ∧ newestIs t 0xF005)) ∧
    (s.flt.dumping = true → s.flt.dumpNoMram = false → (s.flt.dumpLost = true ∨ s.flt.dumpDram = true) →
      goes (exec .dumpCopyDone s) fun t => t.flt.dumpCopy = true ∧ t.flt.dumping = false ∧
        t.val Obj.DUMP_STATE = (if s.flt.dumpDram then 2 else 3) ∧ newestIs t 0xF005 ∧ keepsVals s t [Obj.DUMP_STATE]) ∧
    (s.flt.dumping = false → exec .dumpWriteDone s = .next s ∧ exec .dumpCopyDone s = .next s) ∧
    (s.flt.dumpLost = true ∨ s.flt.dumpDram = true → exec .dumpWriteDone s = .next s) ∧
    (s.flt.dumpNoMram = true ∨ (s.flt.dumpLost = false ∧ s.flt.dumpDram = false) → exec .dumpCopyDone s = .next s) ∧
    (accepts s r (objAddr 0xB083 0 0 0) [1] = true → goes (exec (.dumpAck r) s) fun t =>
      t.flt = { s.flt with dumpAcked := true } ∧ answered t St.OK ∧ t = { s with sdp := t.sdp, flt := t.flt })

/-! ### Memory integrity and check-value units (18) -/

/-- 18 R427-R430, R436, R437: what the scrubber finds in its next granule, and a slow lap. A corrected error is counted; an
uncorrectable one marks the granule, and in the supervisor's memory halts the module. -/
def Obligations.Scrubbers : Prop :=
  ∀ (s : State) (dom : Domain),
    let d := domNum dom
    let g := smGet 0 s.ecc.lapAt d
    let scrubs : Prop := d ≠ 13 ∧ Mode.lanes s.mode = true ∧ s.on Obj.SCRUB_ENABLE d = true
    let meets : Prop := scrubs ∧ s.scrubSkips d g = false ∧ smGet false s.poison (granuleAddr d g) = false
    let room : Prop := s.val Obj.ECC_BUCKET_LEVEL d < s.val Obj.ECC_BUCKET_CAPACITY d
    (scrubs → g + 1 < domGranules d →
      exec (.scrubGranule dom .none) s = .next (s.setEcc fun x => { x with lapAt := smPut 0 x.lapAt d (g + 1) })) ∧
    (scrubs → domGranules d ≤ g + 1 → goes (exec (.scrubGranule dom .none) s) fun t =>
      smGet 0 t.ecc.lapAt d = 0 ∧ smGet 0 t.ecc.lapOrd d = s.clk.ord ∧
      t.val Obj.SCRUB_LAP_LAST d = (s.clk.ord - smGet 0 s.ecc.lapOrd d : Nat) ∧
      t.val Obj.SCRUB_LAP_COUNT d = (s.val Obj.SCRUB_LAP_COUNT d + 1) % 2 ^ Obj.SCRUB_LAP_COUNT.ty.bits ∧ keepsMem s t) ∧
    (∀ b, meets → room → g + 1 < domGranules d → goes (exec (.scrubGranule dom (.dataBit b)) s) fun t =>
      t.val Obj.ECC_CE_COUNT d = (s.val Obj.ECC_CE_COUNT d + 1) % 2 ^ Obj.ECC_CE_COUNT.ty.bits ∧
      t.val Obj.ECC_BUCKET_LEVEL d = s.val Obj.ECC_BUCKET_LEVEL d + 1 ∧ smGet 0 t.ecc.lapAt d = g + 1 ∧
      keepsVals s t [Obj.ECC_CE_COUNT, Obj.ECC_BUCKET_LEVEL] ∧ keepsMem s t ∧ t.poison = s.poison) ∧
    (meets → room → g + 1 < domGranules d → goes (exec (.scrubGranule dom .checkBit) s) fun t =>
      t.val Obj.ECC_CB_COUNT d = (s.val Obj.ECC_CB_COUNT d + 1) % 2 ^ Obj.ECC_CB_COUNT.ty.bits ∧
      t.val Obj.ECC_BUCKET_LEVEL d = s.val Obj.ECC_BUCKET_LEVEL d + 1 ∧ smGet 0 t.ecc.lapAt d = g + 1 ∧
      keepsVals s t [Obj.ECC_CB_COUNT, Obj.ECC_BUCKET_LEVEL] ∧ keepsMem s t ∧ t.poison = s.poison) ∧
    (∀ a syn, meets → g + 1 < domGranules d → (d ≠ 4 ∨ 4 * g < cdBytes ∨ cdBytes + supBytes ≤ 4 * g) →
      goes (exec (.scrubGranule dom (.uncorrectable a syn)) s) fun t =>
        smGet false t.poison (granuleAddr d g) = true ∧
        (∀ x, x ≠ granuleAddr d g → smGet false t.poison x = smGet false s.poison x) ∧
        t.val Obj.ECC_UE_COUNT d = (s.val Obj.ECC_UE_COUNT d + 1) % 2 ^ Obj.ECC_UE_COUNT.ty.bits ∧
        (t.blob Obj.ECC_LAST_UE d).take 8 = leBytes 8 s.tick ∧ t.mode = s.mode) ∧
    (∀ a syn, meets → d = 4 → cdBytes ≤ 4 * g → 4 * g < cdBytes + supBytes → goes (exec (.scrubGranule dom (.uncorrectable a syn)) s) fun t =>
      smGet false t.poison (granuleAddr d g) = true ∧ t.mode = 11) ∧
    ((d = 13 ∨ Mode.lanes s.mode = false ∨ s.on Obj.SCRUB_ENABLE d = false) → ∀ e, exec (.scrubGranule dom e) s = .next s) ∧
    (scrubs → smGet false s.ecc.slow d = false → s.nat Obj.SCRUB_LAP_LIMIT d < s.clk.ord - smGet 0 s.ecc.lapOrd d →
      goes (exec (.scrubSlow dom) s) fun t => newestIs t 0xE003 ∧ smGet false t.ecc.slow d = true ∧
        t = { s with sdp := t.sdp, ecc := t.ecc }) ∧
    (smGet false s.ecc.slow d = true ∨ ¬scrubs ∨ s.clk.ord - smGet 0 s.ecc.lapOrd d ≤ s.nat Obj.SCRUB_LAP_LIMIT d →
      exec (.scrubSlow dom) s = .next s)

/-- 18 R434: the bucket of a domain scope. A correctable error in a granule, in data or in check bits, raises its level by one while
the level is below the capacity, whether a scrubber or an access meets it; a boundary whose number is a multiple of the leak takes
one from a level above 0. -/
def Obligations.LeakyBuckets : Prop :=
  ∀ (s : State) (dom : Domain),
    let d := domNum dom
    let up (t : State) : Prop := t.val Obj.ECC_BUCKET_LEVEL d =
      if s.val Obj.ECC_BUCKET_LEVEL d < s.val Obj.ECC_BUCKET_CAPACITY d then s.val Obj.ECC_BUCKET_LEVEL d + 1
      else s.val Obj.ECC_BUCKET_LEVEL d
    d < 13 →
    (∀ g b, g < domGranules d → goes (exec (.singleEventUpset (.granule dom g (.dataBit b))) s) up ∧
      goes (exec (.singleEventUpset (.granule dom g .checkBit)) s) up) ∧
    (∀ b, let g := smGet 0 s.ecc.lapAt d
      Mode.lanes s.mode = true → s.on Obj.SCRUB_ENABLE d = true → s.scrubSkips d g = false →
      smGet false s.poison (granuleAddr d g) = false →
      goes (exec (.scrubGranule dom (.dataBit b)) s) up ∧ goes (exec (.scrubGranule dom .checkBit) s) up) ∧
    (s.tick % s.nat Obj.ECC_BUCKET_LEAK d = 0 → smGet 0 s.ecc.leaked d ≠ s.clk.ord + 1 → goes (exec (.eccBucketLeak dom) s) fun t =>
      t.nat Obj.ECC_BUCKET_LEVEL d = s.nat Obj.ECC_BUCKET_LEVEL d - 1 ∧ keepsVals s t [Obj.ECC_BUCKET_LEVEL] ∧
      smGet 0 t.ecc.leaked d = s.clk.ord + 1 ∧ t = { s with vals := t.vals, ecc := t.ecc }) ∧
    (s.tick % s.nat Obj.ECC_BUCKET_LEAK d ≠ 0 ∨ smGet 0 s.ecc.leaked d = s.clk.ord + 1 → exec (.eccBucketLeak dom) s = .next s)

/-- 18 R438-R443: a descriptor waits in its unit's queue; the first one completes with its value, status and slot; a written slot
holds its fields. A descriptor that starts and ends a CRC-32C over an unpoisoned range gives the check value of its bytes. -/
def Obligations.CheckValueUnits : Prop :=
  ∀ (s : State) (r : Role) (u : Fin 4),
    (∀ d : BitVec 256, accepts s r (objAddr 0xA020 (u + 1) 0 0) (leBytes 32 d.toNat) = true → goes (exec (.cvuSubmit r u d) s) fun t =>
      ∃ a, started t a ∧ (t.cvu u).queue = (s.cvu u).queue ++ [{ desc := d, action := a }] ∧
        t.val Obj.CVU_QUEUE_DEPTH 0 (u + 1) = ((s.cvu u).queue.length + 1 : Nat) ∧ keepsMem s t) ∧
    (∀ j rest, (s.cvu u).queue = j :: rest →
      let i := descField j.desc 100 4
      let q := s.cvuRun (smGet {} (s.cvu u).slots i) j.desc
      let w := cvuResult j.desc q.1 q.2.1 q.2.2.1 q.2.2.2.1
      goes (exec (.cvuJobDone u) s) fun t =>
        (t.cvu u).queue = rest ∧ smGet {} (t.cvu u).slots i = q.1 ∧ t.val Obj.CVU_QUEUE_DEPTH 0 (u + 1) = rest.length ∧
        (q.2.2.2.2 = true → t.val Obj.CVU_JOB_COUNT 0 (u + 1) =
          (s.val Obj.CVU_JOB_COUNT 0 (u + 1) + 1) % 2 ^ Obj.CVU_JOB_COUNT.ty.bits) ∧
        (q.2.2.2.2 = false → t.val Obj.CVU_JOB_COUNT 0 (u + 1) = s.val Obj.CVU_JOB_COUNT 0 (u + 1)) ∧
        (j.action = 0 → t.ecc.ring.head? = some w) ∧
        (j.action ≠ 0 → t.blob Obj.CVU_RESULT 0 (u + 1) = leBytes 16 w.toNat ∧ actionEnds t j.action q.2.2.1) ∧ keepsMem s t) ∧
    ((s.cvu u).queue = [] → exec (.cvuJobDone u) s = .next s) ∧
    (∀ (slot : CvuSlot) (d : BitVec 256),
      let a := spaceAddr (descField d 252 4) (descField d 208 44)
      let n := descField d 176 32
      d.toNat.testBit 97 = true → d.toNat.testBit 96 = true → descField d 98 2 = 0 →
      s.poisoned (a / granuleOf a * granuleOf a) (n + a % granuleOf a) = false →
      (s.cvuRun slot d).2.1 = crc32c (s.bytes a n) ∧
      (d.toNat.testBit 95 = false → (s.cvuRun slot d).2.2.1 = St.OK) ∧
      (d.toNat.testBit 95 = true → (s.cvuRun slot d).2.2.1 =
        if crc32c (s.bytes a n) = descField d 144 32 then St.OK else St.CHECK)) ∧
    (∀ (slot : CvuSlot) (d : BitVec 256), d.toNat.testBit 97 = false → descField d 104 8 ≠ (slot.alive + 1) % 256 →
      (s.cvuRun slot d).1 = slot ∧ (s.cvuRun slot d).2.2.1 = St.RANGE ∧ (s.cvuRun slot d).2.2.2.2 = false) ∧
    (∀ v : BitVec 96, accepts s r (objAddr 0xA023 (u + 1) 0 0) (leBytes 12 v.toNat) = true →
      goes (exec (.cvuContextWrite r u v) s) fun t =>
        smGet {} (t.cvu u).slots (s.nat Obj.CVU_CONTEXT_SELECT 0 (u + 1)) =
          { value := v.toNat % 2 ^ 32, count := v.toNat / 2 ^ 32 % 2 ^ 32, poly := v.toNat / 2 ^ 64 % 256, alive := v.toNat / 2 ^ 72 % 256 } ∧
        (t.cvu u).queue = (s.cvu u).queue ∧ answered t St.OK ∧ keepsMem s t)

/-! ### Triplicated settings, self-test, the fault log and the field network (17, 20, 21) -/

/-- 21 R489, R493, R494, R498: an upset of one copy is voted away, of more changes the setting until the comparison repairs it from
its master copy; a span of repeats ends with its summary. -/
def Obligations.UpsetsRepairsAndSpans : Prop :=
  ∀ s : State,
    (∀ (kind num : Nat) (a : ObjAddr) (bit : Nat),
      let die := if kind = 4 ∧ num < 8 then num else 8
      exec (.singleEventUpset (.config kind num a 0 bit)) s = .next s ∧
      exec (.singleEventUpset (.config kind num a 1 bit)) s = .next (s.inc Obj.CFG_VOTE_FIX_COUNT die) ∧
      (∀ o e, a.index ≠ 0xFFFF → objAt a.index = some o → elemOf o.scope a.sub a.kind a.num = some e →
        o.ty ≠ .blob → o.ty ≠ .str → (o.access = .rw ∨ o.access = .rwm) → subOk o a.sub a.kind a.num = true →
        s.flt.master = [] → s.flt.repair = [] → goes (exec (.singleEventUpset (.config kind num a 3 bit)) s) fun t =>
          t.flt.master = [(die, key o e a.sub, a, s.val o e a.sub)] ∧
          toTwos o.ty.bits (t.val o e a.sub) = toTwos o.ty.bits (s.val o e a.sub) ^^^ 2 ^ (bit % o.ty.bits) ∧ keepsMem s t)) ∧
    (∀ c bit, exec (.singleEventUpset (.candidate c bit)) s = .next s) ∧
    (goes (exec (.singleEventUpset .lockstep) s) fun t => t.mode = 11) ∧
    (∀ dom g err, domGranules (domNum dom) ≤ g → exec (.singleEventUpset (.granule dom g err)) s = .next s) ∧
    (s.tick % 250 = 0 → goes (exec .cfgMasterCheck s) fun t =>
      t.flt.repair = s.flt.repair ++ s.flt.master ∧ t.flt.master = [] ∧ t = { s with flt := t.flt }) ∧
    (s.tick % 250 ≠ 0 → exec .cfgMasterCheck s = .next s) ∧
    (∀ (die : Nat) (a : ObjAddr) (o : ObjDef) (e : Nat) (v : Int), die < 9 → a.index ≠ 0xFFFF → objAt a.index = some o →
      o.idx < 0x9000 → e < 65536 → a.sub < 256 → o.idx ≠ 0x1087 → o.idx ≠ 0x1088 → s.flt.repair = [(die, key o e a.sub, a, v)] → s.flt.checkOrd < s.clk.ord →
      goes (exec .cfgMasterRepair s) fun t => t.flt.repair = [] ∧ t.val o e a.sub = v ∧
        t.val Obj.CFG_MASTER_FIX_COUNT die = (s.val Obj.CFG_MASTER_FIX_COUNT die + 1) % 2 ^ Obj.CFG_MASTER_FIX_COUNT.ty.bits) ∧
    (s.flt.repair = [] ∨ s.clk.ord ≤ s.flt.checkOrd → exec .cfgMasterRepair s = .next s) ∧
    (∀ (c : BitVec 16) (kind num : Nat) (x : Span), s.flt.spans = [x] → x.sameAs c.toNat kind num = true →
      x.start + 250000 ≤ s.clk.ord → s.flt.mramDead = false → goes (exec (.faultSpanEnd c kind num) s) fun t =>
        t.flt.spans = [] ∧ t.nat Obj.FAULT_SEQ = (if x.count = 0 then s.nat Obj.FAULT_SEQ else (s.nat Obj.FAULT_SEQ + 1) % 2 ^ 32) ∧
        t.mode = s.mode) ∧
    (∀ (c : BitVec 16) (kind num : Nat), (∀ x ∈ s.flt.spans, x.sameAs c.toNat kind num = true → s.clk.ord < x.start + 250000) →
      exec (.faultSpanEnd c kind num) s = .next s)

/-- 21 R500, R501, R503; 17 R422; 00 R9: a self-test takes its partitions in order and records each one's signature, time and status,
and ends its action; the network's link state; an ARP request for the module's address is answered with its MAC address. -/
def Obligations.SelfTestAndNetwork : Prop :=
  ∀ (s : State) (r : Role),
    (∀ (mask : BitVec 64) (p : Nat), accepts s r (objAddr 0xB060 0 0 0) (leBytes 8 mask.toNat) = true →
      nextPartition mask.toNat 0 = some p → goes (exec (.selftestStart r mask) s) fun t =>
        ∃ a, started t a ∧ t.val Obj.SELFTEST_RUNNING = p ∧ t.flt.testMask = mask.toNat ∧ t.flt.testAction = a ∧
          t.flt.testBad = false ∧ keepsMem s t) ∧
    (∀ mask : BitVec 64, accepts s r (objAddr 0xB060 0 0 0) (leBytes 8 mask.toNat) = true →
      nextPartition mask.toNat 0 = none → goes (exec (.selftestStart r mask) s) fun t =>
        ∃ a, started t a ∧ actionEnds t a St.OK ∧ t.vals = s.vals) ∧
    (∀ (sig : BitVec 64) (ticks p : Nat), p < 56 → s.val Obj.SELFTEST_RUNNING = p → goes (exec (.selftestPartitionDone sig ticks) s) fun t =>
      t.blob Obj.SELFTEST_RESULT 0 (p + 1) = leBytes 8 sig.toNat ++ leBytes 8 s.tick ++ leBytes 4 ticks ++
        leBytes 1 (if sig.toNat = s.goldenOf p then St.OK else St.CHECK) ++ leBytes 3 0 ∧
      (∀ q, nextPartition s.flt.testMask (p + 1) = some q → t.val Obj.SELFTEST_RUNNING = q ∧
        t.flt.testBad = (s.flt.testBad || decide (sig.toNat ≠ s.goldenOf p))) ∧
      (nextPartition s.flt.testMask (p + 1) = none → t.val Obj.SELFTEST_RUNNING = 0xFF ∧ t.flt.testMask = 0 ∧ t.flt.testAction = 0 ∧
        (s.flt.testAction ≠ 0 → actionEnds t s.flt.testAction
          (if s.flt.testBad || decide (sig.toNat ≠ s.goldenOf p) then St.CHECK else St.OK)))) ∧
    (∀ (sig : BitVec 64) (ticks : Nat), s.val Obj.SELFTEST_RUNNING = 0xFF → exec (.selftestPartitionDone sig ticks) s = .next s) ∧
    (∀ n : Fin 3, goes (exec (.netLinkStateChange n) s) fun t =>
      t.val Obj.NET_LINK_STATE = n.val ∧ keepsVals s t [Obj.NET_LINK_STATE] ∧ t = { s with vals := t.vals }) ∧
    (∀ (ip target : BitVec 32) (mac : BitVec 48),
      (s.serves = true → target.toNat = s.nat Obj.NET_IP_ADDR → exec (.arpRequest ip target mac) s =
        .next (s.answer { status := St.OK, data := s.netMac ++ (leBytes 4 target.toNat).reverse ++
          (leBytes 6 mac.toNat).reverse ++ (leBytes 4 ip.toNat).reverse })) ∧
      ((s.serves = false ∨ target.toNat ≠ s.nat Obj.NET_IP_ADDR) → exec (.arpRequest ip target mac) s = .next s))

/-! ### The whole machine -/

/-- A step with a command at the front of the queue carries out that command on the state whose queue is the rest. -/
def Obligations.StepRunsTheFrontCommand : Prop :=
  ∀ (c : Instr) (r : List Instr) (s : State), step { s with pending := c :: r } = exec c { s with pending := r }

/-- The model's choice (assumption log 4): a step on an empty queue changes nothing. A command leaves the rest of the queue as it is,
so a step takes exactly the front command from it. -/
def Obligations.StepTakesOneCommandOrIdles : Prop :=
  (∀ s : State, s.pending = [] → step s = .next s) ∧
  (∀ (c : Instr) (s t : State), exec c s = .next t → t.pending = s.pending) ∧
  (∀ (c : Instr) (r : List Instr) (s t : State), s.pending = c :: r → step s = .next t → t.pending = r)

/-- No command faults or is refused: whatever the state and the operands, every one answers a next state. -/
def Obligations.EveryCommandAnswersANextState : Prop :=
  ∀ (i : Instr) (s : State), ∃ t, exec i s = .next t

/-- 20 R468, R472; 17 R422; 03 R70; 08 R192; 15 R340; 02 R52: after reset the mode is BOOT, every object reads its default, memory
reads as zeros without marks, no session is open, no candidate is held, every lane is `OFF`, every engine `EMPTY`, time is `FREE`
and every input in range 3. The zeros of memory and the defaults the spec does not give are the model's choice (assumption log 3). -/
def Obligations.ResetState : Prop :=
  let s := State.reset
  s.pending = [] ∧ s.mode = 0 ∧ (∀ (o : ObjDef) (e sub : Nat), s.val o e sub = dfltVal o e sub ∧ s.blob o e sub = dfltBlob o) ∧
  (∀ a, s.byte a = 0 ∧ smGet false s.poison a = false) ∧ s.sdp.sessions = [] ∧ s.spec.cands = [] ∧ (∀ l, s.laneState l = 0) ∧
  (∀ k, s.val Obj.ENG_STATE k = 0) ∧ s.val Obj.TIME_STATE = 0 ∧ (∀ n, (s.inp n).range = 3 ∧ (s.inp n).relCount = 0) ∧
  s.clk.counting = false ∧ s.boot.step = 0

/-- Every step keeps the canonical form of memory and of its poison marks: addresses strictly rising, and nothing listed that an
unlisted address reads as. -/
def Obligations.StepsKeepMemoryCanonical : Prop :=
  ∀ s t : State, s.memoryOk = true → step s = .next t → t.memoryOk = true

/-- The state after reset has memory in canonical form. -/
def Obligations.ResetMemoryIsCanonical : Prop :=
  State.reset.memoryOk = true

/-- 05 R128, R131: a channel of an input is requantised by its gain entry and shift, each component rounded to nearest with ties away
from zero and limited to -127 to +127, every limited component counted; so the code 0x80 is never produced. -/
def Obligations.RequantisedSamples : Prop :=
  ∀ (s : State) (n ord : Nat) (c : List (Int × Int)), c.length = 2048 →
    let gain (f : Nat) : Int × Int := gainAt (s.tabBlob Obj.REQ_GAIN_SHADOW ord n).toArray f
    let raw (f : Nat) : Int × Int := nth (0, 0) c f
    let d : Int := 2 ^ (8 + s.tabNat Obj.REQ_SHIFT ord n)
    let round (x : Int) : Int := if 0 ≤ x then (2 * x + d) / (2 * d) else -((2 * -x + d) / (2 * d))
    let re (f : Nat) : Int := round ((gain f).1 * (raw f).1 - (gain f).2 * (raw f).2)
    let im (f : Nat) : Int := round ((gain f).1 * (raw f).2 + (gain f).2 * (raw f).1)
    let held (m : Int) : Int := max (-127) (min 127 m)
    let lost (m : Int) : Nat := if held m = m then 0 else 1
    let r := s.requantise n ord c
    (∀ f, f < 2048 → nth (0, 0) r.1 f = (held (re f), held (im f))) ∧
    (∀ y ∈ r.1, -127 ≤ y.1 ∧ y.1 ≤ 127 ∧ -127 ≤ y.2 ∧ y.2 ≤ 127) ∧
    ((∃ f, f < 2048 ∧ raw f ≠ (0, 0)) → r.2.val Obj.REQ_SAT_COUNT n =
      (s.val Obj.REQ_SAT_COUNT n + (((List.range 2048).map fun f => lost (re f) + lost (im f)).sum : Nat)) %
        2 ^ Obj.REQ_SAT_COUNT.ty.bits) ∧
    r.2 = { s with vals := r.2.vals }
end

