-- ==== Sys2Proof/Laws/Maps.lean ====
section
/-! SUPPORT. The laws of sparse maps: a read after a write to the same key gives the value written, a write leaves every
other key alone, and every operation keeps the canonical form. -/

namespace Sys2Proof.Machine

variable {α : Type}

@[simp] theorem smGet_nil (d : α) (i : Nat) : smGet d [] i = d := rfl

theorem smGet_smIns_same (d : α) (i : Nat) (v : α) (m : SMap α) : smGet d (smIns i v m) i = v := by
  induction m with
  | nil => simp [smIns, smGet]
  | cons e r ih =>
    obtain ⟨k, w⟩ := e
    simp only [smIns]
    split
    · simp [smGet]
    · split
      · simp [smGet]
      · rename_i h1 h2
        simp [smGet, Ne.symm h2, ih]

theorem smGet_smIns_ne (d : α) {i j : Nat} (h : j ≠ i) (v : α) (m : SMap α) :
    smGet d (smIns i v m) j = smGet d m j := by
  induction m with
  | nil => simp [smIns, smGet, Ne.symm h]
  | cons e r ih =>
    obtain ⟨k, w⟩ := e
    simp only [smIns]
    split
    · simp [smGet, Ne.symm h]
    · split
      · rename_i h1 h2
        subst h2
        simp [smGet, Ne.symm h]
      · simp only [smGet, ih]

theorem smGet_filter_same (d : α) (i : Nat) (m : SMap α) : smGet d (m.filter fun e => e.1 != i) i = d := by
  induction m with
  | nil => rfl
  | cons e r ih =>
    obtain ⟨k, w⟩ := e
    by_cases h : k = i
    · simp [h, ih]
    · simp [h, smGet, ih]

theorem smGet_filter_ne (d : α) {i j : Nat} (h : j ≠ i) (m : SMap α) :
    smGet d (m.filter fun e => e.1 != i) j = smGet d m j := by
  induction m with
  | nil => rfl
  | cons e r ih =>
    obtain ⟨k, w⟩ := e
    by_cases hk : k = i
    · subst hk
      simp [smGet, Ne.symm h, ih]
    · simp [hk, smGet, ih]

/-- A read after a write to the same key gives the value written. -/
@[simp] theorem smGet_smPut_same [DecidableEq α] (d : α) (m : SMap α) (i : Nat) (v : α) : smGet d (smPut d m i v) i = v := by
  unfold smPut
  split
  · rename_i h
    rw [smGet_filter_same, h]
  · exact smGet_smIns_same d i v m

/-- A write leaves every other key alone. -/
theorem smGet_smPut_ne [DecidableEq α] (d : α) (m : SMap α) {i j : Nat} (h : j ≠ i) (v : α) :
    smGet d (smPut d m i v) j = smGet d m j := by
  unfold smPut
  split
  · exact smGet_filter_ne d h m
  · exact smGet_smIns_ne d h v m

/-- The same when the key read has a default of its own. -/
theorem smGet_smPut_ne' [DecidableEq α] (d d' : α) (m : SMap α) {i j : Nat} (h : j ≠ i) (v : α) :
    smGet d' (smPut d m i v) j = smGet d' m j := by
  unfold smPut
  split
  · exact smGet_filter_ne d' h m
  · exact smGet_smIns_ne d' h v m

/-- Both at once. -/
theorem smGet_smPut [DecidableEq α] (d : α) (m : SMap α) (i j : Nat) (v : α) :
    smGet d (smPut d m i v) j = if j = i then v else smGet d m j := by
  by_cases h : j = i
  · subst h
    simp
  · simp [h, smGet_smPut_ne d m h v]

@[simp] theorem smGet_smUpd_same [DecidableEq α] (d : α) (m : SMap α) (i : Nat) (f : α → α) :
    smGet d (smUpd d m i f) i = f (smGet d m i) := smGet_smPut_same d m i _

theorem smGet_smUpd_ne [DecidableEq α] (d : α) (m : SMap α) {i j : Nat} (h : j ≠ i) (f : α → α) :
    smGet d (smUpd d m i f) j = smGet d m j := smGet_smPut_ne d m h _

/-! ### The canonical form -/

/-- Keys strictly rising. -/
def SmSorted (m : SMap α) : Prop := m.Pairwise fun a b => a.1 < b.1

/-- The canonical form as a proposition: keys strictly rising, no entry equal to the default. -/
def SmCanon (d : α) (m : SMap α) : Prop := SmSorted m ∧ ∀ e ∈ m, e.2 ≠ d

theorem smWfFrom_iff [DecidableEq α] (d : α) (m : SMap α) (lo : Option Nat) :
    smWfFrom d lo m = true ↔ (∀ l, lo = some l → ∀ e ∈ m, l < e.1) ∧ SmCanon d m := by
  induction m generalizing lo with
  | nil => simp [smWfFrom, SmCanon, SmSorted]
  | cons e r ih =>
    obtain ⟨k, v⟩ := e
    simp only [smWfFrom, Bool.and_eq_true, ih, SmCanon, SmSorted, List.pairwise_cons, List.mem_cons, forall_eq_or_imp,
      decide_eq_true_eq, Option.some.injEq, forall_eq']
    cases lo with
    | none => simp; tauto
    | some l =>
      simp only [decide_eq_true_eq, Option.some.injEq, forall_eq']
      constructor
      · rintro ⟨⟨h1, h2⟩, h3, h4, h5⟩
        exact ⟨⟨h1, fun e he => lt_trans h1 (h3 e he)⟩, ⟨h3, h4⟩, h2, h5⟩
      · rintro ⟨⟨h1, h2⟩, ⟨h3, h4⟩, h5, h6⟩
        exact ⟨⟨h1, h5⟩, h3, h4, h6⟩

/-- The check and the proposition agree. -/
theorem smWf_iff [DecidableEq α] (d : α) (m : SMap α) : smWf d m = true ↔ SmCanon d m := by
  simp [smWf, smWfFrom_iff]

theorem smIns_keys {i : Nat} {v : α} {m : SMap α} {e : Nat × α} (h : e ∈ smIns i v m) : e = (i, v) ∨ e ∈ m := by
  induction m with
  | nil => simpa [smIns] using h
  | cons a r ih =>
    obtain ⟨k, w⟩ := a
    simp only [smIns] at h
    split at h
    · simpa using h
    · split at h
      · rcases List.mem_cons.1 h with h | h
        · exact .inl h
        · exact .inr (List.mem_cons_of_mem _ h)
      · rcases List.mem_cons.1 h with h | h
        · exact .inr (h ▸ List.mem_cons_self ..)
        · rcases ih h with h | h
          · exact .inl h
          · exact .inr (List.mem_cons_of_mem _ h)

theorem smIns_sorted (i : Nat) (v : α) {m : SMap α} (h : SmSorted m) : SmSorted (smIns i v m) := by
  induction m with
  | nil => simp [smIns, SmSorted]
  | cons a r ih =>
    obtain ⟨k, w⟩ := a
    have hr : SmSorted r := (List.pairwise_cons.1 h).2
    have hk : ∀ e ∈ r, k < e.1 := (List.pairwise_cons.1 h).1
    simp only [smIns]
    split
    · rename_i hi
      exact List.pairwise_cons.2 ⟨fun e he => by
        rcases List.mem_cons.1 he with he | he
        · simpa [he] using hi
        · exact lt_trans hi (hk e he), h⟩
    · split
      · rename_i hi
        subst hi
        exact List.pairwise_cons.2 ⟨hk, hr⟩
      · rename_i h1 h2
        refine List.pairwise_cons.2 ⟨fun e he => ?_, ih hr⟩
        rcases smIns_keys he with he | he
        · subst he
          show k < i
          omega
        · exact hk e he

/-- A filtered map is canonical. -/
theorem SmCanon.filter {d : α} {m : SMap α} (h : SmCanon d m) (p : Nat × α → Bool) : SmCanon d (m.filter p) :=
  ⟨h.1.filter p, fun e he => h.2 e (List.mem_of_mem_filter he)⟩

/-- A write keeps the canonical form. -/
theorem SmCanon.put [DecidableEq α] {d : α} {m : SMap α} (h : SmCanon d m) (i : Nat) (v : α) : SmCanon d (smPut d m i v) := by
  unfold smPut
  split
  · exact h.filter _
  · rename_i hv
    refine ⟨smIns_sorted i v h.1, fun e he => ?_⟩
    rcases smIns_keys he with he | he
    · simpa [he] using hv
    · exact h.2 e he

theorem SmCanon.upd [DecidableEq α] {d : α} {m : SMap α} (h : SmCanon d m) (i : Nat) (f : α → α) : SmCanon d (smUpd d m i f) := h.put i _

theorem SmCanon.nil (d : α) : SmCanon d ([] : SMap α) := ⟨List.Pairwise.nil, fun _ h => absurd h (List.not_mem_nil)⟩

end Sys2Proof.Machine
end

