-- ==== Sys2Proof/Laws/State.lean ====
section
/-! SUPPORT. What each update of the state leaves alone: one lemma per field per update, and per reader. -/

namespace Sys2Proof.Machine

variable (s : State)

/-! ### `setVal` -/

@[simp] theorem State.setVal_blobs (o : ObjDef) (v : Int) (e sub : Nat) : (s.setVal o v e sub).blobs = s.blobs := rfl
@[simp] theorem State.setVal_live (o : ObjDef) (v : Int) (e sub : Nat) : (s.setVal o v e sub).live = s.live := rfl
@[simp] theorem State.setVal_liveBlobs (o : ObjDef) (v : Int) (e sub : Nat) : (s.setVal o v e sub).liveBlobs = s.liveBlobs := rfl
@[simp] theorem State.setVal_retired (o : ObjDef) (v : Int) (e sub : Nat) : (s.setVal o v e sub).retired = s.retired := rfl
@[simp] theorem State.setVal_staged (o : ObjDef) (v : Int) (e sub : Nat) : (s.setVal o v e sub).staged = s.staged := rfl
@[simp] theorem State.setVal_past (o : ObjDef) (v : Int) (e sub : Nat) : (s.setVal o v e sub).past = s.past := rfl
@[simp] theorem State.setVal_sdp (o : ObjDef) (v : Int) (e sub : Nat) : (s.setVal o v e sub).sdp = s.sdp := rfl
@[simp] theorem State.setVal_clk (o : ObjDef) (v : Int) (e sub : Nat) : (s.setVal o v e sub).clk = s.clk := rfl
@[simp] theorem State.setVal_tabs (o : ObjDef) (v : Int) (e sub : Nat) : (s.setVal o v e sub).tabs = s.tabs := rfl
@[simp] theorem State.setVal_inputs (o : ObjDef) (v : Int) (e sub : Nat) : (s.setVal o v e sub).inputs = s.inputs := rfl
@[simp] theorem State.setVal_pins (o : ObjDef) (v : Int) (e sub : Nat) : (s.setVal o v e sub).pins = s.pins := rfl
@[simp] theorem State.setVal_clusters (o : ObjDef) (v : Int) (e sub : Nat) : (s.setVal o v e sub).clusters = s.clusters := rfl
@[simp] theorem State.setVal_mem (o : ObjDef) (v : Int) (e sub : Nat) : (s.setVal o v e sub).mem = s.mem := rfl
@[simp] theorem State.setVal_poison (o : ObjDef) (v : Int) (e sub : Nat) : (s.setVal o v e sub).poison = s.poison := rfl
@[simp] theorem State.setVal_regions (o : ObjDef) (v : Int) (e sub : Nat) : (s.setVal o v e sub).regions = s.regions := rfl
@[simp] theorem State.setVal_pipe (o : ObjDef) (v : Int) (e sub : Nat) : (s.setVal o v e sub).pipe = s.pipe := rfl
@[simp] theorem State.setVal_periods (o : ObjDef) (v : Int) (e sub : Nat) : (s.setVal o v e sub).periods = s.periods := rfl
@[simp] theorem State.setVal_hks (o : ObjDef) (v : Int) (e sub : Nat) : (s.setVal o v e sub).hks = s.hks := rfl
@[simp] theorem State.setVal_cont (o : ObjDef) (v : Int) (e sub : Nat) : (s.setVal o v e sub).cont = s.cont := rfl
@[simp] theorem State.setVal_flt (o : ObjDef) (v : Int) (e sub : Nat) : (s.setVal o v e sub).flt = s.flt := rfl
@[simp] theorem State.setVal_lanes (o : ObjDef) (v : Int) (e sub : Nat) : (s.setVal o v e sub).lanes = s.lanes := rfl
@[simp] theorem State.setVal_slices (o : ObjDef) (v : Int) (e sub : Nat) : (s.setVal o v e sub).slices = s.slices := rfl
@[simp] theorem State.setVal_ctxQueue (o : ObjDef) (v : Int) (e sub : Nat) : (s.setVal o v e sub).ctxQueue = s.ctxQueue := rfl
@[simp] theorem State.setVal_delay (o : ObjDef) (v : Int) (e sub : Nat) : (s.setVal o v e sub).delay = s.delay := rfl
@[simp] theorem State.setVal_suppTick (o : ObjDef) (v : Int) (e sub : Nat) : (s.setVal o v e sub).suppTick = s.suppTick := rfl
@[simp] theorem State.setVal_beams (o : ObjDef) (v : Int) (e sub : Nat) : (s.setVal o v e sub).beams = s.beams := rfl
@[simp] theorem State.setVal_engs (o : ObjDef) (v : Int) (e sub : Nat) : (s.setVal o v e sub).engs = s.engs := rfl
@[simp] theorem State.setVal_engLoads (o : ObjDef) (v : Int) (e sub : Nat) : (s.setVal o v e sub).engLoads = s.engLoads := rfl
@[simp] theorem State.setVal_win (o : ObjDef) (v : Int) (e sub : Nat) : (s.setVal o v e sub).win = s.win := rfl
@[simp] theorem State.setVal_fr (o : ObjDef) (v : Int) (e sub : Nat) : (s.setVal o v e sub).fr = s.fr := rfl
@[simp] theorem State.setVal_trig (o : ObjDef) (v : Int) (e sub : Nat) : (s.setVal o v e sub).trig = s.trig := rfl
@[simp] theorem State.setVal_hist (o : ObjDef) (v : Int) (e sub : Nat) : (s.setVal o v e sub).hist = s.hist := rfl
@[simp] theorem State.setVal_coder (o : ObjDef) (v : Int) (e sub : Nat) : (s.setVal o v e sub).coder = s.coder := rfl
@[simp] theorem State.setVal_spec (o : ObjDef) (v : Int) (e sub : Nat) : (s.setVal o v e sub).spec = s.spec := rfl
@[simp] theorem State.setVal_tdc (o : ObjDef) (v : Int) (e sub : Nat) : (s.setVal o v e sub).tdc = s.tdc := rfl
@[simp] theorem State.setVal_ecc (o : ObjDef) (v : Int) (e sub : Nat) : (s.setVal o v e sub).ecc = s.ecc := rfl
@[simp] theorem State.setVal_boot (o : ObjDef) (v : Int) (e sub : Nat) : (s.setVal o v e sub).boot = s.boot := rfl
@[simp] theorem State.setVal_app (o : ObjDef) (v : Int) (e sub : Nat) : (s.setVal o v e sub).app = s.app := rfl
@[simp] theorem State.setVal_acts (o : ObjDef) (v : Int) (e sub : Nat) : (s.setVal o v e sub).acts = s.acts := rfl
@[simp] theorem State.setVal_freeCtr (o : ObjDef) (v : Int) (e sub : Nat) : (s.setVal o v e sub).freeCtr = s.freeCtr := rfl
@[simp] theorem State.setVal_pending (o : ObjDef) (v : Int) (e sub : Nat) : (s.setVal o v e sub).pending = s.pending := rfl
@[simp] theorem State.setVal_blob (o : ObjDef) (v : Int) (e sub : Nat) (p : ObjDef) (i j : Nat) : (s.setVal o v e sub).blob p i j = s.blob p i j := rfl
@[simp] theorem State.setVal_liveVal (o : ObjDef) (v : Int) (e sub : Nat) (p : ObjDef) (i j : Nat) : (s.setVal o v e sub).liveVal p i j = s.liveVal p i j := rfl
@[simp] theorem State.setVal_byte (o : ObjDef) (v : Int) (e sub : Nat) (x : Nat) : (s.setVal o v e sub).byte x = s.byte x := rfl
@[simp] theorem State.setVal_inp (o : ObjDef) (v : Int) (e sub : Nat) (i : Nat) : (s.setVal o v e sub).inp i = s.inp i := rfl
@[simp] theorem State.setVal_eng (o : ObjDef) (v : Int) (e sub : Nat) (i : Nat) : (s.setVal o v e sub).eng i = s.eng i := rfl

/-! ### `inc` -/

@[simp] theorem State.inc_blobs (o : ObjDef) (e sub n : Nat) : (s.inc o e sub n).blobs = s.blobs := rfl
@[simp] theorem State.inc_live (o : ObjDef) (e sub n : Nat) : (s.inc o e sub n).live = s.live := rfl
@[simp] theorem State.inc_liveBlobs (o : ObjDef) (e sub n : Nat) : (s.inc o e sub n).liveBlobs = s.liveBlobs := rfl
@[simp] theorem State.inc_retired (o : ObjDef) (e sub n : Nat) : (s.inc o e sub n).retired = s.retired := rfl
@[simp] theorem State.inc_staged (o : ObjDef) (e sub n : Nat) : (s.inc o e sub n).staged = s.staged := rfl
@[simp] theorem State.inc_past (o : ObjDef) (e sub n : Nat) : (s.inc o e sub n).past = s.past := rfl
@[simp] theorem State.inc_sdp (o : ObjDef) (e sub n : Nat) : (s.inc o e sub n).sdp = s.sdp := rfl
@[simp] theorem State.inc_clk (o : ObjDef) (e sub n : Nat) : (s.inc o e sub n).clk = s.clk := rfl
@[simp] theorem State.inc_tabs (o : ObjDef) (e sub n : Nat) : (s.inc o e sub n).tabs = s.tabs := rfl
@[simp] theorem State.inc_inputs (o : ObjDef) (e sub n : Nat) : (s.inc o e sub n).inputs = s.inputs := rfl
@[simp] theorem State.inc_pins (o : ObjDef) (e sub n : Nat) : (s.inc o e sub n).pins = s.pins := rfl
@[simp] theorem State.inc_clusters (o : ObjDef) (e sub n : Nat) : (s.inc o e sub n).clusters = s.clusters := rfl
@[simp] theorem State.inc_mem (o : ObjDef) (e sub n : Nat) : (s.inc o e sub n).mem = s.mem := rfl
@[simp] theorem State.inc_poison (o : ObjDef) (e sub n : Nat) : (s.inc o e sub n).poison = s.poison := rfl
@[simp] theorem State.inc_regions (o : ObjDef) (e sub n : Nat) : (s.inc o e sub n).regions = s.regions := rfl
@[simp] theorem State.inc_pipe (o : ObjDef) (e sub n : Nat) : (s.inc o e sub n).pipe = s.pipe := rfl
@[simp] theorem State.inc_periods (o : ObjDef) (e sub n : Nat) : (s.inc o e sub n).periods = s.periods := rfl
@[simp] theorem State.inc_hks (o : ObjDef) (e sub n : Nat) : (s.inc o e sub n).hks = s.hks := rfl
@[simp] theorem State.inc_cont (o : ObjDef) (e sub n : Nat) : (s.inc o e sub n).cont = s.cont := rfl
@[simp] theorem State.inc_flt (o : ObjDef) (e sub n : Nat) : (s.inc o e sub n).flt = s.flt := rfl
@[simp] theorem State.inc_lanes (o : ObjDef) (e sub n : Nat) : (s.inc o e sub n).lanes = s.lanes := rfl
@[simp] theorem State.inc_slices (o : ObjDef) (e sub n : Nat) : (s.inc o e sub n).slices = s.slices := rfl
@[simp] theorem State.inc_ctxQueue (o : ObjDef) (e sub n : Nat) : (s.inc o e sub n).ctxQueue = s.ctxQueue := rfl
@[simp] theorem State.inc_delay (o : ObjDef) (e sub n : Nat) : (s.inc o e sub n).delay = s.delay := rfl
@[simp] theorem State.inc_suppTick (o : ObjDef) (e sub n : Nat) : (s.inc o e sub n).suppTick = s.suppTick := rfl
@[simp] theorem State.inc_beams (o : ObjDef) (e sub n : Nat) : (s.inc o e sub n).beams = s.beams := rfl
@[simp] theorem State.inc_engs (o : ObjDef) (e sub n : Nat) : (s.inc o e sub n).engs = s.engs := rfl
@[simp] theorem State.inc_engLoads (o : ObjDef) (e sub n : Nat) : (s.inc o e sub n).engLoads = s.engLoads := rfl
@[simp] theorem State.inc_win (o : ObjDef) (e sub n : Nat) : (s.inc o e sub n).win = s.win := rfl
@[simp] theorem State.inc_fr (o : ObjDef) (e sub n : Nat) : (s.inc o e sub n).fr = s.fr := rfl
@[simp] theorem State.inc_trig (o : ObjDef) (e sub n : Nat) : (s.inc o e sub n).trig = s.trig := rfl
@[simp] theorem State.inc_hist (o : ObjDef) (e sub n : Nat) : (s.inc o e sub n).hist = s.hist := rfl
@[simp] theorem State.inc_coder (o : ObjDef) (e sub n : Nat) : (s.inc o e sub n).coder = s.coder := rfl
@[simp] theorem State.inc_spec (o : ObjDef) (e sub n : Nat) : (s.inc o e sub n).spec = s.spec := rfl
@[simp] theorem State.inc_tdc (o : ObjDef) (e sub n : Nat) : (s.inc o e sub n).tdc = s.tdc := rfl
@[simp] theorem State.inc_ecc (o : ObjDef) (e sub n : Nat) : (s.inc o e sub n).ecc = s.ecc := rfl
@[simp] theorem State.inc_boot (o : ObjDef) (e sub n : Nat) : (s.inc o e sub n).boot = s.boot := rfl
@[simp] theorem State.inc_app (o : ObjDef) (e sub n : Nat) : (s.inc o e sub n).app = s.app := rfl
@[simp] theorem State.inc_acts (o : ObjDef) (e sub n : Nat) : (s.inc o e sub n).acts = s.acts := rfl
@[simp] theorem State.inc_freeCtr (o : ObjDef) (e sub n : Nat) : (s.inc o e sub n).freeCtr = s.freeCtr := rfl
@[simp] theorem State.inc_pending (o : ObjDef) (e sub n : Nat) : (s.inc o e sub n).pending = s.pending := rfl
@[simp] theorem State.inc_blob (o : ObjDef) (e sub n : Nat) (p : ObjDef) (i j : Nat) : (s.inc o e sub n).blob p i j = s.blob p i j := rfl
@[simp] theorem State.inc_liveVal (o : ObjDef) (e sub n : Nat) (p : ObjDef) (i j : Nat) : (s.inc o e sub n).liveVal p i j = s.liveVal p i j := rfl
@[simp] theorem State.inc_byte (o : ObjDef) (e sub n : Nat) (x : Nat) : (s.inc o e sub n).byte x = s.byte x := rfl
@[simp] theorem State.inc_inp (o : ObjDef) (e sub n : Nat) (i : Nat) : (s.inc o e sub n).inp i = s.inp i := rfl
@[simp] theorem State.inc_eng (o : ObjDef) (e sub n : Nat) (i : Nat) : (s.inc o e sub n).eng i = s.eng i := rfl

/-! ### `setBlob` -/

@[simp] theorem State.setBlob_vals (o : ObjDef) (b : List Byte) (e sub : Nat) : (s.setBlob o b e sub).vals = s.vals := rfl
@[simp] theorem State.setBlob_live (o : ObjDef) (b : List Byte) (e sub : Nat) : (s.setBlob o b e sub).live = s.live := rfl
@[simp] theorem State.setBlob_liveBlobs (o : ObjDef) (b : List Byte) (e sub : Nat) : (s.setBlob o b e sub).liveBlobs = s.liveBlobs := rfl
@[simp] theorem State.setBlob_retired (o : ObjDef) (b : List Byte) (e sub : Nat) : (s.setBlob o b e sub).retired = s.retired := rfl
@[simp] theorem State.setBlob_staged (o : ObjDef) (b : List Byte) (e sub : Nat) : (s.setBlob o b e sub).staged = s.staged := rfl
@[simp] theorem State.setBlob_past (o : ObjDef) (b : List Byte) (e sub : Nat) : (s.setBlob o b e sub).past = s.past := rfl
@[simp] theorem State.setBlob_sdp (o : ObjDef) (b : List Byte) (e sub : Nat) : (s.setBlob o b e sub).sdp = s.sdp := rfl
@[simp] theorem State.setBlob_clk (o : ObjDef) (b : List Byte) (e sub : Nat) : (s.setBlob o b e sub).clk = s.clk := rfl
@[simp] theorem State.setBlob_tabs (o : ObjDef) (b : List Byte) (e sub : Nat) : (s.setBlob o b e sub).tabs = s.tabs := rfl
@[simp] theorem State.setBlob_inputs (o : ObjDef) (b : List Byte) (e sub : Nat) : (s.setBlob o b e sub).inputs = s.inputs := rfl
@[simp] theorem State.setBlob_pins (o : ObjDef) (b : List Byte) (e sub : Nat) : (s.setBlob o b e sub).pins = s.pins := rfl
@[simp] theorem State.setBlob_clusters (o : ObjDef) (b : List Byte) (e sub : Nat) : (s.setBlob o b e sub).clusters = s.clusters := rfl
@[simp] theorem State.setBlob_mem (o : ObjDef) (b : List Byte) (e sub : Nat) : (s.setBlob o b e sub).mem = s.mem := rfl
@[simp] theorem State.setBlob_poison (o : ObjDef) (b : List Byte) (e sub : Nat) : (s.setBlob o b e sub).poison = s.poison := rfl
@[simp] theorem State.setBlob_regions (o : ObjDef) (b : List Byte) (e sub : Nat) : (s.setBlob o b e sub).regions = s.regions := rfl
@[simp] theorem State.setBlob_pipe (o : ObjDef) (b : List Byte) (e sub : Nat) : (s.setBlob o b e sub).pipe = s.pipe := rfl
@[simp] theorem State.setBlob_periods (o : ObjDef) (b : List Byte) (e sub : Nat) : (s.setBlob o b e sub).periods = s.periods := rfl
@[simp] theorem State.setBlob_hks (o : ObjDef) (b : List Byte) (e sub : Nat) : (s.setBlob o b e sub).hks = s.hks := rfl
@[simp] theorem State.setBlob_cont (o : ObjDef) (b : List Byte) (e sub : Nat) : (s.setBlob o b e sub).cont = s.cont := rfl
@[simp] theorem State.setBlob_flt (o : ObjDef) (b : List Byte) (e sub : Nat) : (s.setBlob o b e sub).flt = s.flt := rfl
@[simp] theorem State.setBlob_lanes (o : ObjDef) (b : List Byte) (e sub : Nat) : (s.setBlob o b e sub).lanes = s.lanes := rfl
@[simp] theorem State.setBlob_slices (o : ObjDef) (b : List Byte) (e sub : Nat) : (s.setBlob o b e sub).slices = s.slices := rfl
@[simp] theorem State.setBlob_ctxQueue (o : ObjDef) (b : List Byte) (e sub : Nat) : (s.setBlob o b e sub).ctxQueue = s.ctxQueue := rfl
@[simp] theorem State.setBlob_delay (o : ObjDef) (b : List Byte) (e sub : Nat) : (s.setBlob o b e sub).delay = s.delay := rfl
@[simp] theorem State.setBlob_suppTick (o : ObjDef) (b : List Byte) (e sub : Nat) : (s.setBlob o b e sub).suppTick = s.suppTick := rfl
@[simp] theorem State.setBlob_beams (o : ObjDef) (b : List Byte) (e sub : Nat) : (s.setBlob o b e sub).beams = s.beams := rfl
@[simp] theorem State.setBlob_engs (o : ObjDef) (b : List Byte) (e sub : Nat) : (s.setBlob o b e sub).engs = s.engs := rfl
@[simp] theorem State.setBlob_engLoads (o : ObjDef) (b : List Byte) (e sub : Nat) : (s.setBlob o b e sub).engLoads = s.engLoads := rfl
@[simp] theorem State.setBlob_win (o : ObjDef) (b : List Byte) (e sub : Nat) : (s.setBlob o b e sub).win = s.win := rfl
@[simp] theorem State.setBlob_fr (o : ObjDef) (b : List Byte) (e sub : Nat) : (s.setBlob o b e sub).fr = s.fr := rfl
@[simp] theorem State.setBlob_trig (o : ObjDef) (b : List Byte) (e sub : Nat) : (s.setBlob o b e sub).trig = s.trig := rfl
@[simp] theorem State.setBlob_hist (o : ObjDef) (b : List Byte) (e sub : Nat) : (s.setBlob o b e sub).hist = s.hist := rfl
@[simp] theorem State.setBlob_coder (o : ObjDef) (b : List Byte) (e sub : Nat) : (s.setBlob o b e sub).coder = s.coder := rfl
@[simp] theorem State.setBlob_spec (o : ObjDef) (b : List Byte) (e sub : Nat) : (s.setBlob o b e sub).spec = s.spec := rfl
@[simp] theorem State.setBlob_tdc (o : ObjDef) (b : List Byte) (e sub : Nat) : (s.setBlob o b e sub).tdc = s.tdc := rfl
@[simp] theorem State.setBlob_ecc (o : ObjDef) (b : List Byte) (e sub : Nat) : (s.setBlob o b e sub).ecc = s.ecc := rfl
@[simp] theorem State.setBlob_boot (o : ObjDef) (b : List Byte) (e sub : Nat) : (s.setBlob o b e sub).boot = s.boot := rfl
@[simp] theorem State.setBlob_app (o : ObjDef) (b : List Byte) (e sub : Nat) : (s.setBlob o b e sub).app = s.app := rfl
@[simp] theorem State.setBlob_acts (o : ObjDef) (b : List Byte) (e sub : Nat) : (s.setBlob o b e sub).acts = s.acts := rfl
@[simp] theorem State.setBlob_freeCtr (o : ObjDef) (b : List Byte) (e sub : Nat) : (s.setBlob o b e sub).freeCtr = s.freeCtr := rfl
@[simp] theorem State.setBlob_pending (o : ObjDef) (b : List Byte) (e sub : Nat) : (s.setBlob o b e sub).pending = s.pending := rfl
@[simp] theorem State.setBlob_val (o : ObjDef) (b : List Byte) (e sub : Nat) (p : ObjDef) (i j : Nat) : (s.setBlob o b e sub).val p i j = s.val p i j := rfl
@[simp] theorem State.setBlob_nat (o : ObjDef) (b : List Byte) (e sub : Nat) (p : ObjDef) (i j : Nat) : (s.setBlob o b e sub).nat p i j = s.nat p i j := rfl
@[simp] theorem State.setBlob_on (o : ObjDef) (b : List Byte) (e sub : Nat) (p : ObjDef) (i j : Nat) : (s.setBlob o b e sub).on p i j = s.on p i j := rfl
@[simp] theorem State.setBlob_liveVal (o : ObjDef) (b : List Byte) (e sub : Nat) (p : ObjDef) (i j : Nat) : (s.setBlob o b e sub).liveVal p i j = s.liveVal p i j := rfl
@[simp] theorem State.setBlob_mode (o : ObjDef) (b : List Byte) (e sub : Nat) : (s.setBlob o b e sub).mode = s.mode := rfl
@[simp] theorem State.setBlob_byte (o : ObjDef) (b : List Byte) (e sub : Nat) (x : Nat) : (s.setBlob o b e sub).byte x = s.byte x := rfl
@[simp] theorem State.setBlob_inp (o : ObjDef) (b : List Byte) (e sub : Nat) (i : Nat) : (s.setBlob o b e sub).inp i = s.inp i := rfl
@[simp] theorem State.setBlob_eng (o : ObjDef) (b : List Byte) (e sub : Nat) (i : Nat) : (s.setBlob o b e sub).eng i = s.eng i := rfl

/-! ### `putByte` -/

@[simp] theorem State.putByte_vals (a : Nat) (b : Byte) : (s.putByte a b).vals = s.vals := rfl
@[simp] theorem State.putByte_blobs (a : Nat) (b : Byte) : (s.putByte a b).blobs = s.blobs := rfl
@[simp] theorem State.putByte_live (a : Nat) (b : Byte) : (s.putByte a b).live = s.live := rfl
@[simp] theorem State.putByte_liveBlobs (a : Nat) (b : Byte) : (s.putByte a b).liveBlobs = s.liveBlobs := rfl
@[simp] theorem State.putByte_retired (a : Nat) (b : Byte) : (s.putByte a b).retired = s.retired := rfl
@[simp] theorem State.putByte_staged (a : Nat) (b : Byte) : (s.putByte a b).staged = s.staged := rfl
@[simp] theorem State.putByte_past (a : Nat) (b : Byte) : (s.putByte a b).past = s.past := rfl
@[simp] theorem State.putByte_sdp (a : Nat) (b : Byte) : (s.putByte a b).sdp = s.sdp := rfl
@[simp] theorem State.putByte_clk (a : Nat) (b : Byte) : (s.putByte a b).clk = s.clk := rfl
@[simp] theorem State.putByte_tabs (a : Nat) (b : Byte) : (s.putByte a b).tabs = s.tabs := rfl
@[simp] theorem State.putByte_inputs (a : Nat) (b : Byte) : (s.putByte a b).inputs = s.inputs := rfl
@[simp] theorem State.putByte_pins (a : Nat) (b : Byte) : (s.putByte a b).pins = s.pins := rfl
@[simp] theorem State.putByte_clusters (a : Nat) (b : Byte) : (s.putByte a b).clusters = s.clusters := rfl
@[simp] theorem State.putByte_poison (a : Nat) (b : Byte) : (s.putByte a b).poison = s.poison := rfl
@[simp] theorem State.putByte_regions (a : Nat) (b : Byte) : (s.putByte a b).regions = s.regions := rfl
@[simp] theorem State.putByte_pipe (a : Nat) (b : Byte) : (s.putByte a b).pipe = s.pipe := rfl
@[simp] theorem State.putByte_periods (a : Nat) (b : Byte) : (s.putByte a b).periods = s.periods := rfl
@[simp] theorem State.putByte_hks (a : Nat) (b : Byte) : (s.putByte a b).hks = s.hks := rfl
@[simp] theorem State.putByte_cont (a : Nat) (b : Byte) : (s.putByte a b).cont = s.cont := rfl
@[simp] theorem State.putByte_flt (a : Nat) (b : Byte) : (s.putByte a b).flt = s.flt := rfl
@[simp] theorem State.putByte_lanes (a : Nat) (b : Byte) : (s.putByte a b).lanes = s.lanes := rfl
@[simp] theorem State.putByte_slices (a : Nat) (b : Byte) : (s.putByte a b).slices = s.slices := rfl
@[simp] theorem State.putByte_ctxQueue (a : Nat) (b : Byte) : (s.putByte a b).ctxQueue = s.ctxQueue := rfl
@[simp] theorem State.putByte_delay (a : Nat) (b : Byte) : (s.putByte a b).delay = s.delay := rfl
@[simp] theorem State.putByte_suppTick (a : Nat) (b : Byte) : (s.putByte a b).suppTick = s.suppTick := rfl
@[simp] theorem State.putByte_beams (a : Nat) (b : Byte) : (s.putByte a b).beams = s.beams := rfl
@[simp] theorem State.putByte_engs (a : Nat) (b : Byte) : (s.putByte a b).engs = s.engs := rfl
@[simp] theorem State.putByte_engLoads (a : Nat) (b : Byte) : (s.putByte a b).engLoads = s.engLoads := rfl
@[simp] theorem State.putByte_win (a : Nat) (b : Byte) : (s.putByte a b).win = s.win := rfl
@[simp] theorem State.putByte_fr (a : Nat) (b : Byte) : (s.putByte a b).fr = s.fr := rfl
@[simp] theorem State.putByte_trig (a : Nat) (b : Byte) : (s.putByte a b).trig = s.trig := rfl
@[simp] theorem State.putByte_hist (a : Nat) (b : Byte) : (s.putByte a b).hist = s.hist := rfl
@[simp] theorem State.putByte_coder (a : Nat) (b : Byte) : (s.putByte a b).coder = s.coder := rfl
@[simp] theorem State.putByte_spec (a : Nat) (b : Byte) : (s.putByte a b).spec = s.spec := rfl
@[simp] theorem State.putByte_tdc (a : Nat) (b : Byte) : (s.putByte a b).tdc = s.tdc := rfl
@[simp] theorem State.putByte_ecc (a : Nat) (b : Byte) : (s.putByte a b).ecc = s.ecc := rfl
@[simp] theorem State.putByte_boot (a : Nat) (b : Byte) : (s.putByte a b).boot = s.boot := rfl
@[simp] theorem State.putByte_app (a : Nat) (b : Byte) : (s.putByte a b).app = s.app := rfl
@[simp] theorem State.putByte_acts (a : Nat) (b : Byte) : (s.putByte a b).acts = s.acts := rfl
@[simp] theorem State.putByte_freeCtr (a : Nat) (b : Byte) : (s.putByte a b).freeCtr = s.freeCtr := rfl
@[simp] theorem State.putByte_pending (a : Nat) (b : Byte) : (s.putByte a b).pending = s.pending := rfl
@[simp] theorem State.putByte_val (a : Nat) (b : Byte) (p : ObjDef) (i j : Nat) : (s.putByte a b).val p i j = s.val p i j := rfl
@[simp] theorem State.putByte_nat (a : Nat) (b : Byte) (p : ObjDef) (i j : Nat) : (s.putByte a b).nat p i j = s.nat p i j := rfl
@[simp] theorem State.putByte_on (a : Nat) (b : Byte) (p : ObjDef) (i j : Nat) : (s.putByte a b).on p i j = s.on p i j := rfl
@[simp] theorem State.putByte_blob (a : Nat) (b : Byte) (p : ObjDef) (i j : Nat) : (s.putByte a b).blob p i j = s.blob p i j := rfl
@[simp] theorem State.putByte_liveVal (a : Nat) (b : Byte) (p : ObjDef) (i j : Nat) : (s.putByte a b).liveVal p i j = s.liveVal p i j := rfl
@[simp] theorem State.putByte_mode (a : Nat) (b : Byte) : (s.putByte a b).mode = s.mode := rfl
@[simp] theorem State.putByte_inp (a : Nat) (b : Byte) (i : Nat) : (s.putByte a b).inp i = s.inp i := rfl
@[simp] theorem State.putByte_eng (a : Nat) (b : Byte) (i : Nat) : (s.putByte a b).eng i = s.eng i := rfl

/-! ### `answer` -/

@[simp] theorem State.answer_vals (a : Answer) : (s.answer a).vals = s.vals := rfl
@[simp] theorem State.answer_blobs (a : Answer) : (s.answer a).blobs = s.blobs := rfl
@[simp] theorem State.answer_live (a : Answer) : (s.answer a).live = s.live := rfl
@[simp] theorem State.answer_liveBlobs (a : Answer) : (s.answer a).liveBlobs = s.liveBlobs := rfl
@[simp] theorem State.answer_retired (a : Answer) : (s.answer a).retired = s.retired := rfl
@[simp] theorem State.answer_staged (a : Answer) : (s.answer a).staged = s.staged := rfl
@[simp] theorem State.answer_past (a : Answer) : (s.answer a).past = s.past := rfl
@[simp] theorem State.answer_clk (a : Answer) : (s.answer a).clk = s.clk := rfl
@[simp] theorem State.answer_tabs (a : Answer) : (s.answer a).tabs = s.tabs := rfl
@[simp] theorem State.answer_inputs (a : Answer) : (s.answer a).inputs = s.inputs := rfl
@[simp] theorem State.answer_pins (a : Answer) : (s.answer a).pins = s.pins := rfl
@[simp] theorem State.answer_clusters (a : Answer) : (s.answer a).clusters = s.clusters := rfl
@[simp] theorem State.answer_mem (a : Answer) : (s.answer a).mem = s.mem := rfl
@[simp] theorem State.answer_poison (a : Answer) : (s.answer a).poison = s.poison := rfl
@[simp] theorem State.answer_regions (a : Answer) : (s.answer a).regions = s.regions := rfl
@[simp] theorem State.answer_pipe (a : Answer) : (s.answer a).pipe = s.pipe := rfl
@[simp] theorem State.answer_periods (a : Answer) : (s.answer a).periods = s.periods := rfl
@[simp] theorem State.answer_hks (a : Answer) : (s.answer a).hks = s.hks := rfl
@[simp] theorem State.answer_cont (a : Answer) : (s.answer a).cont = s.cont := rfl
@[simp] theorem State.answer_flt (a : Answer) : (s.answer a).flt = s.flt := rfl
@[simp] theorem State.answer_lanes (a : Answer) : (s.answer a).lanes = s.lanes := rfl
@[simp] theorem State.answer_slices (a : Answer) : (s.answer a).slices = s.slices := rfl
@[simp] theorem State.answer_ctxQueue (a : Answer) : (s.answer a).ctxQueue = s.ctxQueue := rfl
@[simp] theorem State.answer_delay (a : Answer) : (s.answer a).delay = s.delay := rfl
@[simp] theorem State.answer_suppTick (a : Answer) : (s.answer a).suppTick = s.suppTick := rfl
@[simp] theorem State.answer_beams (a : Answer) : (s.answer a).beams = s.beams := rfl
@[simp] theorem State.answer_engs (a : Answer) : (s.answer a).engs = s.engs := rfl
@[simp] theorem State.answer_engLoads (a : Answer) : (s.answer a).engLoads = s.engLoads := rfl
@[simp] theorem State.answer_win (a : Answer) : (s.answer a).win = s.win := rfl
@[simp] theorem State.answer_fr (a : Answer) : (s.answer a).fr = s.fr := rfl
@[simp] theorem State.answer_trig (a : Answer) : (s.answer a).trig = s.trig := rfl
@[simp] theorem State.answer_hist (a : Answer) : (s.answer a).hist = s.hist := rfl
@[simp] theorem State.answer_coder (a : Answer) : (s.answer a).coder = s.coder := rfl
@[simp] theorem State.answer_spec (a : Answer) : (s.answer a).spec = s.spec := rfl
@[simp] theorem State.answer_tdc (a : Answer) : (s.answer a).tdc = s.tdc := rfl
@[simp] theorem State.answer_ecc (a : Answer) : (s.answer a).ecc = s.ecc := rfl
@[simp] theorem State.answer_boot (a : Answer) : (s.answer a).boot = s.boot := rfl
@[simp] theorem State.answer_app (a : Answer) : (s.answer a).app = s.app := rfl
@[simp] theorem State.answer_acts (a : Answer) : (s.answer a).acts = s.acts := rfl
@[simp] theorem State.answer_freeCtr (a : Answer) : (s.answer a).freeCtr = s.freeCtr := rfl
@[simp] theorem State.answer_pending (a : Answer) : (s.answer a).pending = s.pending := rfl
@[simp] theorem State.answer_val (a : Answer) (p : ObjDef) (i j : Nat) : (s.answer a).val p i j = s.val p i j := rfl
@[simp] theorem State.answer_nat (a : Answer) (p : ObjDef) (i j : Nat) : (s.answer a).nat p i j = s.nat p i j := rfl
@[simp] theorem State.answer_on (a : Answer) (p : ObjDef) (i j : Nat) : (s.answer a).on p i j = s.on p i j := rfl
@[simp] theorem State.answer_blob (a : Answer) (p : ObjDef) (i j : Nat) : (s.answer a).blob p i j = s.blob p i j := rfl
@[simp] theorem State.answer_liveVal (a : Answer) (p : ObjDef) (i j : Nat) : (s.answer a).liveVal p i j = s.liveVal p i j := rfl
@[simp] theorem State.answer_mode (a : Answer) : (s.answer a).mode = s.mode := rfl
@[simp] theorem State.answer_byte (a : Answer) (x : Nat) : (s.answer a).byte x = s.byte x := rfl
@[simp] theorem State.answer_inp (a : Answer) (i : Nat) : (s.answer a).inp i = s.inp i := rfl
@[simp] theorem State.answer_eng (a : Answer) (i : Nat) : (s.answer a).eng i = s.eng i := rfl

/-! ### `raise` -/

@[simp] theorem State.raise_vals (code kind num : Nat) (arg : List Byte) : (s.raise code kind num arg).vals = s.vals := rfl
@[simp] theorem State.raise_blobs (code kind num : Nat) (arg : List Byte) : (s.raise code kind num arg).blobs = s.blobs := rfl
@[simp] theorem State.raise_live (code kind num : Nat) (arg : List Byte) : (s.raise code kind num arg).live = s.live := rfl
@[simp] theorem State.raise_liveBlobs (code kind num : Nat) (arg : List Byte) : (s.raise code kind num arg).liveBlobs = s.liveBlobs := rfl
@[simp] theorem State.raise_retired (code kind num : Nat) (arg : List Byte) : (s.raise code kind num arg).retired = s.retired := rfl
@[simp] theorem State.raise_staged (code kind num : Nat) (arg : List Byte) : (s.raise code kind num arg).staged = s.staged := rfl
@[simp] theorem State.raise_past (code kind num : Nat) (arg : List Byte) : (s.raise code kind num arg).past = s.past := rfl
@[simp] theorem State.raise_clk (code kind num : Nat) (arg : List Byte) : (s.raise code kind num arg).clk = s.clk := rfl
@[simp] theorem State.raise_tabs (code kind num : Nat) (arg : List Byte) : (s.raise code kind num arg).tabs = s.tabs := rfl
@[simp] theorem State.raise_inputs (code kind num : Nat) (arg : List Byte) : (s.raise code kind num arg).inputs = s.inputs := rfl
@[simp] theorem State.raise_pins (code kind num : Nat) (arg : List Byte) : (s.raise code kind num arg).pins = s.pins := rfl
@[simp] theorem State.raise_clusters (code kind num : Nat) (arg : List Byte) : (s.raise code kind num arg).clusters = s.clusters := rfl
@[simp] theorem State.raise_mem (code kind num : Nat) (arg : List Byte) : (s.raise code kind num arg).mem = s.mem := rfl
@[simp] theorem State.raise_poison (code kind num : Nat) (arg : List Byte) : (s.raise code kind num arg).poison = s.poison := rfl
@[simp] theorem State.raise_regions (code kind num : Nat) (arg : List Byte) : (s.raise code kind num arg).regions = s.regions := rfl
@[simp] theorem State.raise_pipe (code kind num : Nat) (arg : List Byte) : (s.raise code kind num arg).pipe = s.pipe := rfl
@[simp] theorem State.raise_periods (code kind num : Nat) (arg : List Byte) : (s.raise code kind num arg).periods = s.periods := rfl
@[simp] theorem State.raise_hks (code kind num : Nat) (arg : List Byte) : (s.raise code kind num arg).hks = s.hks := rfl
@[simp] theorem State.raise_cont (code kind num : Nat) (arg : List Byte) : (s.raise code kind num arg).cont = s.cont := rfl
@[simp] theorem State.raise_flt (code kind num : Nat) (arg : List Byte) : (s.raise code kind num arg).flt = s.flt := rfl
@[simp] theorem State.raise_lanes (code kind num : Nat) (arg : List Byte) : (s.raise code kind num arg).lanes = s.lanes := rfl
@[simp] theorem State.raise_slices (code kind num : Nat) (arg : List Byte) : (s.raise code kind num arg).slices = s.slices := rfl
@[simp] theorem State.raise_ctxQueue (code kind num : Nat) (arg : List Byte) : (s.raise code kind num arg).ctxQueue = s.ctxQueue := rfl
@[simp] theorem State.raise_delay (code kind num : Nat) (arg : List Byte) : (s.raise code kind num arg).delay = s.delay := rfl
@[simp] theorem State.raise_suppTick (code kind num : Nat) (arg : List Byte) : (s.raise code kind num arg).suppTick = s.suppTick := rfl
@[simp] theorem State.raise_beams (code kind num : Nat) (arg : List Byte) : (s.raise code kind num arg).beams = s.beams := rfl
@[simp] theorem State.raise_engs (code kind num : Nat) (arg : List Byte) : (s.raise code kind num arg).engs = s.engs := rfl
@[simp] theorem State.raise_engLoads (code kind num : Nat) (arg : List Byte) : (s.raise code kind num arg).engLoads = s.engLoads := rfl
@[simp] theorem State.raise_win (code kind num : Nat) (arg : List Byte) : (s.raise code kind num arg).win = s.win := rfl
@[simp] theorem State.raise_fr (code kind num : Nat) (arg : List Byte) : (s.raise code kind num arg).fr = s.fr := rfl
@[simp] theorem State.raise_trig (code kind num : Nat) (arg : List Byte) : (s.raise code kind num arg).trig = s.trig := rfl
@[simp] theorem State.raise_hist (code kind num : Nat) (arg : List Byte) : (s.raise code kind num arg).hist = s.hist := rfl
@[simp] theorem State.raise_coder (code kind num : Nat) (arg : List Byte) : (s.raise code kind num arg).coder = s.coder := rfl
@[simp] theorem State.raise_spec (code kind num : Nat) (arg : List Byte) : (s.raise code kind num arg).spec = s.spec := rfl
@[simp] theorem State.raise_tdc (code kind num : Nat) (arg : List Byte) : (s.raise code kind num arg).tdc = s.tdc := rfl
@[simp] theorem State.raise_ecc (code kind num : Nat) (arg : List Byte) : (s.raise code kind num arg).ecc = s.ecc := rfl
@[simp] theorem State.raise_boot (code kind num : Nat) (arg : List Byte) : (s.raise code kind num arg).boot = s.boot := rfl
@[simp] theorem State.raise_app (code kind num : Nat) (arg : List Byte) : (s.raise code kind num arg).app = s.app := rfl
@[simp] theorem State.raise_acts (code kind num : Nat) (arg : List Byte) : (s.raise code kind num arg).acts = s.acts := rfl
@[simp] theorem State.raise_freeCtr (code kind num : Nat) (arg : List Byte) : (s.raise code kind num arg).freeCtr = s.freeCtr := rfl
@[simp] theorem State.raise_pending (code kind num : Nat) (arg : List Byte) : (s.raise code kind num arg).pending = s.pending := rfl
@[simp] theorem State.raise_val (code kind num : Nat) (arg : List Byte) (p : ObjDef) (i j : Nat) : (s.raise code kind num arg).val p i j = s.val p i j := rfl
@[simp] theorem State.raise_nat (code kind num : Nat) (arg : List Byte) (p : ObjDef) (i j : Nat) : (s.raise code kind num arg).nat p i j = s.nat p i j := rfl
@[simp] theorem State.raise_on (code kind num : Nat) (arg : List Byte) (p : ObjDef) (i j : Nat) : (s.raise code kind num arg).on p i j = s.on p i j := rfl
@[simp] theorem State.raise_blob (code kind num : Nat) (arg : List Byte) (p : ObjDef) (i j : Nat) : (s.raise code kind num arg).blob p i j = s.blob p i j := rfl
@[simp] theorem State.raise_liveVal (code kind num : Nat) (arg : List Byte) (p : ObjDef) (i j : Nat) : (s.raise code kind num arg).liveVal p i j = s.liveVal p i j := rfl
@[simp] theorem State.raise_mode (code kind num : Nat) (arg : List Byte) : (s.raise code kind num arg).mode = s.mode := rfl
@[simp] theorem State.raise_byte (code kind num : Nat) (arg : List Byte) (x : Nat) : (s.raise code kind num arg).byte x = s.byte x := rfl
@[simp] theorem State.raise_inp (code kind num : Nat) (arg : List Byte) (i : Nat) : (s.raise code kind num arg).inp i = s.inp i := rfl
@[simp] theorem State.raise_eng (code kind num : Nat) (arg : List Byte) (i : Nat) : (s.raise code kind num arg).eng i = s.eng i := rfl

/-! ### `setTab` -/

@[simp] theorem State.setTab_vals (id e : Nat) (f : TabSt → TabSt) : (s.setTab id e f).vals = s.vals := rfl
@[simp] theorem State.setTab_blobs (id e : Nat) (f : TabSt → TabSt) : (s.setTab id e f).blobs = s.blobs := rfl
@[simp] theorem State.setTab_live (id e : Nat) (f : TabSt → TabSt) : (s.setTab id e f).live = s.live := rfl
@[simp] theorem State.setTab_liveBlobs (id e : Nat) (f : TabSt → TabSt) : (s.setTab id e f).liveBlobs = s.liveBlobs := rfl
@[simp] theorem State.setTab_retired (id e : Nat) (f : TabSt → TabSt) : (s.setTab id e f).retired = s.retired := rfl
@[simp] theorem State.setTab_staged (id e : Nat) (f : TabSt → TabSt) : (s.setTab id e f).staged = s.staged := rfl
@[simp] theorem State.setTab_past (id e : Nat) (f : TabSt → TabSt) : (s.setTab id e f).past = s.past := rfl
@[simp] theorem State.setTab_sdp (id e : Nat) (f : TabSt → TabSt) : (s.setTab id e f).sdp = s.sdp := rfl
@[simp] theorem State.setTab_clk (id e : Nat) (f : TabSt → TabSt) : (s.setTab id e f).clk = s.clk := rfl
@[simp] theorem State.setTab_inputs (id e : Nat) (f : TabSt → TabSt) : (s.setTab id e f).inputs = s.inputs := rfl
@[simp] theorem State.setTab_pins (id e : Nat) (f : TabSt → TabSt) : (s.setTab id e f).pins = s.pins := rfl
@[simp] theorem State.setTab_clusters (id e : Nat) (f : TabSt → TabSt) : (s.setTab id e f).clusters = s.clusters := rfl
@[simp] theorem State.setTab_mem (id e : Nat) (f : TabSt → TabSt) : (s.setTab id e f).mem = s.mem := rfl
@[simp] theorem State.setTab_poison (id e : Nat) (f : TabSt → TabSt) : (s.setTab id e f).poison = s.poison := rfl
@[simp] theorem State.setTab_regions (id e : Nat) (f : TabSt → TabSt) : (s.setTab id e f).regions = s.regions := rfl
@[simp] theorem State.setTab_pipe (id e : Nat) (f : TabSt → TabSt) : (s.setTab id e f).pipe = s.pipe := rfl
@[simp] theorem State.setTab_periods (id e : Nat) (f : TabSt → TabSt) : (s.setTab id e f).periods = s.periods := rfl
@[simp] theorem State.setTab_hks (id e : Nat) (f : TabSt → TabSt) : (s.setTab id e f).hks = s.hks := rfl
@[simp] theorem State.setTab_cont (id e : Nat) (f : TabSt → TabSt) : (s.setTab id e f).cont = s.cont := rfl
@[simp] theorem State.setTab_flt (id e : Nat) (f : TabSt → TabSt) : (s.setTab id e f).flt = s.flt := rfl
@[simp] theorem State.setTab_lanes (id e : Nat) (f : TabSt → TabSt) : (s.setTab id e f).lanes = s.lanes := rfl
@[simp] theorem State.setTab_slices (id e : Nat) (f : TabSt → TabSt) : (s.setTab id e f).slices = s.slices := rfl
@[simp] theorem State.setTab_ctxQueue (id e : Nat) (f : TabSt → TabSt) : (s.setTab id e f).ctxQueue = s.ctxQueue := rfl
@[simp] theorem State.setTab_delay (id e : Nat) (f : TabSt → TabSt) : (s.setTab id e f).delay = s.delay := rfl
@[simp] theorem State.setTab_suppTick (id e : Nat) (f : TabSt → TabSt) : (s.setTab id e f).suppTick = s.suppTick := rfl
@[simp] theorem State.setTab_beams (id e : Nat) (f : TabSt → TabSt) : (s.setTab id e f).beams = s.beams := rfl
@[simp] theorem State.setTab_engs (id e : Nat) (f : TabSt → TabSt) : (s.setTab id e f).engs = s.engs := rfl
@[simp] theorem State.setTab_engLoads (id e : Nat) (f : TabSt → TabSt) : (s.setTab id e f).engLoads = s.engLoads := rfl
@[simp] theorem State.setTab_win (id e : Nat) (f : TabSt → TabSt) : (s.setTab id e f).win = s.win := rfl
@[simp] theorem State.setTab_fr (id e : Nat) (f : TabSt → TabSt) : (s.setTab id e f).fr = s.fr := rfl
@[simp] theorem State.setTab_trig (id e : Nat) (f : TabSt → TabSt) : (s.setTab id e f).trig = s.trig := rfl
@[simp] theorem State.setTab_hist (id e : Nat) (f : TabSt → TabSt) : (s.setTab id e f).hist = s.hist := rfl
@[simp] theorem State.setTab_coder (id e : Nat) (f : TabSt → TabSt) : (s.setTab id e f).coder = s.coder := rfl
@[simp] theorem State.setTab_spec (id e : Nat) (f : TabSt → TabSt) : (s.setTab id e f).spec = s.spec := rfl
@[simp] theorem State.setTab_tdc (id e : Nat) (f : TabSt → TabSt) : (s.setTab id e f).tdc = s.tdc := rfl
@[simp] theorem State.setTab_ecc (id e : Nat) (f : TabSt → TabSt) : (s.setTab id e f).ecc = s.ecc := rfl
@[simp] theorem State.setTab_boot (id e : Nat) (f : TabSt → TabSt) : (s.setTab id e f).boot = s.boot := rfl
@[simp] theorem State.setTab_app (id e : Nat) (f : TabSt → TabSt) : (s.setTab id e f).app = s.app := rfl
@[simp] theorem State.setTab_acts (id e : Nat) (f : TabSt → TabSt) : (s.setTab id e f).acts = s.acts := rfl
@[simp] theorem State.setTab_freeCtr (id e : Nat) (f : TabSt → TabSt) : (s.setTab id e f).freeCtr = s.freeCtr := rfl
@[simp] theorem State.setTab_pending (id e : Nat) (f : TabSt → TabSt) : (s.setTab id e f).pending = s.pending := rfl
@[simp] theorem State.setTab_val (id e : Nat) (f : TabSt → TabSt) (p : ObjDef) (i j : Nat) : (s.setTab id e f).val p i j = s.val p i j := rfl
@[simp] theorem State.setTab_nat (id e : Nat) (f : TabSt → TabSt) (p : ObjDef) (i j : Nat) : (s.setTab id e f).nat p i j = s.nat p i j := rfl
@[simp] theorem State.setTab_on (id e : Nat) (f : TabSt → TabSt) (p : ObjDef) (i j : Nat) : (s.setTab id e f).on p i j = s.on p i j := rfl
@[simp] theorem State.setTab_blob (id e : Nat) (f : TabSt → TabSt) (p : ObjDef) (i j : Nat) : (s.setTab id e f).blob p i j = s.blob p i j := rfl
@[simp] theorem State.setTab_liveVal (id e : Nat) (f : TabSt → TabSt) (p : ObjDef) (i j : Nat) : (s.setTab id e f).liveVal p i j = s.liveVal p i j := rfl
@[simp] theorem State.setTab_mode (id e : Nat) (f : TabSt → TabSt) : (s.setTab id e f).mode = s.mode := rfl
@[simp] theorem State.setTab_byte (id e : Nat) (f : TabSt → TabSt) (x : Nat) : (s.setTab id e f).byte x = s.byte x := rfl
@[simp] theorem State.setTab_inp (id e : Nat) (f : TabSt → TabSt) (i : Nat) : (s.setTab id e f).inp i = s.inp i := rfl
@[simp] theorem State.setTab_eng (id e : Nat) (f : TabSt → TabSt) (i : Nat) : (s.setTab id e f).eng i = s.eng i := rfl

/-! ### `setInp` -/

@[simp] theorem State.setInp_vals (n : Nat) (f : InSt → InSt) : (s.setInp n f).vals = s.vals := rfl
@[simp] theorem State.setInp_blobs (n : Nat) (f : InSt → InSt) : (s.setInp n f).blobs = s.blobs := rfl
@[simp] theorem State.setInp_live (n : Nat) (f : InSt → InSt) : (s.setInp n f).live = s.live := rfl
@[simp] theorem State.setInp_liveBlobs (n : Nat) (f : InSt → InSt) : (s.setInp n f).liveBlobs = s.liveBlobs := rfl
@[simp] theorem State.setInp_retired (n : Nat) (f : InSt → InSt) : (s.setInp n f).retired = s.retired := rfl
@[simp] theorem State.setInp_staged (n : Nat) (f : InSt → InSt) : (s.setInp n f).staged = s.staged := rfl
@[simp] theorem State.setInp_past (n : Nat) (f : InSt → InSt) : (s.setInp n f).past = s.past := rfl
@[simp] theorem State.setInp_sdp (n : Nat) (f : InSt → InSt) : (s.setInp n f).sdp = s.sdp := rfl
@[simp] theorem State.setInp_clk (n : Nat) (f : InSt → InSt) : (s.setInp n f).clk = s.clk := rfl
@[simp] theorem State.setInp_tabs (n : Nat) (f : InSt → InSt) : (s.setInp n f).tabs = s.tabs := rfl
@[simp] theorem State.setInp_pins (n : Nat) (f : InSt → InSt) : (s.setInp n f).pins = s.pins := rfl
@[simp] theorem State.setInp_clusters (n : Nat) (f : InSt → InSt) : (s.setInp n f).clusters = s.clusters := rfl
@[simp] theorem State.setInp_mem (n : Nat) (f : InSt → InSt) : (s.setInp n f).mem = s.mem := rfl
@[simp] theorem State.setInp_poison (n : Nat) (f : InSt → InSt) : (s.setInp n f).poison = s.poison := rfl
@[simp] theorem State.setInp_regions (n : Nat) (f : InSt → InSt) : (s.setInp n f).regions = s.regions := rfl
@[simp] theorem State.setInp_pipe (n : Nat) (f : InSt → InSt) : (s.setInp n f).pipe = s.pipe := rfl
@[simp] theorem State.setInp_periods (n : Nat) (f : InSt → InSt) : (s.setInp n f).periods = s.periods := rfl
@[simp] theorem State.setInp_hks (n : Nat) (f : InSt → InSt) : (s.setInp n f).hks = s.hks := rfl
@[simp] theorem State.setInp_cont (n : Nat) (f : InSt → InSt) : (s.setInp n f).cont = s.cont := rfl
@[simp] theorem State.setInp_flt (n : Nat) (f : InSt → InSt) : (s.setInp n f).flt = s.flt := rfl
@[simp] theorem State.setInp_lanes (n : Nat) (f : InSt → InSt) : (s.setInp n f).lanes = s.lanes := rfl
@[simp] theorem State.setInp_slices (n : Nat) (f : InSt → InSt) : (s.setInp n f).slices = s.slices := rfl
@[simp] theorem State.setInp_ctxQueue (n : Nat) (f : InSt → InSt) : (s.setInp n f).ctxQueue = s.ctxQueue := rfl
@[simp] theorem State.setInp_delay (n : Nat) (f : InSt → InSt) : (s.setInp n f).delay = s.delay := rfl
@[simp] theorem State.setInp_suppTick (n : Nat) (f : InSt → InSt) : (s.setInp n f).suppTick = s.suppTick := rfl
@[simp] theorem State.setInp_beams (n : Nat) (f : InSt → InSt) : (s.setInp n f).beams = s.beams := rfl
@[simp] theorem State.setInp_engs (n : Nat) (f : InSt → InSt) : (s.setInp n f).engs = s.engs := rfl
@[simp] theorem State.setInp_engLoads (n : Nat) (f : InSt → InSt) : (s.setInp n f).engLoads = s.engLoads := rfl
@[simp] theorem State.setInp_win (n : Nat) (f : InSt → InSt) : (s.setInp n f).win = s.win := rfl
@[simp] theorem State.setInp_fr (n : Nat) (f : InSt → InSt) : (s.setInp n f).fr = s.fr := rfl
@[simp] theorem State.setInp_trig (n : Nat) (f : InSt → InSt) : (s.setInp n f).trig = s.trig := rfl
@[simp] theorem State.setInp_hist (n : Nat) (f : InSt → InSt) : (s.setInp n f).hist = s.hist := rfl
@[simp] theorem State.setInp_coder (n : Nat) (f : InSt → InSt) : (s.setInp n f).coder = s.coder := rfl
@[simp] theorem State.setInp_spec (n : Nat) (f : InSt → InSt) : (s.setInp n f).spec = s.spec := rfl
@[simp] theorem State.setInp_tdc (n : Nat) (f : InSt → InSt) : (s.setInp n f).tdc = s.tdc := rfl
@[simp] theorem State.setInp_ecc (n : Nat) (f : InSt → InSt) : (s.setInp n f).ecc = s.ecc := rfl
@[simp] theorem State.setInp_boot (n : Nat) (f : InSt → InSt) : (s.setInp n f).boot = s.boot := rfl
@[simp] theorem State.setInp_app (n : Nat) (f : InSt → InSt) : (s.setInp n f).app = s.app := rfl
@[simp] theorem State.setInp_acts (n : Nat) (f : InSt → InSt) : (s.setInp n f).acts = s.acts := rfl
@[simp] theorem State.setInp_freeCtr (n : Nat) (f : InSt → InSt) : (s.setInp n f).freeCtr = s.freeCtr := rfl
@[simp] theorem State.setInp_pending (n : Nat) (f : InSt → InSt) : (s.setInp n f).pending = s.pending := rfl
@[simp] theorem State.setInp_val (n : Nat) (f : InSt → InSt) (p : ObjDef) (i j : Nat) : (s.setInp n f).val p i j = s.val p i j := rfl
@[simp] theorem State.setInp_nat (n : Nat) (f : InSt → InSt) (p : ObjDef) (i j : Nat) : (s.setInp n f).nat p i j = s.nat p i j := rfl
@[simp] theorem State.setInp_on (n : Nat) (f : InSt → InSt) (p : ObjDef) (i j : Nat) : (s.setInp n f).on p i j = s.on p i j := rfl
@[simp] theorem State.setInp_blob (n : Nat) (f : InSt → InSt) (p : ObjDef) (i j : Nat) : (s.setInp n f).blob p i j = s.blob p i j := rfl
@[simp] theorem State.setInp_liveVal (n : Nat) (f : InSt → InSt) (p : ObjDef) (i j : Nat) : (s.setInp n f).liveVal p i j = s.liveVal p i j := rfl
@[simp] theorem State.setInp_mode (n : Nat) (f : InSt → InSt) : (s.setInp n f).mode = s.mode := rfl
@[simp] theorem State.setInp_byte (n : Nat) (f : InSt → InSt) (x : Nat) : (s.setInp n f).byte x = s.byte x := rfl
@[simp] theorem State.setInp_eng (n : Nat) (f : InSt → InSt) (i : Nat) : (s.setInp n f).eng i = s.eng i := rfl

/-! ### `setPin` -/

@[simp] theorem State.setPin_vals (n : Nat) (f : Pin → Pin) : (s.setPin n f).vals = s.vals := rfl
@[simp] theorem State.setPin_blobs (n : Nat) (f : Pin → Pin) : (s.setPin n f).blobs = s.blobs := rfl
@[simp] theorem State.setPin_live (n : Nat) (f : Pin → Pin) : (s.setPin n f).live = s.live := rfl
@[simp] theorem State.setPin_liveBlobs (n : Nat) (f : Pin → Pin) : (s.setPin n f).liveBlobs = s.liveBlobs := rfl
@[simp] theorem State.setPin_retired (n : Nat) (f : Pin → Pin) : (s.setPin n f).retired = s.retired := rfl
@[simp] theorem State.setPin_staged (n : Nat) (f : Pin → Pin) : (s.setPin n f).staged = s.staged := rfl
@[simp] theorem State.setPin_past (n : Nat) (f : Pin → Pin) : (s.setPin n f).past = s.past := rfl
@[simp] theorem State.setPin_sdp (n : Nat) (f : Pin → Pin) : (s.setPin n f).sdp = s.sdp := rfl
@[simp] theorem State.setPin_clk (n : Nat) (f : Pin → Pin) : (s.setPin n f).clk = s.clk := rfl
@[simp] theorem State.setPin_tabs (n : Nat) (f : Pin → Pin) : (s.setPin n f).tabs = s.tabs := rfl
@[simp] theorem State.setPin_inputs (n : Nat) (f : Pin → Pin) : (s.setPin n f).inputs = s.inputs := rfl
@[simp] theorem State.setPin_clusters (n : Nat) (f : Pin → Pin) : (s.setPin n f).clusters = s.clusters := rfl
@[simp] theorem State.setPin_mem (n : Nat) (f : Pin → Pin) : (s.setPin n f).mem = s.mem := rfl
@[simp] theorem State.setPin_poison (n : Nat) (f : Pin → Pin) : (s.setPin n f).poison = s.poison := rfl
@[simp] theorem State.setPin_regions (n : Nat) (f : Pin → Pin) : (s.setPin n f).regions = s.regions := rfl
@[simp] theorem State.setPin_pipe (n : Nat) (f : Pin → Pin) : (s.setPin n f).pipe = s.pipe := rfl
@[simp] theorem State.setPin_periods (n : Nat) (f : Pin → Pin) : (s.setPin n f).periods = s.periods := rfl
@[simp] theorem State.setPin_hks (n : Nat) (f : Pin → Pin) : (s.setPin n f).hks = s.hks := rfl
@[simp] theorem State.setPin_cont (n : Nat) (f : Pin → Pin) : (s.setPin n f).cont = s.cont := rfl
@[simp] theorem State.setPin_flt (n : Nat) (f : Pin → Pin) : (s.setPin n f).flt = s.flt := rfl
@[simp] theorem State.setPin_lanes (n : Nat) (f : Pin → Pin) : (s.setPin n f).lanes = s.lanes := rfl
@[simp] theorem State.setPin_slices (n : Nat) (f : Pin → Pin) : (s.setPin n f).slices = s.slices := rfl
@[simp] theorem State.setPin_ctxQueue (n : Nat) (f : Pin → Pin) : (s.setPin n f).ctxQueue = s.ctxQueue := rfl
@[simp] theorem State.setPin_delay (n : Nat) (f : Pin → Pin) : (s.setPin n f).delay = s.delay := rfl
@[simp] theorem State.setPin_suppTick (n : Nat) (f : Pin → Pin) : (s.setPin n f).suppTick = s.suppTick := rfl
@[simp] theorem State.setPin_beams (n : Nat) (f : Pin → Pin) : (s.setPin n f).beams = s.beams := rfl
@[simp] theorem State.setPin_engs (n : Nat) (f : Pin → Pin) : (s.setPin n f).engs = s.engs := rfl
@[simp] theorem State.setPin_engLoads (n : Nat) (f : Pin → Pin) : (s.setPin n f).engLoads = s.engLoads := rfl
@[simp] theorem State.setPin_win (n : Nat) (f : Pin → Pin) : (s.setPin n f).win = s.win := rfl
@[simp] theorem State.setPin_fr (n : Nat) (f : Pin → Pin) : (s.setPin n f).fr = s.fr := rfl
@[simp] theorem State.setPin_trig (n : Nat) (f : Pin → Pin) : (s.setPin n f).trig = s.trig := rfl
@[simp] theorem State.setPin_hist (n : Nat) (f : Pin → Pin) : (s.setPin n f).hist = s.hist := rfl
@[simp] theorem State.setPin_coder (n : Nat) (f : Pin → Pin) : (s.setPin n f).coder = s.coder := rfl
@[simp] theorem State.setPin_spec (n : Nat) (f : Pin → Pin) : (s.setPin n f).spec = s.spec := rfl
@[simp] theorem State.setPin_tdc (n : Nat) (f : Pin → Pin) : (s.setPin n f).tdc = s.tdc := rfl
@[simp] theorem State.setPin_ecc (n : Nat) (f : Pin → Pin) : (s.setPin n f).ecc = s.ecc := rfl
@[simp] theorem State.setPin_boot (n : Nat) (f : Pin → Pin) : (s.setPin n f).boot = s.boot := rfl
@[simp] theorem State.setPin_app (n : Nat) (f : Pin → Pin) : (s.setPin n f).app = s.app := rfl
@[simp] theorem State.setPin_acts (n : Nat) (f : Pin → Pin) : (s.setPin n f).acts = s.acts := rfl
@[simp] theorem State.setPin_freeCtr (n : Nat) (f : Pin → Pin) : (s.setPin n f).freeCtr = s.freeCtr := rfl
@[simp] theorem State.setPin_pending (n : Nat) (f : Pin → Pin) : (s.setPin n f).pending = s.pending := rfl
@[simp] theorem State.setPin_val (n : Nat) (f : Pin → Pin) (p : ObjDef) (i j : Nat) : (s.setPin n f).val p i j = s.val p i j := rfl
@[simp] theorem State.setPin_nat (n : Nat) (f : Pin → Pin) (p : ObjDef) (i j : Nat) : (s.setPin n f).nat p i j = s.nat p i j := rfl
@[simp] theorem State.setPin_on (n : Nat) (f : Pin → Pin) (p : ObjDef) (i j : Nat) : (s.setPin n f).on p i j = s.on p i j := rfl
@[simp] theorem State.setPin_blob (n : Nat) (f : Pin → Pin) (p : ObjDef) (i j : Nat) : (s.setPin n f).blob p i j = s.blob p i j := rfl
@[simp] theorem State.setPin_liveVal (n : Nat) (f : Pin → Pin) (p : ObjDef) (i j : Nat) : (s.setPin n f).liveVal p i j = s.liveVal p i j := rfl
@[simp] theorem State.setPin_mode (n : Nat) (f : Pin → Pin) : (s.setPin n f).mode = s.mode := rfl
@[simp] theorem State.setPin_byte (n : Nat) (f : Pin → Pin) (x : Nat) : (s.setPin n f).byte x = s.byte x := rfl
@[simp] theorem State.setPin_inp (n : Nat) (f : Pin → Pin) (i : Nat) : (s.setPin n f).inp i = s.inp i := rfl
@[simp] theorem State.setPin_eng (n : Nat) (f : Pin → Pin) (i : Nat) : (s.setPin n f).eng i = s.eng i := rfl

/-! ### `setCl` -/

@[simp] theorem State.setCl_vals (n : Nat) (f : ClSt → ClSt) : (s.setCl n f).vals = s.vals := rfl
@[simp] theorem State.setCl_blobs (n : Nat) (f : ClSt → ClSt) : (s.setCl n f).blobs = s.blobs := rfl
@[simp] theorem State.setCl_live (n : Nat) (f : ClSt → ClSt) : (s.setCl n f).live = s.live := rfl
@[simp] theorem State.setCl_liveBlobs (n : Nat) (f : ClSt → ClSt) : (s.setCl n f).liveBlobs = s.liveBlobs := rfl
@[simp] theorem State.setCl_retired (n : Nat) (f : ClSt → ClSt) : (s.setCl n f).retired = s.retired := rfl
@[simp] theorem State.setCl_staged (n : Nat) (f : ClSt → ClSt) : (s.setCl n f).staged = s.staged := rfl
@[simp] theorem State.setCl_past (n : Nat) (f : ClSt → ClSt) : (s.setCl n f).past = s.past := rfl
@[simp] theorem State.setCl_sdp (n : Nat) (f : ClSt → ClSt) : (s.setCl n f).sdp = s.sdp := rfl
@[simp] theorem State.setCl_clk (n : Nat) (f : ClSt → ClSt) : (s.setCl n f).clk = s.clk := rfl
@[simp] theorem State.setCl_tabs (n : Nat) (f : ClSt → ClSt) : (s.setCl n f).tabs = s.tabs := rfl
@[simp] theorem State.setCl_inputs (n : Nat) (f : ClSt → ClSt) : (s.setCl n f).inputs = s.inputs := rfl
@[simp] theorem State.setCl_pins (n : Nat) (f : ClSt → ClSt) : (s.setCl n f).pins = s.pins := rfl
@[simp] theorem State.setCl_mem (n : Nat) (f : ClSt → ClSt) : (s.setCl n f).mem = s.mem := rfl
@[simp] theorem State.setCl_poison (n : Nat) (f : ClSt → ClSt) : (s.setCl n f).poison = s.poison := rfl
@[simp] theorem State.setCl_regions (n : Nat) (f : ClSt → ClSt) : (s.setCl n f).regions = s.regions := rfl
@[simp] theorem State.setCl_pipe (n : Nat) (f : ClSt → ClSt) : (s.setCl n f).pipe = s.pipe := rfl
@[simp] theorem State.setCl_periods (n : Nat) (f : ClSt → ClSt) : (s.setCl n f).periods = s.periods := rfl
@[simp] theorem State.setCl_hks (n : Nat) (f : ClSt → ClSt) : (s.setCl n f).hks = s.hks := rfl
@[simp] theorem State.setCl_cont (n : Nat) (f : ClSt → ClSt) : (s.setCl n f).cont = s.cont := rfl
@[simp] theorem State.setCl_flt (n : Nat) (f : ClSt → ClSt) : (s.setCl n f).flt = s.flt := rfl
@[simp] theorem State.setCl_lanes (n : Nat) (f : ClSt → ClSt) : (s.setCl n f).lanes = s.lanes := rfl
@[simp] theorem State.setCl_slices (n : Nat) (f : ClSt → ClSt) : (s.setCl n f).slices = s.slices := rfl
@[simp] theorem State.setCl_ctxQueue (n : Nat) (f : ClSt → ClSt) : (s.setCl n f).ctxQueue = s.ctxQueue := rfl
@[simp] theorem State.setCl_delay (n : Nat) (f : ClSt → ClSt) : (s.setCl n f).delay = s.delay := rfl
@[simp] theorem State.setCl_suppTick (n : Nat) (f : ClSt → ClSt) : (s.setCl n f).suppTick = s.suppTick := rfl
@[simp] theorem State.setCl_beams (n : Nat) (f : ClSt → ClSt) : (s.setCl n f).beams = s.beams := rfl
@[simp] theorem State.setCl_engs (n : Nat) (f : ClSt → ClSt) : (s.setCl n f).engs = s.engs := rfl
@[simp] theorem State.setCl_engLoads (n : Nat) (f : ClSt → ClSt) : (s.setCl n f).engLoads = s.engLoads := rfl
@[simp] theorem State.setCl_win (n : Nat) (f : ClSt → ClSt) : (s.setCl n f).win = s.win := rfl
@[simp] theorem State.setCl_fr (n : Nat) (f : ClSt → ClSt) : (s.setCl n f).fr = s.fr := rfl
@[simp] theorem State.setCl_trig (n : Nat) (f : ClSt → ClSt) : (s.setCl n f).trig = s.trig := rfl
@[simp] theorem State.setCl_hist (n : Nat) (f : ClSt → ClSt) : (s.setCl n f).hist = s.hist := rfl
@[simp] theorem State.setCl_coder (n : Nat) (f : ClSt → ClSt) : (s.setCl n f).coder = s.coder := rfl
@[simp] theorem State.setCl_spec (n : Nat) (f : ClSt → ClSt) : (s.setCl n f).spec = s.spec := rfl
@[simp] theorem State.setCl_tdc (n : Nat) (f : ClSt → ClSt) : (s.setCl n f).tdc = s.tdc := rfl
@[simp] theorem State.setCl_ecc (n : Nat) (f : ClSt → ClSt) : (s.setCl n f).ecc = s.ecc := rfl
@[simp] theorem State.setCl_boot (n : Nat) (f : ClSt → ClSt) : (s.setCl n f).boot = s.boot := rfl
@[simp] theorem State.setCl_app (n : Nat) (f : ClSt → ClSt) : (s.setCl n f).app = s.app := rfl
@[simp] theorem State.setCl_acts (n : Nat) (f : ClSt → ClSt) : (s.setCl n f).acts = s.acts := rfl
@[simp] theorem State.setCl_freeCtr (n : Nat) (f : ClSt → ClSt) : (s.setCl n f).freeCtr = s.freeCtr := rfl
@[simp] theorem State.setCl_pending (n : Nat) (f : ClSt → ClSt) : (s.setCl n f).pending = s.pending := rfl
@[simp] theorem State.setCl_val (n : Nat) (f : ClSt → ClSt) (p : ObjDef) (i j : Nat) : (s.setCl n f).val p i j = s.val p i j := rfl
@[simp] theorem State.setCl_nat (n : Nat) (f : ClSt → ClSt) (p : ObjDef) (i j : Nat) : (s.setCl n f).nat p i j = s.nat p i j := rfl
@[simp] theorem State.setCl_on (n : Nat) (f : ClSt → ClSt) (p : ObjDef) (i j : Nat) : (s.setCl n f).on p i j = s.on p i j := rfl
@[simp] theorem State.setCl_blob (n : Nat) (f : ClSt → ClSt) (p : ObjDef) (i j : Nat) : (s.setCl n f).blob p i j = s.blob p i j := rfl
@[simp] theorem State.setCl_liveVal (n : Nat) (f : ClSt → ClSt) (p : ObjDef) (i j : Nat) : (s.setCl n f).liveVal p i j = s.liveVal p i j := rfl
@[simp] theorem State.setCl_mode (n : Nat) (f : ClSt → ClSt) : (s.setCl n f).mode = s.mode := rfl
@[simp] theorem State.setCl_byte (n : Nat) (f : ClSt → ClSt) (x : Nat) : (s.setCl n f).byte x = s.byte x := rfl
@[simp] theorem State.setCl_inp (n : Nat) (f : ClSt → ClSt) (i : Nat) : (s.setCl n f).inp i = s.inp i := rfl
@[simp] theorem State.setCl_eng (n : Nat) (f : ClSt → ClSt) (i : Nat) : (s.setCl n f).eng i = s.eng i := rfl

/-! ### `setRg` -/

@[simp] theorem State.setRg_vals (n : Nat) (f : RgSt → RgSt) : (s.setRg n f).vals = s.vals := rfl
@[simp] theorem State.setRg_blobs (n : Nat) (f : RgSt → RgSt) : (s.setRg n f).blobs = s.blobs := rfl
@[simp] theorem State.setRg_live (n : Nat) (f : RgSt → RgSt) : (s.setRg n f).live = s.live := rfl
@[simp] theorem State.setRg_liveBlobs (n : Nat) (f : RgSt → RgSt) : (s.setRg n f).liveBlobs = s.liveBlobs := rfl
@[simp] theorem State.setRg_retired (n : Nat) (f : RgSt → RgSt) : (s.setRg n f).retired = s.retired := rfl
@[simp] theorem State.setRg_staged (n : Nat) (f : RgSt → RgSt) : (s.setRg n f).staged = s.staged := rfl
@[simp] theorem State.setRg_past (n : Nat) (f : RgSt → RgSt) : (s.setRg n f).past = s.past := rfl
@[simp] theorem State.setRg_sdp (n : Nat) (f : RgSt → RgSt) : (s.setRg n f).sdp = s.sdp := rfl
@[simp] theorem State.setRg_clk (n : Nat) (f : RgSt → RgSt) : (s.setRg n f).clk = s.clk := rfl
@[simp] theorem State.setRg_tabs (n : Nat) (f : RgSt → RgSt) : (s.setRg n f).tabs = s.tabs := rfl
@[simp] theorem State.setRg_inputs (n : Nat) (f : RgSt → RgSt) : (s.setRg n f).inputs = s.inputs := rfl
@[simp] theorem State.setRg_pins (n : Nat) (f : RgSt → RgSt) : (s.setRg n f).pins = s.pins := rfl
@[simp] theorem State.setRg_clusters (n : Nat) (f : RgSt → RgSt) : (s.setRg n f).clusters = s.clusters := rfl
@[simp] theorem State.setRg_mem (n : Nat) (f : RgSt → RgSt) : (s.setRg n f).mem = s.mem := rfl
@[simp] theorem State.setRg_poison (n : Nat) (f : RgSt → RgSt) : (s.setRg n f).poison = s.poison := rfl
@[simp] theorem State.setRg_pipe (n : Nat) (f : RgSt → RgSt) : (s.setRg n f).pipe = s.pipe := rfl
@[simp] theorem State.setRg_periods (n : Nat) (f : RgSt → RgSt) : (s.setRg n f).periods = s.periods := rfl
@[simp] theorem State.setRg_hks (n : Nat) (f : RgSt → RgSt) : (s.setRg n f).hks = s.hks := rfl
@[simp] theorem State.setRg_cont (n : Nat) (f : RgSt → RgSt) : (s.setRg n f).cont = s.cont := rfl
@[simp] theorem State.setRg_flt (n : Nat) (f : RgSt → RgSt) : (s.setRg n f).flt = s.flt := rfl
@[simp] theorem State.setRg_lanes (n : Nat) (f : RgSt → RgSt) : (s.setRg n f).lanes = s.lanes := rfl
@[simp] theorem State.setRg_slices (n : Nat) (f : RgSt → RgSt) : (s.setRg n f).slices = s.slices := rfl
@[simp] theorem State.setRg_ctxQueue (n : Nat) (f : RgSt → RgSt) : (s.setRg n f).ctxQueue = s.ctxQueue := rfl
@[simp] theorem State.setRg_delay (n : Nat) (f : RgSt → RgSt) : (s.setRg n f).delay = s.delay := rfl
@[simp] theorem State.setRg_suppTick (n : Nat) (f : RgSt → RgSt) : (s.setRg n f).suppTick = s.suppTick := rfl
@[simp] theorem State.setRg_beams (n : Nat) (f : RgSt → RgSt) : (s.setRg n f).beams = s.beams := rfl
@[simp] theorem State.setRg_engs (n : Nat) (f : RgSt → RgSt) : (s.setRg n f).engs = s.engs := rfl
@[simp] theorem State.setRg_engLoads (n : Nat) (f : RgSt → RgSt) : (s.setRg n f).engLoads = s.engLoads := rfl
@[simp] theorem State.setRg_win (n : Nat) (f : RgSt → RgSt) : (s.setRg n f).win = s.win := rfl
@[simp] theorem State.setRg_fr (n : Nat) (f : RgSt → RgSt) : (s.setRg n f).fr = s.fr := rfl
@[simp] theorem State.setRg_trig (n : Nat) (f : RgSt → RgSt) : (s.setRg n f).trig = s.trig := rfl
@[simp] theorem State.setRg_hist (n : Nat) (f : RgSt → RgSt) : (s.setRg n f).hist = s.hist := rfl
@[simp] theorem State.setRg_coder (n : Nat) (f : RgSt → RgSt) : (s.setRg n f).coder = s.coder := rfl
@[simp] theorem State.setRg_spec (n : Nat) (f : RgSt → RgSt) : (s.setRg n f).spec = s.spec := rfl
@[simp] theorem State.setRg_tdc (n : Nat) (f : RgSt → RgSt) : (s.setRg n f).tdc = s.tdc := rfl
@[simp] theorem State.setRg_ecc (n : Nat) (f : RgSt → RgSt) : (s.setRg n f).ecc = s.ecc := rfl
@[simp] theorem State.setRg_boot (n : Nat) (f : RgSt → RgSt) : (s.setRg n f).boot = s.boot := rfl
@[simp] theorem State.setRg_app (n : Nat) (f : RgSt → RgSt) : (s.setRg n f).app = s.app := rfl
@[simp] theorem State.setRg_acts (n : Nat) (f : RgSt → RgSt) : (s.setRg n f).acts = s.acts := rfl
@[simp] theorem State.setRg_freeCtr (n : Nat) (f : RgSt → RgSt) : (s.setRg n f).freeCtr = s.freeCtr := rfl
@[simp] theorem State.setRg_pending (n : Nat) (f : RgSt → RgSt) : (s.setRg n f).pending = s.pending := rfl
@[simp] theorem State.setRg_val (n : Nat) (f : RgSt → RgSt) (p : ObjDef) (i j : Nat) : (s.setRg n f).val p i j = s.val p i j := rfl
@[simp] theorem State.setRg_nat (n : Nat) (f : RgSt → RgSt) (p : ObjDef) (i j : Nat) : (s.setRg n f).nat p i j = s.nat p i j := rfl
@[simp] theorem State.setRg_on (n : Nat) (f : RgSt → RgSt) (p : ObjDef) (i j : Nat) : (s.setRg n f).on p i j = s.on p i j := rfl
@[simp] theorem State.setRg_blob (n : Nat) (f : RgSt → RgSt) (p : ObjDef) (i j : Nat) : (s.setRg n f).blob p i j = s.blob p i j := rfl
@[simp] theorem State.setRg_liveVal (n : Nat) (f : RgSt → RgSt) (p : ObjDef) (i j : Nat) : (s.setRg n f).liveVal p i j = s.liveVal p i j := rfl
@[simp] theorem State.setRg_mode (n : Nat) (f : RgSt → RgSt) : (s.setRg n f).mode = s.mode := rfl
@[simp] theorem State.setRg_byte (n : Nat) (f : RgSt → RgSt) (x : Nat) : (s.setRg n f).byte x = s.byte x := rfl
@[simp] theorem State.setRg_inp (n : Nat) (f : RgSt → RgSt) (i : Nat) : (s.setRg n f).inp i = s.inp i := rfl
@[simp] theorem State.setRg_eng (n : Nat) (f : RgSt → RgSt) (i : Nat) : (s.setRg n f).eng i = s.eng i := rfl

/-! ### `setHk` -/

@[simp] theorem State.setHk_vals (n : Nat) (f : HkSt → HkSt) : (s.setHk n f).vals = s.vals := rfl
@[simp] theorem State.setHk_blobs (n : Nat) (f : HkSt → HkSt) : (s.setHk n f).blobs = s.blobs := rfl
@[simp] theorem State.setHk_live (n : Nat) (f : HkSt → HkSt) : (s.setHk n f).live = s.live := rfl
@[simp] theorem State.setHk_liveBlobs (n : Nat) (f : HkSt → HkSt) : (s.setHk n f).liveBlobs = s.liveBlobs := rfl
@[simp] theorem State.setHk_retired (n : Nat) (f : HkSt → HkSt) : (s.setHk n f).retired = s.retired := rfl
@[simp] theorem State.setHk_staged (n : Nat) (f : HkSt → HkSt) : (s.setHk n f).staged = s.staged := rfl
@[simp] theorem State.setHk_past (n : Nat) (f : HkSt → HkSt) : (s.setHk n f).past = s.past := rfl
@[simp] theorem State.setHk_sdp (n : Nat) (f : HkSt → HkSt) : (s.setHk n f).sdp = s.sdp := rfl
@[simp] theorem State.setHk_clk (n : Nat) (f : HkSt → HkSt) : (s.setHk n f).clk = s.clk := rfl
@[simp] theorem State.setHk_tabs (n : Nat) (f : HkSt → HkSt) : (s.setHk n f).tabs = s.tabs := rfl
@[simp] theorem State.setHk_inputs (n : Nat) (f : HkSt → HkSt) : (s.setHk n f).inputs = s.inputs := rfl
@[simp] theorem State.setHk_pins (n : Nat) (f : HkSt → HkSt) : (s.setHk n f).pins = s.pins := rfl
@[simp] theorem State.setHk_clusters (n : Nat) (f : HkSt → HkSt) : (s.setHk n f).clusters = s.clusters := rfl
@[simp] theorem State.setHk_mem (n : Nat) (f : HkSt → HkSt) : (s.setHk n f).mem = s.mem := rfl
@[simp] theorem State.setHk_poison (n : Nat) (f : HkSt → HkSt) : (s.setHk n f).poison = s.poison := rfl
@[simp] theorem State.setHk_regions (n : Nat) (f : HkSt → HkSt) : (s.setHk n f).regions = s.regions := rfl
@[simp] theorem State.setHk_pipe (n : Nat) (f : HkSt → HkSt) : (s.setHk n f).pipe = s.pipe := rfl
@[simp] theorem State.setHk_periods (n : Nat) (f : HkSt → HkSt) : (s.setHk n f).periods = s.periods := rfl
@[simp] theorem State.setHk_cont (n : Nat) (f : HkSt → HkSt) : (s.setHk n f).cont = s.cont := rfl
@[simp] theorem State.setHk_flt (n : Nat) (f : HkSt → HkSt) : (s.setHk n f).flt = s.flt := rfl
@[simp] theorem State.setHk_lanes (n : Nat) (f : HkSt → HkSt) : (s.setHk n f).lanes = s.lanes := rfl
@[simp] theorem State.setHk_slices (n : Nat) (f : HkSt → HkSt) : (s.setHk n f).slices = s.slices := rfl
@[simp] theorem State.setHk_ctxQueue (n : Nat) (f : HkSt → HkSt) : (s.setHk n f).ctxQueue = s.ctxQueue := rfl
@[simp] theorem State.setHk_delay (n : Nat) (f : HkSt → HkSt) : (s.setHk n f).delay = s.delay := rfl
@[simp] theorem State.setHk_suppTick (n : Nat) (f : HkSt → HkSt) : (s.setHk n f).suppTick = s.suppTick := rfl
@[simp] theorem State.setHk_beams (n : Nat) (f : HkSt → HkSt) : (s.setHk n f).beams = s.beams := rfl
@[simp] theorem State.setHk_engs (n : Nat) (f : HkSt → HkSt) : (s.setHk n f).engs = s.engs := rfl
@[simp] theorem State.setHk_engLoads (n : Nat) (f : HkSt → HkSt) : (s.setHk n f).engLoads = s.engLoads := rfl
@[simp] theorem State.setHk_win (n : Nat) (f : HkSt → HkSt) : (s.setHk n f).win = s.win := rfl
@[simp] theorem State.setHk_fr (n : Nat) (f : HkSt → HkSt) : (s.setHk n f).fr = s.fr := rfl
@[simp] theorem State.setHk_trig (n : Nat) (f : HkSt → HkSt) : (s.setHk n f).trig = s.trig := rfl
@[simp] theorem State.setHk_hist (n : Nat) (f : HkSt → HkSt) : (s.setHk n f).hist = s.hist := rfl
@[simp] theorem State.setHk_coder (n : Nat) (f : HkSt → HkSt) : (s.setHk n f).coder = s.coder := rfl
@[simp] theorem State.setHk_spec (n : Nat) (f : HkSt → HkSt) : (s.setHk n f).spec = s.spec := rfl
@[simp] theorem State.setHk_tdc (n : Nat) (f : HkSt → HkSt) : (s.setHk n f).tdc = s.tdc := rfl
@[simp] theorem State.setHk_ecc (n : Nat) (f : HkSt → HkSt) : (s.setHk n f).ecc = s.ecc := rfl
@[simp] theorem State.setHk_boot (n : Nat) (f : HkSt → HkSt) : (s.setHk n f).boot = s.boot := rfl
@[simp] theorem State.setHk_app (n : Nat) (f : HkSt → HkSt) : (s.setHk n f).app = s.app := rfl
@[simp] theorem State.setHk_acts (n : Nat) (f : HkSt → HkSt) : (s.setHk n f).acts = s.acts := rfl
@[simp] theorem State.setHk_freeCtr (n : Nat) (f : HkSt → HkSt) : (s.setHk n f).freeCtr = s.freeCtr := rfl
@[simp] theorem State.setHk_pending (n : Nat) (f : HkSt → HkSt) : (s.setHk n f).pending = s.pending := rfl
@[simp] theorem State.setHk_val (n : Nat) (f : HkSt → HkSt) (p : ObjDef) (i j : Nat) : (s.setHk n f).val p i j = s.val p i j := rfl
@[simp] theorem State.setHk_nat (n : Nat) (f : HkSt → HkSt) (p : ObjDef) (i j : Nat) : (s.setHk n f).nat p i j = s.nat p i j := rfl
@[simp] theorem State.setHk_on (n : Nat) (f : HkSt → HkSt) (p : ObjDef) (i j : Nat) : (s.setHk n f).on p i j = s.on p i j := rfl
@[simp] theorem State.setHk_blob (n : Nat) (f : HkSt → HkSt) (p : ObjDef) (i j : Nat) : (s.setHk n f).blob p i j = s.blob p i j := rfl
@[simp] theorem State.setHk_liveVal (n : Nat) (f : HkSt → HkSt) (p : ObjDef) (i j : Nat) : (s.setHk n f).liveVal p i j = s.liveVal p i j := rfl
@[simp] theorem State.setHk_mode (n : Nat) (f : HkSt → HkSt) : (s.setHk n f).mode = s.mode := rfl
@[simp] theorem State.setHk_byte (n : Nat) (f : HkSt → HkSt) (x : Nat) : (s.setHk n f).byte x = s.byte x := rfl
@[simp] theorem State.setHk_inp (n : Nat) (f : HkSt → HkSt) (i : Nat) : (s.setHk n f).inp i = s.inp i := rfl
@[simp] theorem State.setHk_eng (n : Nat) (f : HkSt → HkSt) (i : Nat) : (s.setHk n f).eng i = s.eng i := rfl

/-! ### `setSl` -/

@[simp] theorem State.setSl_vals (n : Nat) (f : SlSt → SlSt) : (s.setSl n f).vals = s.vals := rfl
@[simp] theorem State.setSl_blobs (n : Nat) (f : SlSt → SlSt) : (s.setSl n f).blobs = s.blobs := rfl
@[simp] theorem State.setSl_live (n : Nat) (f : SlSt → SlSt) : (s.setSl n f).live = s.live := rfl
@[simp] theorem State.setSl_liveBlobs (n : Nat) (f : SlSt → SlSt) : (s.setSl n f).liveBlobs = s.liveBlobs := rfl
@[simp] theorem State.setSl_retired (n : Nat) (f : SlSt → SlSt) : (s.setSl n f).retired = s.retired := rfl
@[simp] theorem State.setSl_staged (n : Nat) (f : SlSt → SlSt) : (s.setSl n f).staged = s.staged := rfl
@[simp] theorem State.setSl_past (n : Nat) (f : SlSt → SlSt) : (s.setSl n f).past = s.past := rfl
@[simp] theorem State.setSl_sdp (n : Nat) (f : SlSt → SlSt) : (s.setSl n f).sdp = s.sdp := rfl
@[simp] theorem State.setSl_clk (n : Nat) (f : SlSt → SlSt) : (s.setSl n f).clk = s.clk := rfl
@[simp] theorem State.setSl_tabs (n : Nat) (f : SlSt → SlSt) : (s.setSl n f).tabs = s.tabs := rfl
@[simp] theorem State.setSl_inputs (n : Nat) (f : SlSt → SlSt) : (s.setSl n f).inputs = s.inputs := rfl
@[simp] theorem State.setSl_pins (n : Nat) (f : SlSt → SlSt) : (s.setSl n f).pins = s.pins := rfl
@[simp] theorem State.setSl_clusters (n : Nat) (f : SlSt → SlSt) : (s.setSl n f).clusters = s.clusters := rfl
@[simp] theorem State.setSl_mem (n : Nat) (f : SlSt → SlSt) : (s.setSl n f).mem = s.mem := rfl
@[simp] theorem State.setSl_poison (n : Nat) (f : SlSt → SlSt) : (s.setSl n f).poison = s.poison := rfl
@[simp] theorem State.setSl_regions (n : Nat) (f : SlSt → SlSt) : (s.setSl n f).regions = s.regions := rfl
@[simp] theorem State.setSl_pipe (n : Nat) (f : SlSt → SlSt) : (s.setSl n f).pipe = s.pipe := rfl
@[simp] theorem State.setSl_periods (n : Nat) (f : SlSt → SlSt) : (s.setSl n f).periods = s.periods := rfl
@[simp] theorem State.setSl_hks (n : Nat) (f : SlSt → SlSt) : (s.setSl n f).hks = s.hks := rfl
@[simp] theorem State.setSl_cont (n : Nat) (f : SlSt → SlSt) : (s.setSl n f).cont = s.cont := rfl
@[simp] theorem State.setSl_flt (n : Nat) (f : SlSt → SlSt) : (s.setSl n f).flt = s.flt := rfl
@[simp] theorem State.setSl_lanes (n : Nat) (f : SlSt → SlSt) : (s.setSl n f).lanes = s.lanes := rfl
@[simp] theorem State.setSl_ctxQueue (n : Nat) (f : SlSt → SlSt) : (s.setSl n f).ctxQueue = s.ctxQueue := rfl
@[simp] theorem State.setSl_delay (n : Nat) (f : SlSt → SlSt) : (s.setSl n f).delay = s.delay := rfl
@[simp] theorem State.setSl_suppTick (n : Nat) (f : SlSt → SlSt) : (s.setSl n f).suppTick = s.suppTick := rfl
@[simp] theorem State.setSl_beams (n : Nat) (f : SlSt → SlSt) : (s.setSl n f).beams = s.beams := rfl
@[simp] theorem State.setSl_engs (n : Nat) (f : SlSt → SlSt) : (s.setSl n f).engs = s.engs := rfl
@[simp] theorem State.setSl_engLoads (n : Nat) (f : SlSt → SlSt) : (s.setSl n f).engLoads = s.engLoads := rfl
@[simp] theorem State.setSl_win (n : Nat) (f : SlSt → SlSt) : (s.setSl n f).win = s.win := rfl
@[simp] theorem State.setSl_fr (n : Nat) (f : SlSt → SlSt) : (s.setSl n f).fr = s.fr := rfl
@[simp] theorem State.setSl_trig (n : Nat) (f : SlSt → SlSt) : (s.setSl n f).trig = s.trig := rfl
@[simp] theorem State.setSl_hist (n : Nat) (f : SlSt → SlSt) : (s.setSl n f).hist = s.hist := rfl
@[simp] theorem State.setSl_coder (n : Nat) (f : SlSt → SlSt) : (s.setSl n f).coder = s.coder := rfl
@[simp] theorem State.setSl_spec (n : Nat) (f : SlSt → SlSt) : (s.setSl n f).spec = s.spec := rfl
@[simp] theorem State.setSl_tdc (n : Nat) (f : SlSt → SlSt) : (s.setSl n f).tdc = s.tdc := rfl
@[simp] theorem State.setSl_ecc (n : Nat) (f : SlSt → SlSt) : (s.setSl n f).ecc = s.ecc := rfl
@[simp] theorem State.setSl_boot (n : Nat) (f : SlSt → SlSt) : (s.setSl n f).boot = s.boot := rfl
@[simp] theorem State.setSl_app (n : Nat) (f : SlSt → SlSt) : (s.setSl n f).app = s.app := rfl
@[simp] theorem State.setSl_acts (n : Nat) (f : SlSt → SlSt) : (s.setSl n f).acts = s.acts := rfl
@[simp] theorem State.setSl_freeCtr (n : Nat) (f : SlSt → SlSt) : (s.setSl n f).freeCtr = s.freeCtr := rfl
@[simp] theorem State.setSl_pending (n : Nat) (f : SlSt → SlSt) : (s.setSl n f).pending = s.pending := rfl
@[simp] theorem State.setSl_val (n : Nat) (f : SlSt → SlSt) (p : ObjDef) (i j : Nat) : (s.setSl n f).val p i j = s.val p i j := rfl
@[simp] theorem State.setSl_nat (n : Nat) (f : SlSt → SlSt) (p : ObjDef) (i j : Nat) : (s.setSl n f).nat p i j = s.nat p i j := rfl
@[simp] theorem State.setSl_on (n : Nat) (f : SlSt → SlSt) (p : ObjDef) (i j : Nat) : (s.setSl n f).on p i j = s.on p i j := rfl
@[simp] theorem State.setSl_blob (n : Nat) (f : SlSt → SlSt) (p : ObjDef) (i j : Nat) : (s.setSl n f).blob p i j = s.blob p i j := rfl
@[simp] theorem State.setSl_liveVal (n : Nat) (f : SlSt → SlSt) (p : ObjDef) (i j : Nat) : (s.setSl n f).liveVal p i j = s.liveVal p i j := rfl
@[simp] theorem State.setSl_mode (n : Nat) (f : SlSt → SlSt) : (s.setSl n f).mode = s.mode := rfl
@[simp] theorem State.setSl_byte (n : Nat) (f : SlSt → SlSt) (x : Nat) : (s.setSl n f).byte x = s.byte x := rfl
@[simp] theorem State.setSl_inp (n : Nat) (f : SlSt → SlSt) (i : Nat) : (s.setSl n f).inp i = s.inp i := rfl
@[simp] theorem State.setSl_eng (n : Nat) (f : SlSt → SlSt) (i : Nat) : (s.setSl n f).eng i = s.eng i := rfl

/-! ### `setEng` -/

@[simp] theorem State.setEng_vals (n : Nat) (f : Eng → Eng) : (s.setEng n f).vals = s.vals := rfl
@[simp] theorem State.setEng_blobs (n : Nat) (f : Eng → Eng) : (s.setEng n f).blobs = s.blobs := rfl
@[simp] theorem State.setEng_live (n : Nat) (f : Eng → Eng) : (s.setEng n f).live = s.live := rfl
@[simp] theorem State.setEng_liveBlobs (n : Nat) (f : Eng → Eng) : (s.setEng n f).liveBlobs = s.liveBlobs := rfl
@[simp] theorem State.setEng_retired (n : Nat) (f : Eng → Eng) : (s.setEng n f).retired = s.retired := rfl
@[simp] theorem State.setEng_staged (n : Nat) (f : Eng → Eng) : (s.setEng n f).staged = s.staged := rfl
@[simp] theorem State.setEng_past (n : Nat) (f : Eng → Eng) : (s.setEng n f).past = s.past := rfl
@[simp] theorem State.setEng_sdp (n : Nat) (f : Eng → Eng) : (s.setEng n f).sdp = s.sdp := rfl
@[simp] theorem State.setEng_clk (n : Nat) (f : Eng → Eng) : (s.setEng n f).clk = s.clk := rfl
@[simp] theorem State.setEng_tabs (n : Nat) (f : Eng → Eng) : (s.setEng n f).tabs = s.tabs := rfl
@[simp] theorem State.setEng_inputs (n : Nat) (f : Eng → Eng) : (s.setEng n f).inputs = s.inputs := rfl
@[simp] theorem State.setEng_pins (n : Nat) (f : Eng → Eng) : (s.setEng n f).pins = s.pins := rfl
@[simp] theorem State.setEng_clusters (n : Nat) (f : Eng → Eng) : (s.setEng n f).clusters = s.clusters := rfl
@[simp] theorem State.setEng_mem (n : Nat) (f : Eng → Eng) : (s.setEng n f).mem = s.mem := rfl
@[simp] theorem State.setEng_poison (n : Nat) (f : Eng → Eng) : (s.setEng n f).poison = s.poison := rfl
@[simp] theorem State.setEng_regions (n : Nat) (f : Eng → Eng) : (s.setEng n f).regions = s.regions := rfl
@[simp] theorem State.setEng_pipe (n : Nat) (f : Eng → Eng) : (s.setEng n f).pipe = s.pipe := rfl
@[simp] theorem State.setEng_periods (n : Nat) (f : Eng → Eng) : (s.setEng n f).periods = s.periods := rfl
@[simp] theorem State.setEng_hks (n : Nat) (f : Eng → Eng) : (s.setEng n f).hks = s.hks := rfl
@[simp] theorem State.setEng_cont (n : Nat) (f : Eng → Eng) : (s.setEng n f).cont = s.cont := rfl
@[simp] theorem State.setEng_flt (n : Nat) (f : Eng → Eng) : (s.setEng n f).flt = s.flt := rfl
@[simp] theorem State.setEng_lanes (n : Nat) (f : Eng → Eng) : (s.setEng n f).lanes = s.lanes := rfl
@[simp] theorem State.setEng_slices (n : Nat) (f : Eng → Eng) : (s.setEng n f).slices = s.slices := rfl
@[simp] theorem State.setEng_ctxQueue (n : Nat) (f : Eng → Eng) : (s.setEng n f).ctxQueue = s.ctxQueue := rfl
@[simp] theorem State.setEng_delay (n : Nat) (f : Eng → Eng) : (s.setEng n f).delay = s.delay := rfl
@[simp] theorem State.setEng_suppTick (n : Nat) (f : Eng → Eng) : (s.setEng n f).suppTick = s.suppTick := rfl
@[simp] theorem State.setEng_beams (n : Nat) (f : Eng → Eng) : (s.setEng n f).beams = s.beams := rfl
@[simp] theorem State.setEng_engLoads (n : Nat) (f : Eng → Eng) : (s.setEng n f).engLoads = s.engLoads := rfl
@[simp] theorem State.setEng_win (n : Nat) (f : Eng → Eng) : (s.setEng n f).win = s.win := rfl
@[simp] theorem State.setEng_fr (n : Nat) (f : Eng → Eng) : (s.setEng n f).fr = s.fr := rfl
@[simp] theorem State.setEng_trig (n : Nat) (f : Eng → Eng) : (s.setEng n f).trig = s.trig := rfl
@[simp] theorem State.setEng_hist (n : Nat) (f : Eng → Eng) : (s.setEng n f).hist = s.hist := rfl
@[simp] theorem State.setEng_coder (n : Nat) (f : Eng → Eng) : (s.setEng n f).coder = s.coder := rfl
@[simp] theorem State.setEng_spec (n : Nat) (f : Eng → Eng) : (s.setEng n f).spec = s.spec := rfl
@[simp] theorem State.setEng_tdc (n : Nat) (f : Eng → Eng) : (s.setEng n f).tdc = s.tdc := rfl
@[simp] theorem State.setEng_ecc (n : Nat) (f : Eng → Eng) : (s.setEng n f).ecc = s.ecc := rfl
@[simp] theorem State.setEng_boot (n : Nat) (f : Eng → Eng) : (s.setEng n f).boot = s.boot := rfl
@[simp] theorem State.setEng_app (n : Nat) (f : Eng → Eng) : (s.setEng n f).app = s.app := rfl
@[simp] theorem State.setEng_acts (n : Nat) (f : Eng → Eng) : (s.setEng n f).acts = s.acts := rfl
@[simp] theorem State.setEng_freeCtr (n : Nat) (f : Eng → Eng) : (s.setEng n f).freeCtr = s.freeCtr := rfl
@[simp] theorem State.setEng_pending (n : Nat) (f : Eng → Eng) : (s.setEng n f).pending = s.pending := rfl
@[simp] theorem State.setEng_val (n : Nat) (f : Eng → Eng) (p : ObjDef) (i j : Nat) : (s.setEng n f).val p i j = s.val p i j := rfl
@[simp] theorem State.setEng_nat (n : Nat) (f : Eng → Eng) (p : ObjDef) (i j : Nat) : (s.setEng n f).nat p i j = s.nat p i j := rfl
@[simp] theorem State.setEng_on (n : Nat) (f : Eng → Eng) (p : ObjDef) (i j : Nat) : (s.setEng n f).on p i j = s.on p i j := rfl
@[simp] theorem State.setEng_blob (n : Nat) (f : Eng → Eng) (p : ObjDef) (i j : Nat) : (s.setEng n f).blob p i j = s.blob p i j := rfl
@[simp] theorem State.setEng_liveVal (n : Nat) (f : Eng → Eng) (p : ObjDef) (i j : Nat) : (s.setEng n f).liveVal p i j = s.liveVal p i j := rfl
@[simp] theorem State.setEng_mode (n : Nat) (f : Eng → Eng) : (s.setEng n f).mode = s.mode := rfl
@[simp] theorem State.setEng_byte (n : Nat) (f : Eng → Eng) (x : Nat) : (s.setEng n f).byte x = s.byte x := rfl
@[simp] theorem State.setEng_inp (n : Nat) (f : Eng → Eng) (i : Nat) : (s.setEng n f).inp i = s.inp i := rfl

/-! ### `setLn` -/

@[simp] theorem State.setLn_vals (n : Nat) (f : LnSt → LnSt) : (s.setLn n f).vals = s.vals := rfl
@[simp] theorem State.setLn_blobs (n : Nat) (f : LnSt → LnSt) : (s.setLn n f).blobs = s.blobs := rfl
@[simp] theorem State.setLn_live (n : Nat) (f : LnSt → LnSt) : (s.setLn n f).live = s.live := rfl
@[simp] theorem State.setLn_liveBlobs (n : Nat) (f : LnSt → LnSt) : (s.setLn n f).liveBlobs = s.liveBlobs := rfl
@[simp] theorem State.setLn_retired (n : Nat) (f : LnSt → LnSt) : (s.setLn n f).retired = s.retired := rfl
@[simp] theorem State.setLn_staged (n : Nat) (f : LnSt → LnSt) : (s.setLn n f).staged = s.staged := rfl
@[simp] theorem State.setLn_past (n : Nat) (f : LnSt → LnSt) : (s.setLn n f).past = s.past := rfl
@[simp] theorem State.setLn_sdp (n : Nat) (f : LnSt → LnSt) : (s.setLn n f).sdp = s.sdp := rfl
@[simp] theorem State.setLn_clk (n : Nat) (f : LnSt → LnSt) : (s.setLn n f).clk = s.clk := rfl
@[simp] theorem State.setLn_tabs (n : Nat) (f : LnSt → LnSt) : (s.setLn n f).tabs = s.tabs := rfl
@[simp] theorem State.setLn_inputs (n : Nat) (f : LnSt → LnSt) : (s.setLn n f).inputs = s.inputs := rfl
@[simp] theorem State.setLn_pins (n : Nat) (f : LnSt → LnSt) : (s.setLn n f).pins = s.pins := rfl
@[simp] theorem State.setLn_clusters (n : Nat) (f : LnSt → LnSt) : (s.setLn n f).clusters = s.clusters := rfl
@[simp] theorem State.setLn_mem (n : Nat) (f : LnSt → LnSt) : (s.setLn n f).mem = s.mem := rfl
@[simp] theorem State.setLn_poison (n : Nat) (f : LnSt → LnSt) : (s.setLn n f).poison = s.poison := rfl
@[simp] theorem State.setLn_regions (n : Nat) (f : LnSt → LnSt) : (s.setLn n f).regions = s.regions := rfl
@[simp] theorem State.setLn_pipe (n : Nat) (f : LnSt → LnSt) : (s.setLn n f).pipe = s.pipe := rfl
@[simp] theorem State.setLn_periods (n : Nat) (f : LnSt → LnSt) : (s.setLn n f).periods = s.periods := rfl
@[simp] theorem State.setLn_hks (n : Nat) (f : LnSt → LnSt) : (s.setLn n f).hks = s.hks := rfl
@[simp] theorem State.setLn_cont (n : Nat) (f : LnSt → LnSt) : (s.setLn n f).cont = s.cont := rfl
@[simp] theorem State.setLn_flt (n : Nat) (f : LnSt → LnSt) : (s.setLn n f).flt = s.flt := rfl
@[simp] theorem State.setLn_slices (n : Nat) (f : LnSt → LnSt) : (s.setLn n f).slices = s.slices := rfl
@[simp] theorem State.setLn_ctxQueue (n : Nat) (f : LnSt → LnSt) : (s.setLn n f).ctxQueue = s.ctxQueue := rfl
@[simp] theorem State.setLn_delay (n : Nat) (f : LnSt → LnSt) : (s.setLn n f).delay = s.delay := rfl
@[simp] theorem State.setLn_suppTick (n : Nat) (f : LnSt → LnSt) : (s.setLn n f).suppTick = s.suppTick := rfl
@[simp] theorem State.setLn_beams (n : Nat) (f : LnSt → LnSt) : (s.setLn n f).beams = s.beams := rfl
@[simp] theorem State.setLn_engs (n : Nat) (f : LnSt → LnSt) : (s.setLn n f).engs = s.engs := rfl
@[simp] theorem State.setLn_engLoads (n : Nat) (f : LnSt → LnSt) : (s.setLn n f).engLoads = s.engLoads := rfl
@[simp] theorem State.setLn_win (n : Nat) (f : LnSt → LnSt) : (s.setLn n f).win = s.win := rfl
@[simp] theorem State.setLn_fr (n : Nat) (f : LnSt → LnSt) : (s.setLn n f).fr = s.fr := rfl
@[simp] theorem State.setLn_trig (n : Nat) (f : LnSt → LnSt) : (s.setLn n f).trig = s.trig := rfl
@[simp] theorem State.setLn_hist (n : Nat) (f : LnSt → LnSt) : (s.setLn n f).hist = s.hist := rfl
@[simp] theorem State.setLn_coder (n : Nat) (f : LnSt → LnSt) : (s.setLn n f).coder = s.coder := rfl
@[simp] theorem State.setLn_spec (n : Nat) (f : LnSt → LnSt) : (s.setLn n f).spec = s.spec := rfl
@[simp] theorem State.setLn_tdc (n : Nat) (f : LnSt → LnSt) : (s.setLn n f).tdc = s.tdc := rfl
@[simp] theorem State.setLn_ecc (n : Nat) (f : LnSt → LnSt) : (s.setLn n f).ecc = s.ecc := rfl
@[simp] theorem State.setLn_boot (n : Nat) (f : LnSt → LnSt) : (s.setLn n f).boot = s.boot := rfl
@[simp] theorem State.setLn_app (n : Nat) (f : LnSt → LnSt) : (s.setLn n f).app = s.app := rfl
@[simp] theorem State.setLn_acts (n : Nat) (f : LnSt → LnSt) : (s.setLn n f).acts = s.acts := rfl
@[simp] theorem State.setLn_freeCtr (n : Nat) (f : LnSt → LnSt) : (s.setLn n f).freeCtr = s.freeCtr := rfl
@[simp] theorem State.setLn_pending (n : Nat) (f : LnSt → LnSt) : (s.setLn n f).pending = s.pending := rfl
@[simp] theorem State.setLn_val (n : Nat) (f : LnSt → LnSt) (p : ObjDef) (i j : Nat) : (s.setLn n f).val p i j = s.val p i j := rfl
@[simp] theorem State.setLn_nat (n : Nat) (f : LnSt → LnSt) (p : ObjDef) (i j : Nat) : (s.setLn n f).nat p i j = s.nat p i j := rfl
@[simp] theorem State.setLn_on (n : Nat) (f : LnSt → LnSt) (p : ObjDef) (i j : Nat) : (s.setLn n f).on p i j = s.on p i j := rfl
@[simp] theorem State.setLn_blob (n : Nat) (f : LnSt → LnSt) (p : ObjDef) (i j : Nat) : (s.setLn n f).blob p i j = s.blob p i j := rfl
@[simp] theorem State.setLn_liveVal (n : Nat) (f : LnSt → LnSt) (p : ObjDef) (i j : Nat) : (s.setLn n f).liveVal p i j = s.liveVal p i j := rfl
@[simp] theorem State.setLn_mode (n : Nat) (f : LnSt → LnSt) : (s.setLn n f).mode = s.mode := rfl
@[simp] theorem State.setLn_byte (n : Nat) (f : LnSt → LnSt) (x : Nat) : (s.setLn n f).byte x = s.byte x := rfl
@[simp] theorem State.setLn_inp (n : Nat) (f : LnSt → LnSt) (i : Nat) : (s.setLn n f).inp i = s.inp i := rfl
@[simp] theorem State.setLn_eng (n : Nat) (f : LnSt → LnSt) (i : Nat) : (s.setLn n f).eng i = s.eng i := rfl

/-! ### `setClk` -/

@[simp] theorem State.setClk_vals (f : Clk → Clk) : (s.setClk f).vals = s.vals := rfl
@[simp] theorem State.setClk_blobs (f : Clk → Clk) : (s.setClk f).blobs = s.blobs := rfl
@[simp] theorem State.setClk_live (f : Clk → Clk) : (s.setClk f).live = s.live := rfl
@[simp] theorem State.setClk_liveBlobs (f : Clk → Clk) : (s.setClk f).liveBlobs = s.liveBlobs := rfl
@[simp] theorem State.setClk_retired (f : Clk → Clk) : (s.setClk f).retired = s.retired := rfl
@[simp] theorem State.setClk_staged (f : Clk → Clk) : (s.setClk f).staged = s.staged := rfl
@[simp] theorem State.setClk_past (f : Clk → Clk) : (s.setClk f).past = s.past := rfl
@[simp] theorem State.setClk_sdp (f : Clk → Clk) : (s.setClk f).sdp = s.sdp := rfl
@[simp] theorem State.setClk_tabs (f : Clk → Clk) : (s.setClk f).tabs = s.tabs := rfl
@[simp] theorem State.setClk_inputs (f : Clk → Clk) : (s.setClk f).inputs = s.inputs := rfl
@[simp] theorem State.setClk_pins (f : Clk → Clk) : (s.setClk f).pins = s.pins := rfl
@[simp] theorem State.setClk_clusters (f : Clk → Clk) : (s.setClk f).clusters = s.clusters := rfl
@[simp] theorem State.setClk_mem (f : Clk → Clk) : (s.setClk f).mem = s.mem := rfl
@[simp] theorem State.setClk_poison (f : Clk → Clk) : (s.setClk f).poison = s.poison := rfl
@[simp] theorem State.setClk_regions (f : Clk → Clk) : (s.setClk f).regions = s.regions := rfl
@[simp] theorem State.setClk_pipe (f : Clk → Clk) : (s.setClk f).pipe = s.pipe := rfl
@[simp] theorem State.setClk_periods (f : Clk → Clk) : (s.setClk f).periods = s.periods := rfl
@[simp] theorem State.setClk_hks (f : Clk → Clk) : (s.setClk f).hks = s.hks := rfl
@[simp] theorem State.setClk_cont (f : Clk → Clk) : (s.setClk f).cont = s.cont := rfl
@[simp] theorem State.setClk_flt (f : Clk → Clk) : (s.setClk f).flt = s.flt := rfl
@[simp] theorem State.setClk_lanes (f : Clk → Clk) : (s.setClk f).lanes = s.lanes := rfl
@[simp] theorem State.setClk_slices (f : Clk → Clk) : (s.setClk f).slices = s.slices := rfl
@[simp] theorem State.setClk_ctxQueue (f : Clk → Clk) : (s.setClk f).ctxQueue = s.ctxQueue := rfl
@[simp] theorem State.setClk_delay (f : Clk → Clk) : (s.setClk f).delay = s.delay := rfl
@[simp] theorem State.setClk_suppTick (f : Clk → Clk) : (s.setClk f).suppTick = s.suppTick := rfl
@[simp] theorem State.setClk_beams (f : Clk → Clk) : (s.setClk f).beams = s.beams := rfl
@[simp] theorem State.setClk_engs (f : Clk → Clk) : (s.setClk f).engs = s.engs := rfl
@[simp] theorem State.setClk_engLoads (f : Clk → Clk) : (s.setClk f).engLoads = s.engLoads := rfl
@[simp] theorem State.setClk_win (f : Clk → Clk) : (s.setClk f).win = s.win := rfl
@[simp] theorem State.setClk_fr (f : Clk → Clk) : (s.setClk f).fr = s.fr := rfl
@[simp] theorem State.setClk_trig (f : Clk → Clk) : (s.setClk f).trig = s.trig := rfl
@[simp] theorem State.setClk_hist (f : Clk → Clk) : (s.setClk f).hist = s.hist := rfl
@[simp] theorem State.setClk_coder (f : Clk → Clk) : (s.setClk f).coder = s.coder := rfl
@[simp] theorem State.setClk_spec (f : Clk → Clk) : (s.setClk f).spec = s.spec := rfl
@[simp] theorem State.setClk_tdc (f : Clk → Clk) : (s.setClk f).tdc = s.tdc := rfl
@[simp] theorem State.setClk_ecc (f : Clk → Clk) : (s.setClk f).ecc = s.ecc := rfl
@[simp] theorem State.setClk_boot (f : Clk → Clk) : (s.setClk f).boot = s.boot := rfl
@[simp] theorem State.setClk_app (f : Clk → Clk) : (s.setClk f).app = s.app := rfl
@[simp] theorem State.setClk_acts (f : Clk → Clk) : (s.setClk f).acts = s.acts := rfl
@[simp] theorem State.setClk_freeCtr (f : Clk → Clk) : (s.setClk f).freeCtr = s.freeCtr := rfl
@[simp] theorem State.setClk_pending (f : Clk → Clk) : (s.setClk f).pending = s.pending := rfl
@[simp] theorem State.setClk_val (f : Clk → Clk) (p : ObjDef) (i j : Nat) : (s.setClk f).val p i j = s.val p i j := rfl
@[simp] theorem State.setClk_nat (f : Clk → Clk) (p : ObjDef) (i j : Nat) : (s.setClk f).nat p i j = s.nat p i j := rfl
@[simp] theorem State.setClk_on (f : Clk → Clk) (p : ObjDef) (i j : Nat) : (s.setClk f).on p i j = s.on p i j := rfl
@[simp] theorem State.setClk_blob (f : Clk → Clk) (p : ObjDef) (i j : Nat) : (s.setClk f).blob p i j = s.blob p i j := rfl
@[simp] theorem State.setClk_liveVal (f : Clk → Clk) (p : ObjDef) (i j : Nat) : (s.setClk f).liveVal p i j = s.liveVal p i j := rfl
@[simp] theorem State.setClk_mode (f : Clk → Clk) : (s.setClk f).mode = s.mode := rfl
@[simp] theorem State.setClk_byte (f : Clk → Clk) (x : Nat) : (s.setClk f).byte x = s.byte x := rfl
@[simp] theorem State.setClk_inp (f : Clk → Clk) (i : Nat) : (s.setClk f).inp i = s.inp i := rfl
@[simp] theorem State.setClk_eng (f : Clk → Clk) (i : Nat) : (s.setClk f).eng i = s.eng i := rfl

/-! ### `setCont` -/

@[simp] theorem State.setCont_vals (f : Containment → Containment) : (s.setCont f).vals = s.vals := rfl
@[simp] theorem State.setCont_blobs (f : Containment → Containment) : (s.setCont f).blobs = s.blobs := rfl
@[simp] theorem State.setCont_live (f : Containment → Containment) : (s.setCont f).live = s.live := rfl
@[simp] theorem State.setCont_liveBlobs (f : Containment → Containment) : (s.setCont f).liveBlobs = s.liveBlobs := rfl
@[simp] theorem State.setCont_retired (f : Containment → Containment) : (s.setCont f).retired = s.retired := rfl
@[simp] theorem State.setCont_staged (f : Containment → Containment) : (s.setCont f).staged = s.staged := rfl
@[simp] theorem State.setCont_past (f : Containment → Containment) : (s.setCont f).past = s.past := rfl
@[simp] theorem State.setCont_sdp (f : Containment → Containment) : (s.setCont f).sdp = s.sdp := rfl
@[simp] theorem State.setCont_clk (f : Containment → Containment) : (s.setCont f).clk = s.clk := rfl
@[simp] theorem State.setCont_tabs (f : Containment → Containment) : (s.setCont f).tabs = s.tabs := rfl
@[simp] theorem State.setCont_inputs (f : Containment → Containment) : (s.setCont f).inputs = s.inputs := rfl
@[simp] theorem State.setCont_pins (f : Containment → Containment) : (s.setCont f).pins = s.pins := rfl
@[simp] theorem State.setCont_clusters (f : Containment → Containment) : (s.setCont f).clusters = s.clusters := rfl
@[simp] theorem State.setCont_mem (f : Containment → Containment) : (s.setCont f).mem = s.mem := rfl
@[simp] theorem State.setCont_poison (f : Containment → Containment) : (s.setCont f).poison = s.poison := rfl
@[simp] theorem State.setCont_regions (f : Containment → Containment) : (s.setCont f).regions = s.regions := rfl
@[simp] theorem State.setCont_pipe (f : Containment → Containment) : (s.setCont f).pipe = s.pipe := rfl
@[simp] theorem State.setCont_periods (f : Containment → Containment) : (s.setCont f).periods = s.periods := rfl
@[simp] theorem State.setCont_hks (f : Containment → Containment) : (s.setCont f).hks = s.hks := rfl
@[simp] theorem State.setCont_flt (f : Containment → Containment) : (s.setCont f).flt = s.flt := rfl
@[simp] theorem State.setCont_lanes (f : Containment → Containment) : (s.setCont f).lanes = s.lanes := rfl
@[simp] theorem State.setCont_slices (f : Containment → Containment) : (s.setCont f).slices = s.slices := rfl
@[simp] theorem State.setCont_ctxQueue (f : Containment → Containment) : (s.setCont f).ctxQueue = s.ctxQueue := rfl
@[simp] theorem State.setCont_delay (f : Containment → Containment) : (s.setCont f).delay = s.delay := rfl
@[simp] theorem State.setCont_suppTick (f : Containment → Containment) : (s.setCont f).suppTick = s.suppTick := rfl
@[simp] theorem State.setCont_beams (f : Containment → Containment) : (s.setCont f).beams = s.beams := rfl
@[simp] theorem State.setCont_engs (f : Containment → Containment) : (s.setCont f).engs = s.engs := rfl
@[simp] theorem State.setCont_engLoads (f : Containment → Containment) : (s.setCont f).engLoads = s.engLoads := rfl
@[simp] theorem State.setCont_win (f : Containment → Containment) : (s.setCont f).win = s.win := rfl
@[simp] theorem State.setCont_fr (f : Containment → Containment) : (s.setCont f).fr = s.fr := rfl
@[simp] theorem State.setCont_trig (f : Containment → Containment) : (s.setCont f).trig = s.trig := rfl
@[simp] theorem State.setCont_hist (f : Containment → Containment) : (s.setCont f).hist = s.hist := rfl
@[simp] theorem State.setCont_coder (f : Containment → Containment) : (s.setCont f).coder = s.coder := rfl
@[simp] theorem State.setCont_spec (f : Containment → Containment) : (s.setCont f).spec = s.spec := rfl
@[simp] theorem State.setCont_tdc (f : Containment → Containment) : (s.setCont f).tdc = s.tdc := rfl
@[simp] theorem State.setCont_ecc (f : Containment → Containment) : (s.setCont f).ecc = s.ecc := rfl
@[simp] theorem State.setCont_boot (f : Containment → Containment) : (s.setCont f).boot = s.boot := rfl
@[simp] theorem State.setCont_app (f : Containment → Containment) : (s.setCont f).app = s.app := rfl
@[simp] theorem State.setCont_acts (f : Containment → Containment) : (s.setCont f).acts = s.acts := rfl
@[simp] theorem State.setCont_freeCtr (f : Containment → Containment) : (s.setCont f).freeCtr = s.freeCtr := rfl
@[simp] theorem State.setCont_pending (f : Containment → Containment) : (s.setCont f).pending = s.pending := rfl
@[simp] theorem State.setCont_val (f : Containment → Containment) (p : ObjDef) (i j : Nat) : (s.setCont f).val p i j = s.val p i j := rfl
@[simp] theorem State.setCont_nat (f : Containment → Containment) (p : ObjDef) (i j : Nat) : (s.setCont f).nat p i j = s.nat p i j := rfl
@[simp] theorem State.setCont_on (f : Containment → Containment) (p : ObjDef) (i j : Nat) : (s.setCont f).on p i j = s.on p i j := rfl
@[simp] theorem State.setCont_blob (f : Containment → Containment) (p : ObjDef) (i j : Nat) : (s.setCont f).blob p i j = s.blob p i j := rfl
@[simp] theorem State.setCont_liveVal (f : Containment → Containment) (p : ObjDef) (i j : Nat) : (s.setCont f).liveVal p i j = s.liveVal p i j := rfl
@[simp] theorem State.setCont_mode (f : Containment → Containment) : (s.setCont f).mode = s.mode := rfl
@[simp] theorem State.setCont_byte (f : Containment → Containment) (x : Nat) : (s.setCont f).byte x = s.byte x := rfl
@[simp] theorem State.setCont_inp (f : Containment → Containment) (i : Nat) : (s.setCont f).inp i = s.inp i := rfl
@[simp] theorem State.setCont_eng (f : Containment → Containment) (i : Nat) : (s.setCont f).eng i = s.eng i := rfl

/-! ### `setTrig` -/

@[simp] theorem State.setTrig_vals (f : Trig → Trig) : (s.setTrig f).vals = s.vals := rfl
@[simp] theorem State.setTrig_blobs (f : Trig → Trig) : (s.setTrig f).blobs = s.blobs := rfl
@[simp] theorem State.setTrig_live (f : Trig → Trig) : (s.setTrig f).live = s.live := rfl
@[simp] theorem State.setTrig_liveBlobs (f : Trig → Trig) : (s.setTrig f).liveBlobs = s.liveBlobs := rfl
@[simp] theorem State.setTrig_retired (f : Trig → Trig) : (s.setTrig f).retired = s.retired := rfl
@[simp] theorem State.setTrig_staged (f : Trig → Trig) : (s.setTrig f).staged = s.staged := rfl
@[simp] theorem State.setTrig_past (f : Trig → Trig) : (s.setTrig f).past = s.past := rfl
@[simp] theorem State.setTrig_sdp (f : Trig → Trig) : (s.setTrig f).sdp = s.sdp := rfl
@[simp] theorem State.setTrig_clk (f : Trig → Trig) : (s.setTrig f).clk = s.clk := rfl
@[simp] theorem State.setTrig_tabs (f : Trig → Trig) : (s.setTrig f).tabs = s.tabs := rfl
@[simp] theorem State.setTrig_inputs (f : Trig → Trig) : (s.setTrig f).inputs = s.inputs := rfl
@[simp] theorem State.setTrig_pins (f : Trig → Trig) : (s.setTrig f).pins = s.pins := rfl
@[simp] theorem State.setTrig_clusters (f : Trig → Trig) : (s.setTrig f).clusters = s.clusters := rfl
@[simp] theorem State.setTrig_mem (f : Trig → Trig) : (s.setTrig f).mem = s.mem := rfl
@[simp] theorem State.setTrig_poison (f : Trig → Trig) : (s.setTrig f).poison = s.poison := rfl
@[simp] theorem State.setTrig_regions (f : Trig → Trig) : (s.setTrig f).regions = s.regions := rfl
@[simp] theorem State.setTrig_pipe (f : Trig → Trig) : (s.setTrig f).pipe = s.pipe := rfl
@[simp] theorem State.setTrig_periods (f : Trig → Trig) : (s.setTrig f).periods = s.periods := rfl
@[simp] theorem State.setTrig_hks (f : Trig → Trig) : (s.setTrig f).hks = s.hks := rfl
@[simp] theorem State.setTrig_cont (f : Trig → Trig) : (s.setTrig f).cont = s.cont := rfl
@[simp] theorem State.setTrig_flt (f : Trig → Trig) : (s.setTrig f).flt = s.flt := rfl
@[simp] theorem State.setTrig_lanes (f : Trig → Trig) : (s.setTrig f).lanes = s.lanes := rfl
@[simp] theorem State.setTrig_slices (f : Trig → Trig) : (s.setTrig f).slices = s.slices := rfl
@[simp] theorem State.setTrig_ctxQueue (f : Trig → Trig) : (s.setTrig f).ctxQueue = s.ctxQueue := rfl
@[simp] theorem State.setTrig_delay (f : Trig → Trig) : (s.setTrig f).delay = s.delay := rfl
@[simp] theorem State.setTrig_suppTick (f : Trig → Trig) : (s.setTrig f).suppTick = s.suppTick := rfl
@[simp] theorem State.setTrig_beams (f : Trig → Trig) : (s.setTrig f).beams = s.beams := rfl
@[simp] theorem State.setTrig_engs (f : Trig → Trig) : (s.setTrig f).engs = s.engs := rfl
@[simp] theorem State.setTrig_engLoads (f : Trig → Trig) : (s.setTrig f).engLoads = s.engLoads := rfl
@[simp] theorem State.setTrig_win (f : Trig → Trig) : (s.setTrig f).win = s.win := rfl
@[simp] theorem State.setTrig_fr (f : Trig → Trig) : (s.setTrig f).fr = s.fr := rfl
@[simp] theorem State.setTrig_hist (f : Trig → Trig) : (s.setTrig f).hist = s.hist := rfl
@[simp] theorem State.setTrig_coder (f : Trig → Trig) : (s.setTrig f).coder = s.coder := rfl
@[simp] theorem State.setTrig_spec (f : Trig → Trig) : (s.setTrig f).spec = s.spec := rfl
@[simp] theorem State.setTrig_tdc (f : Trig → Trig) : (s.setTrig f).tdc = s.tdc := rfl
@[simp] theorem State.setTrig_ecc (f : Trig → Trig) : (s.setTrig f).ecc = s.ecc := rfl
@[simp] theorem State.setTrig_boot (f : Trig → Trig) : (s.setTrig f).boot = s.boot := rfl
@[simp] theorem State.setTrig_app (f : Trig → Trig) : (s.setTrig f).app = s.app := rfl
@[simp] theorem State.setTrig_acts (f : Trig → Trig) : (s.setTrig f).acts = s.acts := rfl
@[simp] theorem State.setTrig_freeCtr (f : Trig → Trig) : (s.setTrig f).freeCtr = s.freeCtr := rfl
@[simp] theorem State.setTrig_pending (f : Trig → Trig) : (s.setTrig f).pending = s.pending := rfl
@[simp] theorem State.setTrig_val (f : Trig → Trig) (p : ObjDef) (i j : Nat) : (s.setTrig f).val p i j = s.val p i j := rfl
@[simp] theorem State.setTrig_nat (f : Trig → Trig) (p : ObjDef) (i j : Nat) : (s.setTrig f).nat p i j = s.nat p i j := rfl
@[simp] theorem State.setTrig_on (f : Trig → Trig) (p : ObjDef) (i j : Nat) : (s.setTrig f).on p i j = s.on p i j := rfl
@[simp] theorem State.setTrig_blob (f : Trig → Trig) (p : ObjDef) (i j : Nat) : (s.setTrig f).blob p i j = s.blob p i j := rfl
@[simp] theorem State.setTrig_liveVal (f : Trig → Trig) (p : ObjDef) (i j : Nat) : (s.setTrig f).liveVal p i j = s.liveVal p i j := rfl
@[simp] theorem State.setTrig_mode (f : Trig → Trig) : (s.setTrig f).mode = s.mode := rfl
@[simp] theorem State.setTrig_byte (f : Trig → Trig) (x : Nat) : (s.setTrig f).byte x = s.byte x := rfl
@[simp] theorem State.setTrig_inp (f : Trig → Trig) (i : Nat) : (s.setTrig f).inp i = s.inp i := rfl
@[simp] theorem State.setTrig_eng (f : Trig → Trig) (i : Nat) : (s.setTrig f).eng i = s.eng i := rfl

/-! ### `setFr` -/

@[simp] theorem State.setFr_vals (f : Framer → Framer) : (s.setFr f).vals = s.vals := rfl
@[simp] theorem State.setFr_blobs (f : Framer → Framer) : (s.setFr f).blobs = s.blobs := rfl
@[simp] theorem State.setFr_live (f : Framer → Framer) : (s.setFr f).live = s.live := rfl
@[simp] theorem State.setFr_liveBlobs (f : Framer → Framer) : (s.setFr f).liveBlobs = s.liveBlobs := rfl
@[simp] theorem State.setFr_retired (f : Framer → Framer) : (s.setFr f).retired = s.retired := rfl
@[simp] theorem State.setFr_staged (f : Framer → Framer) : (s.setFr f).staged = s.staged := rfl
@[simp] theorem State.setFr_past (f : Framer → Framer) : (s.setFr f).past = s.past := rfl
@[simp] theorem State.setFr_sdp (f : Framer → Framer) : (s.setFr f).sdp = s.sdp := rfl
@[simp] theorem State.setFr_clk (f : Framer → Framer) : (s.setFr f).clk = s.clk := rfl
@[simp] theorem State.setFr_tabs (f : Framer → Framer) : (s.setFr f).tabs = s.tabs := rfl
@[simp] theorem State.setFr_inputs (f : Framer → Framer) : (s.setFr f).inputs = s.inputs := rfl
@[simp] theorem State.setFr_pins (f : Framer → Framer) : (s.setFr f).pins = s.pins := rfl
@[simp] theorem State.setFr_clusters (f : Framer → Framer) : (s.setFr f).clusters = s.clusters := rfl
@[simp] theorem State.setFr_mem (f : Framer → Framer) : (s.setFr f).mem = s.mem := rfl
@[simp] theorem State.setFr_poison (f : Framer → Framer) : (s.setFr f).poison = s.poison := rfl
@[simp] theorem State.setFr_regions (f : Framer → Framer) : (s.setFr f).regions = s.regions := rfl
@[simp] theorem State.setFr_pipe (f : Framer → Framer) : (s.setFr f).pipe = s.pipe := rfl
@[simp] theorem State.setFr_periods (f : Framer → Framer) : (s.setFr f).periods = s.periods := rfl
@[simp] theorem State.setFr_hks (f : Framer → Framer) : (s.setFr f).hks = s.hks := rfl
@[simp] theorem State.setFr_cont (f : Framer → Framer) : (s.setFr f).cont = s.cont := rfl
@[simp] theorem State.setFr_flt (f : Framer → Framer) : (s.setFr f).flt = s.flt := rfl
@[simp] theorem State.setFr_lanes (f : Framer → Framer) : (s.setFr f).lanes = s.lanes := rfl
@[simp] theorem State.setFr_slices (f : Framer → Framer) : (s.setFr f).slices = s.slices := rfl
@[simp] theorem State.setFr_ctxQueue (f : Framer → Framer) : (s.setFr f).ctxQueue = s.ctxQueue := rfl
@[simp] theorem State.setFr_delay (f : Framer → Framer) : (s.setFr f).delay = s.delay := rfl
@[simp] theorem State.setFr_suppTick (f : Framer → Framer) : (s.setFr f).suppTick = s.suppTick := rfl
@[simp] theorem State.setFr_beams (f : Framer → Framer) : (s.setFr f).beams = s.beams := rfl
@[simp] theorem State.setFr_engs (f : Framer → Framer) : (s.setFr f).engs = s.engs := rfl
@[simp] theorem State.setFr_engLoads (f : Framer → Framer) : (s.setFr f).engLoads = s.engLoads := rfl
@[simp] theorem State.setFr_win (f : Framer → Framer) : (s.setFr f).win = s.win := rfl
@[simp] theorem State.setFr_trig (f : Framer → Framer) : (s.setFr f).trig = s.trig := rfl
@[simp] theorem State.setFr_hist (f : Framer → Framer) : (s.setFr f).hist = s.hist := rfl
@[simp] theorem State.setFr_coder (f : Framer → Framer) : (s.setFr f).coder = s.coder := rfl
@[simp] theorem State.setFr_spec (f : Framer → Framer) : (s.setFr f).spec = s.spec := rfl
@[simp] theorem State.setFr_tdc (f : Framer → Framer) : (s.setFr f).tdc = s.tdc := rfl
@[simp] theorem State.setFr_ecc (f : Framer → Framer) : (s.setFr f).ecc = s.ecc := rfl
@[simp] theorem State.setFr_boot (f : Framer → Framer) : (s.setFr f).boot = s.boot := rfl
@[simp] theorem State.setFr_app (f : Framer → Framer) : (s.setFr f).app = s.app := rfl
@[simp] theorem State.setFr_acts (f : Framer → Framer) : (s.setFr f).acts = s.acts := rfl
@[simp] theorem State.setFr_freeCtr (f : Framer → Framer) : (s.setFr f).freeCtr = s.freeCtr := rfl
@[simp] theorem State.setFr_pending (f : Framer → Framer) : (s.setFr f).pending = s.pending := rfl
@[simp] theorem State.setFr_val (f : Framer → Framer) (p : ObjDef) (i j : Nat) : (s.setFr f).val p i j = s.val p i j := rfl
@[simp] theorem State.setFr_nat (f : Framer → Framer) (p : ObjDef) (i j : Nat) : (s.setFr f).nat p i j = s.nat p i j := rfl
@[simp] theorem State.setFr_on (f : Framer → Framer) (p : ObjDef) (i j : Nat) : (s.setFr f).on p i j = s.on p i j := rfl
@[simp] theorem State.setFr_blob (f : Framer → Framer) (p : ObjDef) (i j : Nat) : (s.setFr f).blob p i j = s.blob p i j := rfl
@[simp] theorem State.setFr_liveVal (f : Framer → Framer) (p : ObjDef) (i j : Nat) : (s.setFr f).liveVal p i j = s.liveVal p i j := rfl
@[simp] theorem State.setFr_mode (f : Framer → Framer) : (s.setFr f).mode = s.mode := rfl
@[simp] theorem State.setFr_byte (f : Framer → Framer) (x : Nat) : (s.setFr f).byte x = s.byte x := rfl
@[simp] theorem State.setFr_inp (f : Framer → Framer) (i : Nat) : (s.setFr f).inp i = s.inp i := rfl
@[simp] theorem State.setFr_eng (f : Framer → Framer) (i : Nat) : (s.setFr f).eng i = s.eng i := rfl

/-! ### `setHist` -/

@[simp] theorem State.setHist_vals (f : Hist → Hist) : (s.setHist f).vals = s.vals := rfl
@[simp] theorem State.setHist_blobs (f : Hist → Hist) : (s.setHist f).blobs = s.blobs := rfl
@[simp] theorem State.setHist_live (f : Hist → Hist) : (s.setHist f).live = s.live := rfl
@[simp] theorem State.setHist_liveBlobs (f : Hist → Hist) : (s.setHist f).liveBlobs = s.liveBlobs := rfl
@[simp] theorem State.setHist_retired (f : Hist → Hist) : (s.setHist f).retired = s.retired := rfl
@[simp] theorem State.setHist_staged (f : Hist → Hist) : (s.setHist f).staged = s.staged := rfl
@[simp] theorem State.setHist_past (f : Hist → Hist) : (s.setHist f).past = s.past := rfl
@[simp] theorem State.setHist_sdp (f : Hist → Hist) : (s.setHist f).sdp = s.sdp := rfl
@[simp] theorem State.setHist_clk (f : Hist → Hist) : (s.setHist f).clk = s.clk := rfl
@[simp] theorem State.setHist_tabs (f : Hist → Hist) : (s.setHist f).tabs = s.tabs := rfl
@[simp] theorem State.setHist_inputs (f : Hist → Hist) : (s.setHist f).inputs = s.inputs := rfl
@[simp] theorem State.setHist_pins (f : Hist → Hist) : (s.setHist f).pins = s.pins := rfl
@[simp] theorem State.setHist_clusters (f : Hist → Hist) : (s.setHist f).clusters = s.clusters := rfl
@[simp] theorem State.setHist_mem (f : Hist → Hist) : (s.setHist f).mem = s.mem := rfl
@[simp] theorem State.setHist_poison (f : Hist → Hist) : (s.setHist f).poison = s.poison := rfl
@[simp] theorem State.setHist_regions (f : Hist → Hist) : (s.setHist f).regions = s.regions := rfl
@[simp] theorem State.setHist_pipe (f : Hist → Hist) : (s.setHist f).pipe = s.pipe := rfl
@[simp] theorem State.setHist_periods (f : Hist → Hist) : (s.setHist f).periods = s.periods := rfl
@[simp] theorem State.setHist_hks (f : Hist → Hist) : (s.setHist f).hks = s.hks := rfl
@[simp] theorem State.setHist_cont (f : Hist → Hist) : (s.setHist f).cont = s.cont := rfl
@[simp] theorem State.setHist_flt (f : Hist → Hist) : (s.setHist f).flt = s.flt := rfl
@[simp] theorem State.setHist_lanes (f : Hist → Hist) : (s.setHist f).lanes = s.lanes := rfl
@[simp] theorem State.setHist_slices (f : Hist → Hist) : (s.setHist f).slices = s.slices := rfl
@[simp] theorem State.setHist_ctxQueue (f : Hist → Hist) : (s.setHist f).ctxQueue = s.ctxQueue := rfl
@[simp] theorem State.setHist_delay (f : Hist → Hist) : (s.setHist f).delay = s.delay := rfl
@[simp] theorem State.setHist_suppTick (f : Hist → Hist) : (s.setHist f).suppTick = s.suppTick := rfl
@[simp] theorem State.setHist_beams (f : Hist → Hist) : (s.setHist f).beams = s.beams := rfl
@[simp] theorem State.setHist_engs (f : Hist → Hist) : (s.setHist f).engs = s.engs := rfl
@[simp] theorem State.setHist_engLoads (f : Hist → Hist) : (s.setHist f).engLoads = s.engLoads := rfl
@[simp] theorem State.setHist_win (f : Hist → Hist) : (s.setHist f).win = s.win := rfl
@[simp] theorem State.setHist_fr (f : Hist → Hist) : (s.setHist f).fr = s.fr := rfl
@[simp] theorem State.setHist_trig (f : Hist → Hist) : (s.setHist f).trig = s.trig := rfl
@[simp] theorem State.setHist_coder (f : Hist → Hist) : (s.setHist f).coder = s.coder := rfl
@[simp] theorem State.setHist_spec (f : Hist → Hist) : (s.setHist f).spec = s.spec := rfl
@[simp] theorem State.setHist_tdc (f : Hist → Hist) : (s.setHist f).tdc = s.tdc := rfl
@[simp] theorem State.setHist_ecc (f : Hist → Hist) : (s.setHist f).ecc = s.ecc := rfl
@[simp] theorem State.setHist_boot (f : Hist → Hist) : (s.setHist f).boot = s.boot := rfl
@[simp] theorem State.setHist_app (f : Hist → Hist) : (s.setHist f).app = s.app := rfl
@[simp] theorem State.setHist_acts (f : Hist → Hist) : (s.setHist f).acts = s.acts := rfl
@[simp] theorem State.setHist_freeCtr (f : Hist → Hist) : (s.setHist f).freeCtr = s.freeCtr := rfl
@[simp] theorem State.setHist_pending (f : Hist → Hist) : (s.setHist f).pending = s.pending := rfl
@[simp] theorem State.setHist_val (f : Hist → Hist) (p : ObjDef) (i j : Nat) : (s.setHist f).val p i j = s.val p i j := rfl
@[simp] theorem State.setHist_nat (f : Hist → Hist) (p : ObjDef) (i j : Nat) : (s.setHist f).nat p i j = s.nat p i j := rfl
@[simp] theorem State.setHist_on (f : Hist → Hist) (p : ObjDef) (i j : Nat) : (s.setHist f).on p i j = s.on p i j := rfl
@[simp] theorem State.setHist_blob (f : Hist → Hist) (p : ObjDef) (i j : Nat) : (s.setHist f).blob p i j = s.blob p i j := rfl
@[simp] theorem State.setHist_liveVal (f : Hist → Hist) (p : ObjDef) (i j : Nat) : (s.setHist f).liveVal p i j = s.liveVal p i j := rfl
@[simp] theorem State.setHist_mode (f : Hist → Hist) : (s.setHist f).mode = s.mode := rfl
@[simp] theorem State.setHist_byte (f : Hist → Hist) (x : Nat) : (s.setHist f).byte x = s.byte x := rfl
@[simp] theorem State.setHist_inp (f : Hist → Hist) (i : Nat) : (s.setHist f).inp i = s.inp i := rfl
@[simp] theorem State.setHist_eng (f : Hist → Hist) (i : Nat) : (s.setHist f).eng i = s.eng i := rfl

/-! ### `setCoder` -/

@[simp] theorem State.setCoder_vals (f : Coder → Coder) : (s.setCoder f).vals = s.vals := rfl
@[simp] theorem State.setCoder_blobs (f : Coder → Coder) : (s.setCoder f).blobs = s.blobs := rfl
@[simp] theorem State.setCoder_live (f : Coder → Coder) : (s.setCoder f).live = s.live := rfl
@[simp] theorem State.setCoder_liveBlobs (f : Coder → Coder) : (s.setCoder f).liveBlobs = s.liveBlobs := rfl
@[simp] theorem State.setCoder_retired (f : Coder → Coder) : (s.setCoder f).retired = s.retired := rfl
@[simp] theorem State.setCoder_staged (f : Coder → Coder) : (s.setCoder f).staged = s.staged := rfl
@[simp] theorem State.setCoder_past (f : Coder → Coder) : (s.setCoder f).past = s.past := rfl
@[simp] theorem State.setCoder_sdp (f : Coder → Coder) : (s.setCoder f).sdp = s.sdp := rfl
@[simp] theorem State.setCoder_clk (f : Coder → Coder) : (s.setCoder f).clk = s.clk := rfl
@[simp] theorem State.setCoder_tabs (f : Coder → Coder) : (s.setCoder f).tabs = s.tabs := rfl
@[simp] theorem State.setCoder_inputs (f : Coder → Coder) : (s.setCoder f).inputs = s.inputs := rfl
@[simp] theorem State.setCoder_pins (f : Coder → Coder) : (s.setCoder f).pins = s.pins := rfl
@[simp] theorem State.setCoder_clusters (f : Coder → Coder) : (s.setCoder f).clusters = s.clusters := rfl
@[simp] theorem State.setCoder_mem (f : Coder → Coder) : (s.setCoder f).mem = s.mem := rfl
@[simp] theorem State.setCoder_poison (f : Coder → Coder) : (s.setCoder f).poison = s.poison := rfl
@[simp] theorem State.setCoder_regions (f : Coder → Coder) : (s.setCoder f).regions = s.regions := rfl
@[simp] theorem State.setCoder_pipe (f : Coder → Coder) : (s.setCoder f).pipe = s.pipe := rfl
@[simp] theorem State.setCoder_periods (f : Coder → Coder) : (s.setCoder f).periods = s.periods := rfl
@[simp] theorem State.setCoder_hks (f : Coder → Coder) : (s.setCoder f).hks = s.hks := rfl
@[simp] theorem State.setCoder_cont (f : Coder → Coder) : (s.setCoder f).cont = s.cont := rfl
@[simp] theorem State.setCoder_flt (f : Coder → Coder) : (s.setCoder f).flt = s.flt := rfl
@[simp] theorem State.setCoder_lanes (f : Coder → Coder) : (s.setCoder f).lanes = s.lanes := rfl
@[simp] theorem State.setCoder_slices (f : Coder → Coder) : (s.setCoder f).slices = s.slices := rfl
@[simp] theorem State.setCoder_ctxQueue (f : Coder → Coder) : (s.setCoder f).ctxQueue = s.ctxQueue := rfl
@[simp] theorem State.setCoder_delay (f : Coder → Coder) : (s.setCoder f).delay = s.delay := rfl
@[simp] theorem State.setCoder_suppTick (f : Coder → Coder) : (s.setCoder f).suppTick = s.suppTick := rfl
@[simp] theorem State.setCoder_beams (f : Coder → Coder) : (s.setCoder f).beams = s.beams := rfl
@[simp] theorem State.setCoder_engs (f : Coder → Coder) : (s.setCoder f).engs = s.engs := rfl
@[simp] theorem State.setCoder_engLoads (f : Coder → Coder) : (s.setCoder f).engLoads = s.engLoads := rfl
@[simp] theorem State.setCoder_win (f : Coder → Coder) : (s.setCoder f).win = s.win := rfl
@[simp] theorem State.setCoder_fr (f : Coder → Coder) : (s.setCoder f).fr = s.fr := rfl
@[simp] theorem State.setCoder_trig (f : Coder → Coder) : (s.setCoder f).trig = s.trig := rfl
@[simp] theorem State.setCoder_hist (f : Coder → Coder) : (s.setCoder f).hist = s.hist := rfl
@[simp] theorem State.setCoder_spec (f : Coder → Coder) : (s.setCoder f).spec = s.spec := rfl
@[simp] theorem State.setCoder_tdc (f : Coder → Coder) : (s.setCoder f).tdc = s.tdc := rfl
@[simp] theorem State.setCoder_ecc (f : Coder → Coder) : (s.setCoder f).ecc = s.ecc := rfl
@[simp] theorem State.setCoder_boot (f : Coder → Coder) : (s.setCoder f).boot = s.boot := rfl
@[simp] theorem State.setCoder_app (f : Coder → Coder) : (s.setCoder f).app = s.app := rfl
@[simp] theorem State.setCoder_acts (f : Coder → Coder) : (s.setCoder f).acts = s.acts := rfl
@[simp] theorem State.setCoder_freeCtr (f : Coder → Coder) : (s.setCoder f).freeCtr = s.freeCtr := rfl
@[simp] theorem State.setCoder_pending (f : Coder → Coder) : (s.setCoder f).pending = s.pending := rfl
@[simp] theorem State.setCoder_val (f : Coder → Coder) (p : ObjDef) (i j : Nat) : (s.setCoder f).val p i j = s.val p i j := rfl
@[simp] theorem State.setCoder_nat (f : Coder → Coder) (p : ObjDef) (i j : Nat) : (s.setCoder f).nat p i j = s.nat p i j := rfl
@[simp] theorem State.setCoder_on (f : Coder → Coder) (p : ObjDef) (i j : Nat) : (s.setCoder f).on p i j = s.on p i j := rfl
@[simp] theorem State.setCoder_blob (f : Coder → Coder) (p : ObjDef) (i j : Nat) : (s.setCoder f).blob p i j = s.blob p i j := rfl
@[simp] theorem State.setCoder_liveVal (f : Coder → Coder) (p : ObjDef) (i j : Nat) : (s.setCoder f).liveVal p i j = s.liveVal p i j := rfl
@[simp] theorem State.setCoder_mode (f : Coder → Coder) : (s.setCoder f).mode = s.mode := rfl
@[simp] theorem State.setCoder_byte (f : Coder → Coder) (x : Nat) : (s.setCoder f).byte x = s.byte x := rfl
@[simp] theorem State.setCoder_inp (f : Coder → Coder) (i : Nat) : (s.setCoder f).inp i = s.inp i := rfl
@[simp] theorem State.setCoder_eng (f : Coder → Coder) (i : Nat) : (s.setCoder f).eng i = s.eng i := rfl

/-! ### `setTdc` -/

@[simp] theorem State.setTdc_vals (n : Nat) (f : TdcSt → TdcSt) : (s.setTdc n f).vals = s.vals := rfl
@[simp] theorem State.setTdc_blobs (n : Nat) (f : TdcSt → TdcSt) : (s.setTdc n f).blobs = s.blobs := rfl
@[simp] theorem State.setTdc_live (n : Nat) (f : TdcSt → TdcSt) : (s.setTdc n f).live = s.live := rfl
@[simp] theorem State.setTdc_liveBlobs (n : Nat) (f : TdcSt → TdcSt) : (s.setTdc n f).liveBlobs = s.liveBlobs := rfl
@[simp] theorem State.setTdc_retired (n : Nat) (f : TdcSt → TdcSt) : (s.setTdc n f).retired = s.retired := rfl
@[simp] theorem State.setTdc_staged (n : Nat) (f : TdcSt → TdcSt) : (s.setTdc n f).staged = s.staged := rfl
@[simp] theorem State.setTdc_past (n : Nat) (f : TdcSt → TdcSt) : (s.setTdc n f).past = s.past := rfl
@[simp] theorem State.setTdc_sdp (n : Nat) (f : TdcSt → TdcSt) : (s.setTdc n f).sdp = s.sdp := rfl
@[simp] theorem State.setTdc_clk (n : Nat) (f : TdcSt → TdcSt) : (s.setTdc n f).clk = s.clk := rfl
@[simp] theorem State.setTdc_tabs (n : Nat) (f : TdcSt → TdcSt) : (s.setTdc n f).tabs = s.tabs := rfl
@[simp] theorem State.setTdc_inputs (n : Nat) (f : TdcSt → TdcSt) : (s.setTdc n f).inputs = s.inputs := rfl
@[simp] theorem State.setTdc_pins (n : Nat) (f : TdcSt → TdcSt) : (s.setTdc n f).pins = s.pins := rfl
@[simp] theorem State.setTdc_clusters (n : Nat) (f : TdcSt → TdcSt) : (s.setTdc n f).clusters = s.clusters := rfl
@[simp] theorem State.setTdc_mem (n : Nat) (f : TdcSt → TdcSt) : (s.setTdc n f).mem = s.mem := rfl
@[simp] theorem State.setTdc_poison (n : Nat) (f : TdcSt → TdcSt) : (s.setTdc n f).poison = s.poison := rfl
@[simp] theorem State.setTdc_regions (n : Nat) (f : TdcSt → TdcSt) : (s.setTdc n f).regions = s.regions := rfl
@[simp] theorem State.setTdc_pipe (n : Nat) (f : TdcSt → TdcSt) : (s.setTdc n f).pipe = s.pipe := rfl
@[simp] theorem State.setTdc_periods (n : Nat) (f : TdcSt → TdcSt) : (s.setTdc n f).periods = s.periods := rfl
@[simp] theorem State.setTdc_hks (n : Nat) (f : TdcSt → TdcSt) : (s.setTdc n f).hks = s.hks := rfl
@[simp] theorem State.setTdc_cont (n : Nat) (f : TdcSt → TdcSt) : (s.setTdc n f).cont = s.cont := rfl
@[simp] theorem State.setTdc_flt (n : Nat) (f : TdcSt → TdcSt) : (s.setTdc n f).flt = s.flt := rfl
@[simp] theorem State.setTdc_lanes (n : Nat) (f : TdcSt → TdcSt) : (s.setTdc n f).lanes = s.lanes := rfl
@[simp] theorem State.setTdc_slices (n : Nat) (f : TdcSt → TdcSt) : (s.setTdc n f).slices = s.slices := rfl
@[simp] theorem State.setTdc_ctxQueue (n : Nat) (f : TdcSt → TdcSt) : (s.setTdc n f).ctxQueue = s.ctxQueue := rfl
@[simp] theorem State.setTdc_delay (n : Nat) (f : TdcSt → TdcSt) : (s.setTdc n f).delay = s.delay := rfl
@[simp] theorem State.setTdc_suppTick (n : Nat) (f : TdcSt → TdcSt) : (s.setTdc n f).suppTick = s.suppTick := rfl
@[simp] theorem State.setTdc_beams (n : Nat) (f : TdcSt → TdcSt) : (s.setTdc n f).beams = s.beams := rfl
@[simp] theorem State.setTdc_engs (n : Nat) (f : TdcSt → TdcSt) : (s.setTdc n f).engs = s.engs := rfl
@[simp] theorem State.setTdc_engLoads (n : Nat) (f : TdcSt → TdcSt) : (s.setTdc n f).engLoads = s.engLoads := rfl
@[simp] theorem State.setTdc_win (n : Nat) (f : TdcSt → TdcSt) : (s.setTdc n f).win = s.win := rfl
@[simp] theorem State.setTdc_fr (n : Nat) (f : TdcSt → TdcSt) : (s.setTdc n f).fr = s.fr := rfl
@[simp] theorem State.setTdc_trig (n : Nat) (f : TdcSt → TdcSt) : (s.setTdc n f).trig = s.trig := rfl
@[simp] theorem State.setTdc_hist (n : Nat) (f : TdcSt → TdcSt) : (s.setTdc n f).hist = s.hist := rfl
@[simp] theorem State.setTdc_coder (n : Nat) (f : TdcSt → TdcSt) : (s.setTdc n f).coder = s.coder := rfl
@[simp] theorem State.setTdc_spec (n : Nat) (f : TdcSt → TdcSt) : (s.setTdc n f).spec = s.spec := rfl
@[simp] theorem State.setTdc_ecc (n : Nat) (f : TdcSt → TdcSt) : (s.setTdc n f).ecc = s.ecc := rfl
@[simp] theorem State.setTdc_boot (n : Nat) (f : TdcSt → TdcSt) : (s.setTdc n f).boot = s.boot := rfl
@[simp] theorem State.setTdc_app (n : Nat) (f : TdcSt → TdcSt) : (s.setTdc n f).app = s.app := rfl
@[simp] theorem State.setTdc_acts (n : Nat) (f : TdcSt → TdcSt) : (s.setTdc n f).acts = s.acts := rfl
@[simp] theorem State.setTdc_freeCtr (n : Nat) (f : TdcSt → TdcSt) : (s.setTdc n f).freeCtr = s.freeCtr := rfl
@[simp] theorem State.setTdc_pending (n : Nat) (f : TdcSt → TdcSt) : (s.setTdc n f).pending = s.pending := rfl
@[simp] theorem State.setTdc_val (n : Nat) (f : TdcSt → TdcSt) (p : ObjDef) (i j : Nat) : (s.setTdc n f).val p i j = s.val p i j := rfl
@[simp] theorem State.setTdc_nat (n : Nat) (f : TdcSt → TdcSt) (p : ObjDef) (i j : Nat) : (s.setTdc n f).nat p i j = s.nat p i j := rfl
@[simp] theorem State.setTdc_on (n : Nat) (f : TdcSt → TdcSt) (p : ObjDef) (i j : Nat) : (s.setTdc n f).on p i j = s.on p i j := rfl
@[simp] theorem State.setTdc_blob (n : Nat) (f : TdcSt → TdcSt) (p : ObjDef) (i j : Nat) : (s.setTdc n f).blob p i j = s.blob p i j := rfl
@[simp] theorem State.setTdc_liveVal (n : Nat) (f : TdcSt → TdcSt) (p : ObjDef) (i j : Nat) : (s.setTdc n f).liveVal p i j = s.liveVal p i j := rfl
@[simp] theorem State.setTdc_mode (n : Nat) (f : TdcSt → TdcSt) : (s.setTdc n f).mode = s.mode := rfl
@[simp] theorem State.setTdc_byte (n : Nat) (f : TdcSt → TdcSt) (x : Nat) : (s.setTdc n f).byte x = s.byte x := rfl
@[simp] theorem State.setTdc_inp (n : Nat) (f : TdcSt → TdcSt) (i : Nat) : (s.setTdc n f).inp i = s.inp i := rfl
@[simp] theorem State.setTdc_eng (n : Nat) (f : TdcSt → TdcSt) (i : Nat) : (s.setTdc n f).eng i = s.eng i := rfl

/-! ### `setEcc` -/

@[simp] theorem State.setEcc_vals (f : Integrity → Integrity) : (s.setEcc f).vals = s.vals := rfl
@[simp] theorem State.setEcc_blobs (f : Integrity → Integrity) : (s.setEcc f).blobs = s.blobs := rfl
@[simp] theorem State.setEcc_live (f : Integrity → Integrity) : (s.setEcc f).live = s.live := rfl
@[simp] theorem State.setEcc_liveBlobs (f : Integrity → Integrity) : (s.setEcc f).liveBlobs = s.liveBlobs := rfl
@[simp] theorem State.setEcc_retired (f : Integrity → Integrity) : (s.setEcc f).retired = s.retired := rfl
@[simp] theorem State.setEcc_staged (f : Integrity → Integrity) : (s.setEcc f).staged = s.staged := rfl
@[simp] theorem State.setEcc_past (f : Integrity → Integrity) : (s.setEcc f).past = s.past := rfl
@[simp] theorem State.setEcc_sdp (f : Integrity → Integrity) : (s.setEcc f).sdp = s.sdp := rfl
@[simp] theorem State.setEcc_clk (f : Integrity → Integrity) : (s.setEcc f).clk = s.clk := rfl
@[simp] theorem State.setEcc_tabs (f : Integrity → Integrity) : (s.setEcc f).tabs = s.tabs := rfl
@[simp] theorem State.setEcc_inputs (f : Integrity → Integrity) : (s.setEcc f).inputs = s.inputs := rfl
@[simp] theorem State.setEcc_pins (f : Integrity → Integrity) : (s.setEcc f).pins = s.pins := rfl
@[simp] theorem State.setEcc_clusters (f : Integrity → Integrity) : (s.setEcc f).clusters = s.clusters := rfl
@[simp] theorem State.setEcc_mem (f : Integrity → Integrity) : (s.setEcc f).mem = s.mem := rfl
@[simp] theorem State.setEcc_poison (f : Integrity → Integrity) : (s.setEcc f).poison = s.poison := rfl
@[simp] theorem State.setEcc_regions (f : Integrity → Integrity) : (s.setEcc f).regions = s.regions := rfl
@[simp] theorem State.setEcc_pipe (f : Integrity → Integrity) : (s.setEcc f).pipe = s.pipe := rfl
@[simp] theorem State.setEcc_periods (f : Integrity → Integrity) : (s.setEcc f).periods = s.periods := rfl
@[simp] theorem State.setEcc_hks (f : Integrity → Integrity) : (s.setEcc f).hks = s.hks := rfl
@[simp] theorem State.setEcc_cont (f : Integrity → Integrity) : (s.setEcc f).cont = s.cont := rfl
@[simp] theorem State.setEcc_flt (f : Integrity → Integrity) : (s.setEcc f).flt = s.flt := rfl
@[simp] theorem State.setEcc_lanes (f : Integrity → Integrity) : (s.setEcc f).lanes = s.lanes := rfl
@[simp] theorem State.setEcc_slices (f : Integrity → Integrity) : (s.setEcc f).slices = s.slices := rfl
@[simp] theorem State.setEcc_ctxQueue (f : Integrity → Integrity) : (s.setEcc f).ctxQueue = s.ctxQueue := rfl
@[simp] theorem State.setEcc_delay (f : Integrity → Integrity) : (s.setEcc f).delay = s.delay := rfl
@[simp] theorem State.setEcc_suppTick (f : Integrity → Integrity) : (s.setEcc f).suppTick = s.suppTick := rfl
@[simp] theorem State.setEcc_beams (f : Integrity → Integrity) : (s.setEcc f).beams = s.beams := rfl
@[simp] theorem State.setEcc_engs (f : Integrity → Integrity) : (s.setEcc f).engs = s.engs := rfl
@[simp] theorem State.setEcc_engLoads (f : Integrity → Integrity) : (s.setEcc f).engLoads = s.engLoads := rfl
@[simp] theorem State.setEcc_win (f : Integrity → Integrity) : (s.setEcc f).win = s.win := rfl
@[simp] theorem State.setEcc_fr (f : Integrity → Integrity) : (s.setEcc f).fr = s.fr := rfl
@[simp] theorem State.setEcc_trig (f : Integrity → Integrity) : (s.setEcc f).trig = s.trig := rfl
@[simp] theorem State.setEcc_hist (f : Integrity → Integrity) : (s.setEcc f).hist = s.hist := rfl
@[simp] theorem State.setEcc_coder (f : Integrity → Integrity) : (s.setEcc f).coder = s.coder := rfl
@[simp] theorem State.setEcc_spec (f : Integrity → Integrity) : (s.setEcc f).spec = s.spec := rfl
@[simp] theorem State.setEcc_tdc (f : Integrity → Integrity) : (s.setEcc f).tdc = s.tdc := rfl
@[simp] theorem State.setEcc_boot (f : Integrity → Integrity) : (s.setEcc f).boot = s.boot := rfl
@[simp] theorem State.setEcc_app (f : Integrity → Integrity) : (s.setEcc f).app = s.app := rfl
@[simp] theorem State.setEcc_acts (f : Integrity → Integrity) : (s.setEcc f).acts = s.acts := rfl
@[simp] theorem State.setEcc_freeCtr (f : Integrity → Integrity) : (s.setEcc f).freeCtr = s.freeCtr := rfl
@[simp] theorem State.setEcc_pending (f : Integrity → Integrity) : (s.setEcc f).pending = s.pending := rfl
@[simp] theorem State.setEcc_val (f : Integrity → Integrity) (p : ObjDef) (i j : Nat) : (s.setEcc f).val p i j = s.val p i j := rfl
@[simp] theorem State.setEcc_nat (f : Integrity → Integrity) (p : ObjDef) (i j : Nat) : (s.setEcc f).nat p i j = s.nat p i j := rfl
@[simp] theorem State.setEcc_on (f : Integrity → Integrity) (p : ObjDef) (i j : Nat) : (s.setEcc f).on p i j = s.on p i j := rfl
@[simp] theorem State.setEcc_blob (f : Integrity → Integrity) (p : ObjDef) (i j : Nat) : (s.setEcc f).blob p i j = s.blob p i j := rfl
@[simp] theorem State.setEcc_liveVal (f : Integrity → Integrity) (p : ObjDef) (i j : Nat) : (s.setEcc f).liveVal p i j = s.liveVal p i j := rfl
@[simp] theorem State.setEcc_mode (f : Integrity → Integrity) : (s.setEcc f).mode = s.mode := rfl
@[simp] theorem State.setEcc_byte (f : Integrity → Integrity) (x : Nat) : (s.setEcc f).byte x = s.byte x := rfl
@[simp] theorem State.setEcc_inp (f : Integrity → Integrity) (i : Nat) : (s.setEcc f).inp i = s.inp i := rfl
@[simp] theorem State.setEcc_eng (f : Integrity → Integrity) (i : Nat) : (s.setEcc f).eng i = s.eng i := rfl

/-! ### `setBoot` -/

@[simp] theorem State.setBoot_vals (f : Boot → Boot) : (s.setBoot f).vals = s.vals := rfl
@[simp] theorem State.setBoot_blobs (f : Boot → Boot) : (s.setBoot f).blobs = s.blobs := rfl
@[simp] theorem State.setBoot_live (f : Boot → Boot) : (s.setBoot f).live = s.live := rfl
@[simp] theorem State.setBoot_liveBlobs (f : Boot → Boot) : (s.setBoot f).liveBlobs = s.liveBlobs := rfl
@[simp] theorem State.setBoot_retired (f : Boot → Boot) : (s.setBoot f).retired = s.retired := rfl
@[simp] theorem State.setBoot_staged (f : Boot → Boot) : (s.setBoot f).staged = s.staged := rfl
@[simp] theorem State.setBoot_past (f : Boot → Boot) : (s.setBoot f).past = s.past := rfl
@[simp] theorem State.setBoot_sdp (f : Boot → Boot) : (s.setBoot f).sdp = s.sdp := rfl
@[simp] theorem State.setBoot_clk (f : Boot → Boot) : (s.setBoot f).clk = s.clk := rfl
@[simp] theorem State.setBoot_tabs (f : Boot → Boot) : (s.setBoot f).tabs = s.tabs := rfl
@[simp] theorem State.setBoot_inputs (f : Boot → Boot) : (s.setBoot f).inputs = s.inputs := rfl
@[simp] theorem State.setBoot_pins (f : Boot → Boot) : (s.setBoot f).pins = s.pins := rfl
@[simp] theorem State.setBoot_clusters (f : Boot → Boot) : (s.setBoot f).clusters = s.clusters := rfl
@[simp] theorem State.setBoot_mem (f : Boot → Boot) : (s.setBoot f).mem = s.mem := rfl
@[simp] theorem State.setBoot_poison (f : Boot → Boot) : (s.setBoot f).poison = s.poison := rfl
@[simp] theorem State.setBoot_regions (f : Boot → Boot) : (s.setBoot f).regions = s.regions := rfl
@[simp] theorem State.setBoot_pipe (f : Boot → Boot) : (s.setBoot f).pipe = s.pipe := rfl
@[simp] theorem State.setBoot_periods (f : Boot → Boot) : (s.setBoot f).periods = s.periods := rfl
@[simp] theorem State.setBoot_hks (f : Boot → Boot) : (s.setBoot f).hks = s.hks := rfl
@[simp] theorem State.setBoot_cont (f : Boot → Boot) : (s.setBoot f).cont = s.cont := rfl
@[simp] theorem State.setBoot_flt (f : Boot → Boot) : (s.setBoot f).flt = s.flt := rfl
@[simp] theorem State.setBoot_lanes (f : Boot → Boot) : (s.setBoot f).lanes = s.lanes := rfl
@[simp] theorem State.setBoot_slices (f : Boot → Boot) : (s.setBoot f).slices = s.slices := rfl
@[simp] theorem State.setBoot_ctxQueue (f : Boot → Boot) : (s.setBoot f).ctxQueue = s.ctxQueue := rfl
@[simp] theorem State.setBoot_delay (f : Boot → Boot) : (s.setBoot f).delay = s.delay := rfl
@[simp] theorem State.setBoot_suppTick (f : Boot → Boot) : (s.setBoot f).suppTick = s.suppTick := rfl
@[simp] theorem State.setBoot_beams (f : Boot → Boot) : (s.setBoot f).beams = s.beams := rfl
@[simp] theorem State.setBoot_engs (f : Boot → Boot) : (s.setBoot f).engs = s.engs := rfl
@[simp] theorem State.setBoot_engLoads (f : Boot → Boot) : (s.setBoot f).engLoads = s.engLoads := rfl
@[simp] theorem State.setBoot_win (f : Boot → Boot) : (s.setBoot f).win = s.win := rfl
@[simp] theorem State.setBoot_fr (f : Boot → Boot) : (s.setBoot f).fr = s.fr := rfl
@[simp] theorem State.setBoot_trig (f : Boot → Boot) : (s.setBoot f).trig = s.trig := rfl
@[simp] theorem State.setBoot_hist (f : Boot → Boot) : (s.setBoot f).hist = s.hist := rfl
@[simp] theorem State.setBoot_coder (f : Boot → Boot) : (s.setBoot f).coder = s.coder := rfl
@[simp] theorem State.setBoot_spec (f : Boot → Boot) : (s.setBoot f).spec = s.spec := rfl
@[simp] theorem State.setBoot_tdc (f : Boot → Boot) : (s.setBoot f).tdc = s.tdc := rfl
@[simp] theorem State.setBoot_ecc (f : Boot → Boot) : (s.setBoot f).ecc = s.ecc := rfl
@[simp] theorem State.setBoot_app (f : Boot → Boot) : (s.setBoot f).app = s.app := rfl
@[simp] theorem State.setBoot_acts (f : Boot → Boot) : (s.setBoot f).acts = s.acts := rfl
@[simp] theorem State.setBoot_freeCtr (f : Boot → Boot) : (s.setBoot f).freeCtr = s.freeCtr := rfl
@[simp] theorem State.setBoot_pending (f : Boot → Boot) : (s.setBoot f).pending = s.pending := rfl
@[simp] theorem State.setBoot_val (f : Boot → Boot) (p : ObjDef) (i j : Nat) : (s.setBoot f).val p i j = s.val p i j := rfl
@[simp] theorem State.setBoot_nat (f : Boot → Boot) (p : ObjDef) (i j : Nat) : (s.setBoot f).nat p i j = s.nat p i j := rfl
@[simp] theorem State.setBoot_on (f : Boot → Boot) (p : ObjDef) (i j : Nat) : (s.setBoot f).on p i j = s.on p i j := rfl
@[simp] theorem State.setBoot_blob (f : Boot → Boot) (p : ObjDef) (i j : Nat) : (s.setBoot f).blob p i j = s.blob p i j := rfl
@[simp] theorem State.setBoot_liveVal (f : Boot → Boot) (p : ObjDef) (i j : Nat) : (s.setBoot f).liveVal p i j = s.liveVal p i j := rfl
@[simp] theorem State.setBoot_mode (f : Boot → Boot) : (s.setBoot f).mode = s.mode := rfl
@[simp] theorem State.setBoot_byte (f : Boot → Boot) (x : Nat) : (s.setBoot f).byte x = s.byte x := rfl
@[simp] theorem State.setBoot_inp (f : Boot → Boot) (i : Nat) : (s.setBoot f).inp i = s.inp i := rfl
@[simp] theorem State.setBoot_eng (f : Boot → Boot) (i : Nat) : (s.setBoot f).eng i = s.eng i := rfl

/-! ### `setApp` -/

@[simp] theorem State.setApp_vals (f : App → App) : (s.setApp f).vals = s.vals := rfl
@[simp] theorem State.setApp_blobs (f : App → App) : (s.setApp f).blobs = s.blobs := rfl
@[simp] theorem State.setApp_live (f : App → App) : (s.setApp f).live = s.live := rfl
@[simp] theorem State.setApp_liveBlobs (f : App → App) : (s.setApp f).liveBlobs = s.liveBlobs := rfl
@[simp] theorem State.setApp_retired (f : App → App) : (s.setApp f).retired = s.retired := rfl
@[simp] theorem State.setApp_staged (f : App → App) : (s.setApp f).staged = s.staged := rfl
@[simp] theorem State.setApp_past (f : App → App) : (s.setApp f).past = s.past := rfl
@[simp] theorem State.setApp_sdp (f : App → App) : (s.setApp f).sdp = s.sdp := rfl
@[simp] theorem State.setApp_clk (f : App → App) : (s.setApp f).clk = s.clk := rfl
@[simp] theorem State.setApp_tabs (f : App → App) : (s.setApp f).tabs = s.tabs := rfl
@[simp] theorem State.setApp_inputs (f : App → App) : (s.setApp f).inputs = s.inputs := rfl
@[simp] theorem State.setApp_pins (f : App → App) : (s.setApp f).pins = s.pins := rfl
@[simp] theorem State.setApp_clusters (f : App → App) : (s.setApp f).clusters = s.clusters := rfl
@[simp] theorem State.setApp_mem (f : App → App) : (s.setApp f).mem = s.mem := rfl
@[simp] theorem State.setApp_poison (f : App → App) : (s.setApp f).poison = s.poison := rfl
@[simp] theorem State.setApp_regions (f : App → App) : (s.setApp f).regions = s.regions := rfl
@[simp] theorem State.setApp_pipe (f : App → App) : (s.setApp f).pipe = s.pipe := rfl
@[simp] theorem State.setApp_periods (f : App → App) : (s.setApp f).periods = s.periods := rfl
@[simp] theorem State.setApp_hks (f : App → App) : (s.setApp f).hks = s.hks := rfl
@[simp] theorem State.setApp_cont (f : App → App) : (s.setApp f).cont = s.cont := rfl
@[simp] theorem State.setApp_flt (f : App → App) : (s.setApp f).flt = s.flt := rfl
@[simp] theorem State.setApp_lanes (f : App → App) : (s.setApp f).lanes = s.lanes := rfl
@[simp] theorem State.setApp_slices (f : App → App) : (s.setApp f).slices = s.slices := rfl
@[simp] theorem State.setApp_ctxQueue (f : App → App) : (s.setApp f).ctxQueue = s.ctxQueue := rfl
@[simp] theorem State.setApp_delay (f : App → App) : (s.setApp f).delay = s.delay := rfl
@[simp] theorem State.setApp_suppTick (f : App → App) : (s.setApp f).suppTick = s.suppTick := rfl
@[simp] theorem State.setApp_beams (f : App → App) : (s.setApp f).beams = s.beams := rfl
@[simp] theorem State.setApp_engs (f : App → App) : (s.setApp f).engs = s.engs := rfl
@[simp] theorem State.setApp_engLoads (f : App → App) : (s.setApp f).engLoads = s.engLoads := rfl
@[simp] theorem State.setApp_win (f : App → App) : (s.setApp f).win = s.win := rfl
@[simp] theorem State.setApp_fr (f : App → App) : (s.setApp f).fr = s.fr := rfl
@[simp] theorem State.setApp_trig (f : App → App) : (s.setApp f).trig = s.trig := rfl
@[simp] theorem State.setApp_hist (f : App → App) : (s.setApp f).hist = s.hist := rfl
@[simp] theorem State.setApp_coder (f : App → App) : (s.setApp f).coder = s.coder := rfl
@[simp] theorem State.setApp_spec (f : App → App) : (s.setApp f).spec = s.spec := rfl
@[simp] theorem State.setApp_tdc (f : App → App) : (s.setApp f).tdc = s.tdc := rfl
@[simp] theorem State.setApp_ecc (f : App → App) : (s.setApp f).ecc = s.ecc := rfl
@[simp] theorem State.setApp_boot (f : App → App) : (s.setApp f).boot = s.boot := rfl
@[simp] theorem State.setApp_acts (f : App → App) : (s.setApp f).acts = s.acts := rfl
@[simp] theorem State.setApp_freeCtr (f : App → App) : (s.setApp f).freeCtr = s.freeCtr := rfl
@[simp] theorem State.setApp_pending (f : App → App) : (s.setApp f).pending = s.pending := rfl
@[simp] theorem State.setApp_val (f : App → App) (p : ObjDef) (i j : Nat) : (s.setApp f).val p i j = s.val p i j := rfl
@[simp] theorem State.setApp_nat (f : App → App) (p : ObjDef) (i j : Nat) : (s.setApp f).nat p i j = s.nat p i j := rfl
@[simp] theorem State.setApp_on (f : App → App) (p : ObjDef) (i j : Nat) : (s.setApp f).on p i j = s.on p i j := rfl
@[simp] theorem State.setApp_blob (f : App → App) (p : ObjDef) (i j : Nat) : (s.setApp f).blob p i j = s.blob p i j := rfl
@[simp] theorem State.setApp_liveVal (f : App → App) (p : ObjDef) (i j : Nat) : (s.setApp f).liveVal p i j = s.liveVal p i j := rfl
@[simp] theorem State.setApp_mode (f : App → App) : (s.setApp f).mode = s.mode := rfl
@[simp] theorem State.setApp_byte (f : App → App) (x : Nat) : (s.setApp f).byte x = s.byte x := rfl
@[simp] theorem State.setApp_inp (f : App → App) (i : Nat) : (s.setApp f).inp i = s.inp i := rfl
@[simp] theorem State.setApp_eng (f : App → App) (i : Nat) : (s.setApp f).eng i = s.eng i := rfl

/-! ### A read of what was written -/

@[simp] theorem State.val_setVal_same (o : ObjDef) (v : Int) (e sub : Nat) : (s.setVal o v e sub).val o e sub = v :=
  smGet_smPut_same _ _ _ _

theorem State.val_setVal_ne (o p : ObjDef) (v : Int) (e sub i j : Nat) (h : key p i j ≠ key o e sub) :
    (s.setVal o v e sub).val p i j = s.val p i j := smGet_smPut_ne' _ _ _ h _

@[simp] theorem State.blob_setBlob_same (o : ObjDef) (b : List Byte) (e sub : Nat) : (s.setBlob o b e sub).blob o e sub = b :=
  smGet_smPut_same _ _ _ _

theorem State.blob_setBlob_ne (o p : ObjDef) (b : List Byte) (e sub i j : Nat) (h : key p i j ≠ key o e sub) :
    (s.setBlob o b e sub).blob p i j = s.blob p i j := smGet_smPut_ne' _ _ _ h _

@[simp] theorem State.inp_setInp_same (n : Nat) (f : InSt → InSt) : (s.setInp n f).inp n = f (s.inp n) :=
  smGet_smUpd_same _ _ _ _

theorem State.inp_setInp_ne (n i : Nat) (f : InSt → InSt) (h : i ≠ n) : (s.setInp n f).inp i = s.inp i :=
  smGet_smUpd_ne _ _ h _

@[simp] theorem State.eng_setEng_same (k : Nat) (f : Eng → Eng) : (s.setEng k f).eng k = f (s.eng k) :=
  smGet_smUpd_same _ _ _ _

theorem State.eng_setEng_ne (k i : Nat) (f : Eng → Eng) (h : i ≠ k) : (s.setEng k f).eng i = s.eng i :=
  smGet_smUpd_ne _ _ h _

/-- A byte written reads back. -/
@[simp] theorem State.byte_putByte_same (a : Nat) (b : Byte) : (s.putByte a b).byte a = b := smGet_smPut_same _ _ _ _

/-- Every other byte is unchanged. -/
theorem State.byte_putByte_ne (a i : Nat) (b : Byte) (h : i ≠ a) : (s.putByte a b).byte i = s.byte i :=
  smGet_smPut_ne _ _ h _

/-- Elements of one object have different keys. -/
theorem key_elem_ne (o : ObjDef) (sub : Nat) {e i : Nat} (h : i ≠ e) : key o i sub ≠ key o e sub := by
  unfold key
  omega

end Sys2Proof.Machine
end

