-- ==== Sys2Proof/Laws/Engines.lean ====
section
/-! SUPPORT. What the engines' shared operations do: an instruction that an engine takes retires with its own effect
(09 R197-R199, R211). -/

namespace Sys2Proof.Machine

theorem takes_iff (s : State) (k : Nat) (kind : EK) (w cost : Nat) :
    takes s k kind w cost = true ↔ s.engReady k = true ∧ (s.eng k).pc ≤ 16383 ∧ s.engWord k = w ∧
      engDecode (s.eng k).pc w = some kind ∧ s.poisoned (imemAddr k (s.eng k).pc) 4 = false ∧ s.engExecutes k w = true ∧
      (s.eng k).cyc < 1792 ∧ (s.eng k).cyc + cost ≤ 1792 := by
  simp [takes, and_assoc]

/-- An instruction that is taken retires with its effect. -/
theorem engRunC_takes {s : State} {k : Nat} {kind : EK} {w c : Nat} (h : takes s k kind w c = true)
    {cost : State → Nat → Nat} (hc : cost s w = c) (body : State → Nat → EngNext) :
    s.engRunC k kind cost body = s.engRetire k c (body s w) := by
  obtain ⟨h1, h2, h3, h4, h5, h6, h7, h8⟩ := (takes_iff ..).1 h
  subst h3
  simp [State.engRunC, State.engBody, h1, h4, h5, h6, hc, show ¬ (s.eng k).pc > 16383 by omega,
    show ¬ 1792 ≤ (s.eng k).cyc by omega, show ¬ (s.eng k).cyc + c > 1792 by omega]

theorem engRun_takes {s : State} {k : Nat} {kind : EK} {w c : Nat} (h : takes s k kind w c = true)
    (body : State → Nat → EngNext) : s.engRun k kind c body = s.engRetire k c (body s w) :=
  engRunC_takes h rfl body

/-- The loop evaluation changes the counters alone. -/
theorem loopEnd_eq (x : Eng) (pc nx : Nat) :
    (x.loopEnd pc nx).1 = { x with lc0 := (x.loopEnd pc nx).1.lc0, lc1 := (x.loopEnd pc nx).1.lc1 } := by
  simp only [Eng.loopEnd]
  repeat' split
  all_goals rfl

/-- Without an active loop the program goes on. -/
theorem loopEnd_idle (x : Eng) (pc nx : Nat) (h0 : x.lc0.count = 0) (h1 : x.lc1.count = 0) :
    (x.loopEnd pc nx).2 = nx := by
  unfold Eng.loopEnd LoopCtr.atEnd
  by_cases hn : x.newer = 0 <;> simp [h0, h1, hn]

/-- An instruction that falls through, in a state `u` of which only engine `k` differs from `s`. -/
theorem engRetire_seq (s u : State) (k c : Nat) :
    s.engRetire k c (.seq u) = u.setEng k fun x =>
      { (x.loopEnd (s.eng k).pc ((s.eng k).pc + 1)).1 with
        pc := (x.loopEnd (s.eng k).pc ((s.eng k).pc + 1)).2
        cyc := (x.loopEnd (s.eng k).pc ((s.eng k).pc + 1)).1.cyc + c } := rfl

/-- A write of registers keeps what `engKeeps` says. -/
theorem engKeeps_seq (s : State) (k c : Nat) (g v : List Word) (p : List Bool) :
    engKeeps s (s.engRetire k c (.seq (s.setEng k fun x => { x with g := g, v := v, p := p }))) k c := by
  rw [engRetire_seq]
  refine ⟨⟨rfl, fun j hj => ?_⟩, ?_, ?_, ?_⟩
  · rw [State.eng_setEng_ne _ _ _ _ hj, State.eng_setEng_ne _ _ _ _ hj]
  · simp only [State.eng_setEng_same]
    rw [loopEnd_eq]
  · intro h0 h1
    simp only [State.eng_setEng_same]
    exact loopEnd_idle _ _ _ h0 h1
  · simp only [State.eng_setEng_same]
    rw [loopEnd_eq]

/-- The registers after it. -/
theorem engRetire_seq_eng (s : State) (k c : Nat) (g v : List Word) (p : List Bool) :
    let t := s.engRetire k c (.seq (s.setEng k fun x => { x with g := g, v := v, p := p }))
    (t.eng k).g = g ∧ (t.eng k).v = v ∧ (t.eng k).p = p := by
  simp only [engRetire_seq, State.eng_setEng_same]
  rw [loopEnd_eq]
  exact ⟨rfl, rfl, rfl⟩

theorem setGr_eq (s : State) (k i : Nat) (x : Word) :
    s.setGr k i x = s.setEng k fun y =>
      { y with g := modNth (s.eng k).g i (fun _ => x), v := (s.eng k).v, p := (s.eng k).p } := rfl

theorem setPr_eq (s : State) (k i : Nat) (b : Bool) :
    s.setPr k i b = s.setEng k fun y =>
      { y with g := (s.eng k).g, v := (s.eng k).v, p := modNth (s.eng k).p i (fun _ => b) } := rfl

theorem setVr_eq (s : State) (k r : Nat) (f : Nat → Word) :
    s.setVr k r f = s.setEng k fun y =>
      { y with g := (s.eng k).g,
               v := (List.range 64).map fun j => if j / 8 = r then f (j % 8) else nth 0 (s.eng k).v j,
               p := (s.eng k).p } := rfl

theorem nth_modNth {α : Type} (d : α) (l : List α) (i j : Nat) (f : α → α) :
    nth d (modNth l i f) j = if j = i ∧ i < l.length then f (nth d l i) else nth d l j := by
  induction l generalizing i j with
  | nil => simp [modNth, nth]
  | cons a r ih =>
    cases i with
    | zero => cases j <;> simp [modNth, nth]
    | succ i =>
      cases j with
      | zero => simp [modNth, nth]
      | succ j => simpa [modNth, nth] using ih i j

/-- An instruction that writes one general register. -/
theorem writesG_seq {s : State} {k : Nat} (w c : Nat) (x : Word) (P : Word → Prop) (hs : engShape s k = true)
    (hP : P x) (hd : EngW.a w < 16) :
    writesG s (.next (s.engRetire k c (.seq (s.setGr k (EngW.a w) x)))) k w c P := by
  simp only [engShape, Bool.and_eq_true, decide_eq_true_eq] at hs
  refine ⟨_, rfl, ?_⟩
  rw [setGr_eq]
  obtain ⟨hg, hv, hp⟩ := engRetire_seq_eng s k c (modNth (s.eng k).g (EngW.a w) fun _ => x) (s.eng k).v (s.eng k).p
  refine ⟨?_, fun i hi => ?_, hv, hp, engKeeps_seq ..⟩
  · unfold State.gr
    rw [hg, nth_modNth, if_pos ⟨rfl, by omega⟩]
    exact hP
  · unfold State.gr
    rw [hg, nth_modNth, if_neg (by tauto)]

/-- An instruction that writes one predicate. -/
theorem writesP_seq {s : State} {k : Nat} (w c : Nat) (b : Bool) (hs : engShape s k = true) (hd : EngW.a w < 4) :
    writesP s (.next (s.engRetire k c (.seq (s.setPr k (EngW.a w) b)))) k w c b := by
  simp only [engShape, Bool.and_eq_true, decide_eq_true_eq] at hs
  refine ⟨_, rfl, ?_⟩
  rw [setPr_eq]
  obtain ⟨hg, hv, hp⟩ := engRetire_seq_eng s k c (s.eng k).g (s.eng k).v (modNth (s.eng k).p (EngW.a w) fun _ => b)
  refine ⟨?_, fun i hi => ?_, hg, hv, engKeeps_seq ..⟩
  · unfold State.pr
    rw [hp, nth_modNth, if_pos ⟨rfl, by omega⟩]
  · unfold State.pr
    rw [hp, nth_modNth, if_neg (by tauto)]

/-- An instruction that writes one vector register. -/
theorem writesV_seq {s : State} {k : Nat} (w c : Nat) (f : Nat → Word) (P : Nat → Word → Prop) (hs : engShape s k = true)
    (hd : EngW.a w < 8)
    (hP : ∀ i, i < 8 → P i (f i)) :
    writesV s (.next (s.engRetire k c (.seq (s.setVr k (EngW.a w) f)))) k w c P := by
  simp only [engShape, Bool.and_eq_true, decide_eq_true_eq] at hs
  refine ⟨_, rfl, ?_⟩
  rw [setVr_eq]
  obtain ⟨hg, hv, hp⟩ := engRetire_seq_eng s k c (s.eng k).g
    ((List.range 64).map fun j => if j / 8 = EngW.a w then f (j % 8) else nth 0 (s.eng k).v j) (s.eng k).p
  refine ⟨fun i hi => ?_, fun r i hi hr => ?_, hg, hp, engKeeps_seq ..⟩
  · have h1 : 8 * EngW.a w + i < 64 := by omega
    have h2 : (8 * EngW.a w + i) / 8 = EngW.a w := by omega
    have h3 : (8 * EngW.a w + i) % 8 = i := by omega
    unfold State.vr
    rw [hv]
    simpa [nth, h1, h2, h3] using hP i hi
  · unfold State.vr
    rw [hv]
    by_cases h1 : 8 * r + i < 64
    · have h2 : (8 * r + i) / 8 = r := by omega
      simp [nth, h1, h2, hr]
    · have h2 : (s.eng k).v.length ≤ 8 * r + i := by omega
      simp [nth, h1, List.getElem?_eq_none h2]

theorem EngW.a_lt (w : Nat) : EngW.a w < 16 := by
  simp only [EngW.a, EngW.bits]
  omega

end Sys2Proof.Machine
end

