-- ==== Sys2Proof/Laws/Memory.lean ====
section
/-! SUPPORT. The laws of memory: what each memory operation does to a byte, and that each keeps memory and its poison marks in
canonical form. -/

namespace Sys2Proof.Machine

/-! ### What a byte reads as -/

@[simp] theorem byte_putByte_same (s : State) (a : Nat) (b : Byte) : (s.putByte a b).byte a = b := smGet_smPut_same 0 s.mem a b

theorem byte_putByte_ne (s : State) {a x : Nat} (h : x ≠ a) (b : Byte) : (s.putByte a b).byte x = s.byte x :=
  smGet_smPut_ne 0 s.mem h b

/-- Bytes outside a write read as before. -/
theorem byte_putBytes_outside (s : State) (a : Nat) (l : List Byte) {x : Nat} (h : x < a ∨ a + l.length ≤ x) :
    (s.putBytes a l).byte x = s.byte x := by
  induction l generalizing s a with
  | nil => rfl
  | cons b r ih =>
    simp only [List.length_cons] at h
    rw [State.putBytes, ih (s.putByte a b) (a + 1) (by omega), byte_putByte_ne s (by omega)]

/-- Bytes inside a write read as written. -/
theorem byte_putBytes_inside (s : State) (a : Nat) (l : List Byte) {i : Nat} (h : i < l.length) :
    (s.putBytes a l).byte (a + i) = nth 0 l i := by
  induction l generalizing s a i with
  | nil => simp at h
  | cons b r ih =>
    cases i with
    | zero =>
      rw [State.putBytes, byte_putBytes_outside _ _ _ (by omega)]
      simp [nth]
    | succ i =>
      rw [State.putBytes, show a + (i + 1) = a + 1 + i by omega, ih _ _ (by simpa using h)]
      simp [nth]

/-- A write of bytes changes nothing but memory. -/
theorem putBytes_only (s : State) (a : Nat) (l : List Byte) : s.putBytes a l = { s with mem := (s.putBytes a l).mem } := by
  induction l generalizing s a with
  | nil => rfl
  | cons b r ih => rw [State.putBytes, ih]; rfl

theorem smGet_filter {α : Type} (d : α) (p : Nat → Bool) (m : SMap α) (x : Nat) :
    smGet d (m.filter fun e => p e.1) x = if p x then smGet d m x else d := by
  induction m with
  | nil => simp
  | cons e r ih =>
    obtain ⟨k, v⟩ := e
    by_cases hk : p k = true
    · simp only [List.filter_cons, hk, if_true, smGet, ih]
      by_cases h : k = x
      · subst h; simp [hk]
      · simp [h]
    · have hf : p k = false := by simpa using hk
      simp only [List.filter_cons, hf, smGet, Bool.false_eq_true, if_false, ih]
      by_cases h : k = x
      · subst h; simp [hf]
      · simp [h]

/-- A filled range reads as zeros, and every other byte as before. -/
theorem byte_fillZero (s : State) (a n x : Nat) : (s.fillZero a n).byte x = if x < a ∨ a + n ≤ x then s.byte x else 0 := by
  simpa [State.byte, State.fillZero] using smGet_filter 0 (fun c => decide (c < a ∨ a + n ≤ c)) s.mem x

/-- A mark is set, and every other stays. -/
theorem mark_markPoison (s : State) (a x : Nat) :
    smGet false (s.markPoison a).poison x = if x = a then true else smGet false s.poison x := smGet_smPut false s.poison a x true

/-! ### The canonical form -/

/-- Memory and its marks are canonical, as a proposition. -/
theorem memoryOk_iff (s : State) : s.memoryOk = true ↔ SmCanon 0 s.mem ∧ SmCanon false s.poison := by
  simp [State.memoryOk, Memory.wf, smWf_iff]

/-- A state with the memory and the marks of a canonical one is canonical. -/
theorem memoryOk_congr {s t : State} (hm : t.mem = s.mem) (hp : t.poison = s.poison) (h : s.memoryOk = true) : t.memoryOk = true := by
  rw [State.memoryOk, hm, hp]; exact h

theorem memoryOk_putByte {s : State} (h : s.memoryOk = true) (a : Nat) (b : Byte) : (s.putByte a b).memoryOk = true := by
  rw [memoryOk_iff] at h ⊢
  exact ⟨h.1.put a b, h.2⟩

theorem memoryOk_putBytes {s : State} (h : s.memoryOk = true) (a : Nat) (l : List Byte) : (s.putBytes a l).memoryOk = true := by
  induction l generalizing s a with
  | nil => exact h
  | cons b r ih => exact ih (memoryOk_putByte h a b) (a + 1)

/-- Filtering both maps keeps the form. -/
theorem memoryOk_filter {s t : State} (h : s.memoryOk = true) (p : Nat × Byte → Bool) (q : Nat × Bool → Bool)
    (hm : t.mem = s.mem.filter p) (hp : t.poison = s.poison.filter q) : t.memoryOk = true := by
  rw [memoryOk_iff] at h ⊢
  rw [hm, hp]
  exact ⟨h.1.filter p, h.2.filter q⟩

theorem memoryOk_fillZero {s : State} (h : s.memoryOk = true) (a n : Nat) : (s.fillZero a n).memoryOk = true :=
  memoryOk_filter h _ _ rfl rfl

theorem memoryOk_markPoison {s : State} (h : s.memoryOk = true) (a : Nat) : (s.markPoison a).memoryOk = true := by
  rw [memoryOk_iff] at h ⊢
  exact ⟨h.1, h.2.put a true⟩

theorem memoryOk_clearPoison {s : State} (h : s.memoryOk = true) (a n : Nat) : (s.clearPoison a n).memoryOk = true := by
  unfold State.clearPoison
  split
  · exact h
  · rw [memoryOk_iff] at h ⊢
    exact ⟨h.1, h.2.filter _⟩

theorem memoryOk_engStore {s : State} (h : s.memoryOk = true) (k a : Nat) (b : List Byte) : (s.engStore k a b).memoryOk = true := by
  have hb := memoryOk_putBytes h (dmemAddr k a) b
  simp only [State.engStore]
  split
  · exact hb
  · rw [memoryOk_iff] at hb ⊢
    exact ⟨hb.1, hb.2.filter _⟩

theorem memoryOk_memoryFill {s : State} (h : s.memoryOk = true) (kind : Nat) : (s.memoryFill kind).memoryOk = true :=
  memoryOk_filter h _ _ rfl rfl

/-- Two canonical maps without a key in common, merged by key, are canonical. -/
theorem SmCanon.merge {α : Type} {d : α} {m n : SMap α} (hm : SmCanon d m) (hn : SmCanon d n)
    (hd : ∀ a ∈ m, ∀ b ∈ n, a.1 ≠ b.1) : SmCanon d ((m ++ n).mergeSort fun a b => decide (a.1 ≤ b.1)) := by
  have perm := List.mergeSort_perm (m ++ n) fun a b => decide (a.1 ≤ b.1)
  have le : ((m ++ n).mergeSort fun a b => decide (a.1 ≤ b.1)).Pairwise fun a b => a.1 ≤ b.1 := by
    have := List.pairwise_mergeSort (le := fun (a b : Nat × α) => decide (a.1 ≤ b.1))
      (fun a b c => by simpa using fun h1 h2 => Nat.le_trans h1 h2) (fun a b => by simpa using Nat.le_total a.1 b.1) (m ++ n)
    simpa using this
  have ne : ((m ++ n).mergeSort fun a b => decide (a.1 ≤ b.1)).Pairwise fun a b => a.1 ≠ b.1 := by
    refine (perm.pairwise_iff (fun {x y} (h : x.1 ≠ y.1) => h.symm)).2 (List.pairwise_append.2 ⟨?_, ?_, hd⟩)
    · exact hm.1.imp fun h => Nat.ne_of_lt h
    · exact hn.1.imp fun h => Nat.ne_of_lt h
  refine ⟨(le.and ne).imp fun h => Nat.lt_of_le_of_ne h.1 h.2, fun e he => ?_⟩
  rcases List.mem_append.1 (perm.mem_iff.1 he) with h | h
  · exact hm.2 e h
  · exact hn.2 e h

/-- A hardware copy keeps the form. -/
theorem memoryOk_copyMem {s : State} (h : s.memoryOk = true) (src dst n : Nat) : (s.copyMem src dst n).memoryOk = true := by
  have marks : ∀ (l : List Nat) (t : State), t.memoryOk = true → (l.foldl State.markPoison t).memoryOk = true := by
    intro l
    induction l with
    | nil => exact fun t ht => ht
    | cons a r ih => exact fun t ht => ih _ (memoryOk_markPoison ht a)
  rw [memoryOk_iff] at h
  apply marks
  rw [memoryOk_iff]
  refine ⟨SmCanon.merge (h.1.filter _) ⟨?_, ?_⟩ ?_, h.2.filter _⟩
  · unfold SmSorted
    rw [List.pairwise_map]
    refine (h.1.1.filter _).imp_of_mem fun {a b} ha hb hab => ?_
    have ha := (List.mem_filter.1 ha).2
    have hb := (List.mem_filter.1 hb).2
    simp only [decide_eq_true_eq] at ha hb
    show a.1 - src + dst < b.1 - src + dst
    omega
  · intro e he
    obtain ⟨c, hc, rfl⟩ := List.mem_map.1 he
    exact h.1.2 c (List.mem_of_mem_filter hc)
  · intro a ha b hb
    obtain ⟨c, hc, rfl⟩ := List.mem_map.1 hb
    have ha := (List.mem_filter.1 ha).2
    have hc := (List.mem_filter.1 hc).2
    simp only [decide_eq_true_eq] at ha hc
    show a.1 ≠ c.1 - src + dst
    omega

end Sys2Proof.Machine
end

