-- ==== Sys2Proof/Laws/Ops.lean ====
section
/-! SUPPORT. The laws of the shared operations over dictionary values, events, actions, the fault log and the write of one object:
each says once what its operation can do, so that a proof about a command cites it. -/

namespace Sys2Proof.Machine

/-! ### Keys -/

/-- Keys of elements and subs in range are told apart. -/
theorem key_inj {o p : ObjDef} {e f i j : Nat} (he : e < 65536) (hf : f < 65536) (hi : i < 256) (hj : j < 256) :
    key o e i = key p f j ↔ o.idx = p.idx ∧ i = j ∧ e = f := by
  unfold key
  constructor
  · intro h
    omega
  · rintro ⟨a, rfl, rfl⟩
    rw [a]

theorem keyIdx_key (o : ObjDef) {e sub : Nat} (he : e < 65536) (hs : sub < 256) : keyIdx (key o e sub) = o.idx := by
  unfold keyIdx key
  omega

/-! ### Values and blobs -/

@[simp] theorem val_setVal_same (s : State) (o : ObjDef) (v : Int) (e sub : Nat) : (s.setVal o v e sub).val o e sub = v :=
  smGet_smPut_same _ _ _ _

theorem val_setVal_ne (s : State) (o p : ObjDef) (v : Int) (e sub f j : Nat) (h : key p f j ≠ key o e sub) :
    (s.setVal o v e sub).val p f j = s.val p f j := smGet_smPut_ne' _ _ _ h _

/-- A value of another object reads as before. -/
theorem val_setVal_idx (s : State) (o p : ObjDef) (v : Int) {e sub f j : Nat} (he : e < 65536) (hs : sub < 256) (hf : f < 65536)
    (hj : j < 256) (h : p.idx ≠ o.idx) : (s.setVal o v e sub).val p f j = s.val p f j :=
  val_setVal_ne s o p v e sub f j fun k => h ((key_inj hf he hj hs).1 k).1

/-- A setting of one object keeps the values of all others. -/
theorem keepsVals_setVal (s : State) (o : ObjDef) (v : Int) {e sub : Nat} (he : e < 65536) (hs : sub < 256) {l : List ObjDef}
    (h : ∃ p ∈ l, p.idx = o.idx) : keepsVals s (s.setVal o v e sub) l := by
  intro p f j hk
  refine val_setVal_ne s o p v e sub f j fun c => ?_
  obtain ⟨q, hq, hi⟩ := h
  exact hk q hq (by rw [c, keyIdx_key o he hs, hi])

theorem keepsVals.refl (s : State) (l : List ObjDef) : keepsVals s s l := fun _ _ _ _ => rfl

theorem keepsVals.trans {s t u : State} {l : List ObjDef} (h : keepsVals s t l) (k : keepsVals t u l) : keepsVals s u l :=
  fun o e sub m => (k o e sub m).trans (h o e sub m)

/-- Equal stores of values read alike. -/
theorem val_congr {s t : State} (h : t.vals = s.vals) (o : ObjDef) (e sub : Nat) : t.val o e sub = s.val o e sub := by
  simp only [State.val, h]

theorem keepsVals_of_vals {s t : State} (h : t.vals = s.vals) (l : List ObjDef) : keepsVals s t l := fun o e sub _ => val_congr h o e sub

@[simp] theorem val_inc_same (s : State) (o : ObjDef) (e sub n : Nat) :
    (s.inc o e sub n).val o e sub = (s.val o e sub + n) % 2 ^ o.ty.bits := by
  simp [State.inc]

@[simp] theorem blob_setBlob_same (s : State) (o : ObjDef) (b : List Byte) (e sub : Nat) : (s.setBlob o b e sub).blob o e sub = b :=
  smGet_smPut_same _ _ _ _

theorem blob_setBlob_ne (s : State) (o p : ObjDef) (b : List Byte) (e sub f j : Nat) (h : key p f j ≠ key o e sub) :
    (s.setBlob o b e sub).blob p f j = s.blob p f j := smGet_smPut_ne' _ _ _ h _

/-! ### Events and actions (17 R408, R413) -/

/-- An event enters the ring as its newest record, and nothing else but the backlogs of the open sessions changes. -/
theorem raise_ring (s : State) (code kind num : Nat) (arg : List Byte) :
    (s.raise code kind num arg).sdp.ring =
      ({ seq := nextSeq s.sdp.ring, code, kind, num, tick := s.tick, arg := argBytes arg } :: s.sdp.ring).take 4096 := rfl

theorem raise_newest (s : State) (code kind num : Nat) (arg : List Byte) : newestIs (s.raise code kind num arg) code :=
  ⟨_, _, rfl, rfl⟩

theorem raise_only (s : State) (code kind num : Nat) (arg : List Byte) :
    s.raise code kind num arg =
      { s with sdp := { s.sdp with ring := (s.raise code kind num arg).sdp.ring, sessions := (s.raise code kind num arg).sdp.sessions } } := rfl

@[simp] theorem actionDone_zero (s : State) (status : Nat) : s.actionDone 0 status = s := rfl

theorem actionDone_ends (s : State) {action : Nat} (h : action ≠ 0) (status : Nat) :
    actionEnds (s.actionDone action status) action status := by
  rw [State.actionDone, if_neg h]
  exact ⟨_, _, rfl, rfl, rfl⟩

theorem actionDone_only (s : State) (action status : Nat) :
    s.actionDone action status = { s with sdp := (s.actionDone action status).sdp } := by
  unfold State.actionDone
  split <;> rfl

/-- A new action number is not 0, and only the counter of free values goes on. -/
theorem newAction_spec (s : State) : s.newAction.1 ≠ 0 ∧ s.newAction.2 = { s with freeCtr := s.freeCtr + 1 } :=
  ⟨Nat.succ_ne_zero _, rfl⟩

/-! ### The fault log (21 R498) -/

theorem putBytes_mem_only (s : State) (a : Nat) (l : List Byte) : s.putBytes a l = { s with mem := (s.putBytes a l).mem } := by
  induction l generalizing s a with
  | nil => rfl
  | cons b r ih => rw [State.putBytes, ih]; rfl

/-- Bytes, two objects and an event written one after the other change nothing else. -/
theorem entry_only (s : State) (a : Nat) (b : List Byte) (o p : ObjDef) (v w : Int) (e f i j code kind num : Nat) (arg : List Byte) :
    let t := (((s.putBytes a b).setVal o v e i).setVal p w f j).raise code kind num arg
    t = { s with mem := t.mem, vals := t.vals, sdp := t.sdp } := by
  dsimp only
  rw [putBytes_mem_only]
  rfl

/-- A log entry changes memory, two objects and the events. -/
theorem logEntry_only (s : State) (code kind num rep t0 t1 : Nat) (arg : List Byte) :
    s.logEntry code kind num rep t0 t1 arg =
      { s with mem := (s.logEntry code kind num rep t0 t1 arg).mem, vals := (s.logEntry code kind num rep t0 t1 arg).vals,
               sdp := (s.logEntry code kind num rep t0 t1 arg).sdp } := by
  unfold State.logEntry
  dsimp only
  split
  · rfl
  · exact entry_only ..

theorem logSummary_only (s : State) (x : Span) :
    s.logSummary x = { s with mem := (s.logSummary x).mem, vals := (s.logSummary x).vals, sdp := (s.logSummary x).sdp } := by
  by_cases h : x.count = 0
  · simp [State.logSummary, h]
  · simp only [State.logSummary, h, if_false]
    exact logEntry_only _ _ _ _ _ _ _ _

theorem logSummaries_only (l : List Span) (s : State) :
    l.foldl State.logSummary s = { s with mem := (l.foldl State.logSummary s).mem, vals := (l.foldl State.logSummary s).vals,
                                          sdp := (l.foldl State.logSummary s).sdp } := by
  induction l generalizing s with
  | nil => rfl
  | cons x r ih =>
    rw [List.foldl_cons, ih, logSummary_only]

/-- A fault that is logged changes memory, objects, events and the spans, and nothing else. -/
theorem logFault_only (s : State) (code kind num : Nat) (arg : List Byte) :
    s.logFault code kind num arg =
      { s with mem := (s.logFault code kind num arg).mem, vals := (s.logFault code kind num arg).vals,
               sdp := (s.logFault code kind num arg).sdp, flt := (s.logFault code kind num arg).flt } := by
  unfold State.logFault
  dsimp only
  split
  · rfl
  · rw [logEntry_only, logSummaries_only]
    rfl

/-! ### The write of one object (17 R395, R407) -/

/-- Before SAFE is reached a command that writes an object does nothing. -/
theorem rowWrite_unserved {s : State} (h : s.serves = false) (role : Nat) (addr : ObjAddr) (value : List Byte) :
    s.rowWrite role addr value = s := by
  simp [State.rowWrite, h]

/-- A write that fails one of the first six checks changes nothing but the answer. -/
theorem rowWrite_undecoded {s : State} (h : s.serves = true) {role : Nat} {addr : ObjAddr} {value : List Byte} {st : Nat}
    (hd : s.decodeItem role false { addr, value } = .error st) :
    s.rowWrite role addr value = s.answer { status := st, item := 0 } := by
  simp [State.rowWrite, h, State.writeItems, hd, State.firstFailing, State.noteRefusal]

/-- A write that fails the seventh check changes nothing but the answer, and the record of a refused mode request. -/
theorem rowWrite_refused {s : State} (h : s.serves = true) {role : Nat} {addr : ObjAddr} {value : List Byte} {d : DItem}
    (hd : s.decodeItem role false { addr, value } = .ok d) (hl : s.lateSteps (viewOf [d]) 1 [] d ≠ St.OK) :
    s.rowWrite role addr value =
      (s.noteRefusal [.ok d] 0 (s.lateSteps (viewOf [d]) 1 [] d)).answer { status := s.lateSteps (viewOf [d]) 1 [] d, item := 0 } := by
  simp [State.rowWrite, h, State.writeItems, hd, passed, State.firstFailing, hl]

/-- An accepted write of an object that is no long action takes effect and answers `OK`. -/
theorem rowWrite_accepted {s : State} (h : s.serves = true) {role : Nat} {addr : ObjAddr} {value : List Byte} {d : DItem}
    (hd : s.decodeItem role false { addr, value } = .ok d) (hl : s.lateSteps (viewOf [d]) 1 [] d = St.OK) (ho : d.o.long = false) :
    s.rowWrite role addr value = (s.applyItem 0 d).answer { status := St.OK } := by
  have ha : s.applyItems 0 [d] = s.applyItem 0 d := by
    unfold State.applyItems
    by_cases hr : d.resets = true <;> simp [hr]
  simp [State.rowWrite, h, State.writeItems, hd, passed, State.firstFailing, hl, ho, ha]

/-- An accepted write that is a long action takes effect under a new action number and answers `OK` with it. -/
theorem rowWrite_started {s : State} (h : s.serves = true) {role : Nat} {addr : ObjAddr} {value : List Byte} {d : DItem}
    (hd : s.decodeItem role false { addr, value } = .ok d) (hl : s.lateSteps (viewOf [d]) 1 [] d = St.OK) (ho : d.o.long = true) :
    s.rowWrite role addr value =
      (s.newAction.2.applyItem s.newAction.1 d).answer { status := St.OK, action := s.newAction.1 } := by
  have ha : ∀ (u : State) (n : Nat), u.applyItems n [d] = u.applyItem n d := by
    intro u n
    unfold State.applyItems
    by_cases hr : d.resets = true <;> simp [hr]
  simp [State.rowWrite, h, State.writeItems, hd, passed, State.firstFailing, hl, ho, ha]

/-- What `accepts` says of a write. -/
theorem accepts_iff (s : State) (r : Role) (addr : ObjAddr) (value : List Byte) :
    accepts s r addr value = true ↔ s.serves = true ∧
      ∃ d, s.decodeItem r.code false { addr, value } = .ok d ∧ s.lateSteps (viewOf [d]) 1 [] d = St.OK := by
  unfold accepts
  cases s.decodeItem r.code false { addr, value } <;> simp

end Sys2Proof.Machine
end

