-- ==== Sys2Proof/Machine/Package.lean ====
section
/-! DEFINITION. The lands of the package (22 R511-R516): what each of the 72 by 72 lands carries. No command acts on them. -/

namespace Sys2Proof.Machine

/-- What a land carries (22 R512-R516); `neg` is the second land of a pair. -/
inductive Land
  | feed (n : Nat) | ain (n : Nat) (neg : Bool) | vfeed (d : Nat)
  | gnd | vana | vcoreRd | vcoreCd | vdram | vlane | vpp | vmram | vio
  | tx (lane : Nat) (neg : Bool) | rx (lane : Nat) (neg : Bool)
  | xt (i : Nat) (neg : Bool) | refclk (neg : Bool) | pps | trgi (neg : Bool) | trgo (neg : Bool) | pwrGood
  | resetN | blank (i : Nat) | t1s (neg : Bool) | tck | tms | tdi | tdo | trstN | idStrap (i : Nat)
deriving DecidableEq, Repr

/-- Whether a land of a position and depth along an edge lies in one of the edge strips (22 R512). -/
def inStrip (position depth : Nat) : Bool :=
  (decide (1 ≤ depth ∧ depth ≤ 4) && decide (5 ≤ position ∧ position ≤ 68)) ||
    (decide (5 ≤ depth ∧ depth ≤ 8) && decide (9 ≤ position ∧ position ≤ 64))

/-- The land of an edge strip (22 R512, R513). -/
def stripLand (edge position depth : Nat) : Land :=
  let n := 64 * edge + position - 5
  match depth with
  | 1 => .feed n
  | 2 => .ain n false
  | 3 => .ain n true
  | 5 => .vfeed (2 * edge + if position ≤ 36 then 0 else 1)
  | 7 => .vana
  | 8 => .vcoreRd
  | _ => .gnd

/-- A land of the lane bands (22 R514). -/
def laneLand (row column : Nat) : Land :=
  let k := (column - 13) / 2
  let neg := (column - 13) % 2 == 1
  if column < 13 ∨ 60 < column then .gnd
  else match row with
  | 10 => .tx k neg
  | 12 => .rx k neg
  | 63 => .tx (24 + k) neg
  | 61 => .rx (24 + k) neg
  | _ => .gnd

/-- A land of the signal block by its row and column in it (22 R515). -/
def signalLand (row column : Nat) : Land :=
  let neg := column % 2 == 1
  match row with
  | 0 | 1 | 2 | 3 => .xt (4 * row + column / 2) neg
  | 4 => match column with
    | 0 | 1 => .refclk neg
    | 2 => .pps
    | 3 | 4 => .trgi (column == 4)
    | 5 | 6 => .trgo (column == 6)
    | _ => .pwrGood
  | 5 => match column with
    | 0 => .resetN
    | 5 | 6 => .t1s (column == 6)
    | 7 => .tck
    | _ => .blank (column - 1)
  | 6 => match column with
    | 0 => .tms
    | 1 => .tdi
    | 2 => .tdo
    | 3 => .trstN
    | _ => .idStrap (column - 4)
  | _ => .idStrap (column + 4)

/-- A land of the supply field (22 R516). -/
def supplyLand (row column : Nat) : Land :=
  if (row + column) % 2 = 0 then .gnd
  else if row ≤ 20 then .vlane
  else if 49 ≤ column then .vdram
  else if 25 ≤ column then .vcoreCd
  else if row ≤ 28 then .vpp
  else if row ≤ 36 then .vmram
  else if row ≤ 44 then .vio
  else .vcoreCd

/-- The land `Lii.jj`, rows from the south and columns from the west, both from 1 to 72 (22 R511-R516). -/
def landAt (row column : Nat) : Land :=
  match [(0, column, row), (1, row, 73 - column), (2, 73 - column, 73 - row), (3, 73 - row, column)].find? fun q => inStrip q.2.1 q.2.2 with
  | some (e, p, d) => stripLand e p d
  | none =>
    if row ≤ 8 ∨ 65 ≤ row ∨ column ≤ 8 ∨ 65 ≤ column then .gnd
    else if row ≤ 12 ∨ 61 ≤ row then laneLand row column
    else if row ≤ 20 ∧ column ≤ 16 then signalLand (row - 13) (column - 9)
    else supplyLand row column

/-- How many lands carry what `p` accepts. -/
def landCount (p : Land → Bool) : Nat :=
  (List.range 72).foldl (fun a r => (List.range 72).foldl (fun a c => if p (landAt (r + 1) (c + 1)) then a + 1 else a) a) 0

end Sys2Proof.Machine
end

