-- ==== Sys2Proof/WellFormed.lean ====
section
/-! DEFINITION. Which commands are well formed: the operands lie in the ranges that the rules of their rows give them. The
meanings are total and do not rely on it; a value outside its range is cut or refused as the rule of the row says (assumption
log 17, DESIGN CHOICE). -/

namespace Sys2Proof

/-- How many instances a table of 02 R38 has. -/
def tableCount (t : Fin 12) : Nat :=
  match t.val with
  | 6 | 8 | 10 | 11 => 1
  | _ => 16

/-- How many elements a coincidence level has (10 R223). -/
def CoinLevel.count : CoinLevel → Nat
  | .cluster => 64 | .region => 16 | .die => 8 | .module => 1

/-- How many elements a re-arming source has: channels, clusters, regions, dies, the module, external inputs, engines, the
array (10 R227). -/
def rearmCount : Fin 8 → Nat
  | 0 => 256 | 1 => 64 | 2 => 16 | 3 => 8 | 4 => 1 | 5 => 16 | 6 => 256 | _ => 1

/-- The conversions of one member of a burst: 16-bit two's-complement codes (04 R98). -/
def hkCodesWf (l : List Int) : Bool := l.all fun c => decide (-32768 ≤ c ∧ c ≤ 32767)

/-- An object address fits its fields (17 R390). -/
def ObjAddr.wf (a : ObjAddr) : Bool :=
  decide (a.index < 2 ^ 16 ∧ a.sub < 2 ^ 8 ∧ a.kind < 2 ^ 8 ∧ a.num < 2 ^ 16)

/-- A write item fits its fields (17 R400). -/
def WItem.wf (i : WItem) : Bool := i.addr.wf && decide (i.value.length < 2 ^ 16)

/-- A request header fits its fields (17 R399). -/
def SdpHdr.wf (h : SdpHdr) : Bool := decide (h.session < 2 ^ 16)

/-- A message has 8 words, and its length fits its payload (08 R189). -/
def Msg.wf (m : Msg) : Bool := m.words.length == 8

/-- What a trigger path sees: 64 linear samples (10 R216). -/
def CrossingIn.wf (x : CrossingIn) : Bool := decide (64 ≤ x.lin.length)

/-- A member's trigger: an origin code and a stamp that fit the trigger word (10 R226). -/
def MemberTrig.wf (t : MemberTrig) : Bool := decide (t.stamp < 2 ^ 72 ∧ t.level < 16 ∧ t.element < 2 ^ 16)

/-- A frame fits the wire: at most 1,440 bytes of payload (16 R361). -/
def RxFrame.wf (f : RxFrame) : Bool := decide (f.payload.length ≤ 1440)

/-- A subscription fits its fields (17 R400). -/
def EvSub.wf (s : EvSub) : Bool := decide (s.kind < 2 ^ 8 ∧ s.num < 2 ^ 16)

/-- An error of a granule names one of its 64 data bits (18 R423). -/
def EccError.wf : EccError → Bool
  | .none => true
  | .dataBit b => decide (b < 64)
  | .checkBit => true
  | .uncorrectable _ _ => true

/-- An upset names an element, and a bit of a field or candidate word (21 R489, R493; 13 R288). -/
def Upset.wf : Upset → Bool
  | .config kind num addr _ bit => addr.wf && decide (kind < 12 ∧ num < 2 ^ 16 ∧ bit < 2 ^ 11)
  | .granule _ _ err => err.wf
  | .candidate _ bit => decide (bit < 256)
  | .lockstep => true

/-- What a tick brings in: inputs below 256 with 4,096 raw words each, units and elements in their ranges (02 R34, R35). -/
def TickEnv.wf (e : TickEnv) : Bool :=
  e.frames.all (fun f => decide (f.1 < 256) && f.2.length == 4096) &&
  e.late.all (fun u => decide (1 ≤ u.1 ∧ u.1 ≤ 7 ∧ u.2 < 256)) &&
  e.d2d.all (fun d => decide (d.1 < 8)) &&
  e.unstable.all (fun c => decide (c.die ≤ 8)) &&
  e.badBlocks.all (fun b => decide (b.1 < 256 ∧ b.2.1 < 128)) &&
  e.lostBlocks.all (fun b => decide (b.1 < 256 ∧ b.2 < 128)) &&
  e.hkDone.all (fun m => decide (m.1 < 9) && hkCodesWf m.2)

/-- Whether a command is well formed. -/
def Instr.wf : Instr → Bool
  | .pwrGoodRise => true
  | .pwrGoodFall => true
  | .resetNLow _ => true
  | .resetNRelease => true
  | .startUpBegin _ => true
  | .romBootDone _ => true
  | .fuseReadDone => true
  | .memoryFillDone _ _ => true
  | .kernelVerifyDone => true
  | .safeEntry _ => true
  | .appStartDone => true
  | .refclkMeasure _ => true
  | .cdPllLock => true
  | .pllLockTimeout => true
  | .refclkLoss => true
  | .refclkReturn _ => true
  | .pllSlewDone => true
  | .readerPllUnlock _ => true
  | .readerPllRelock _ => true
  | .readerPllRelockTimeout _ => true
  | .timeSet _ value => decide (value < 2 ^ 72)
  | .ppsEdge _ => true
  | .timeSetTimeout => true
  | .ppsMissing => true
  | .secondBoundary => true
  | .clockStopped _ => true
  | .cdcHandshakeDone _ => true
  | .tickBoundary env => env.wf
  | .tickCutoff => true
  | .tableSwapRequest _ table elem target => decide (elem < tableCount table) && decide (target < 2 ^ 64)
  | .tableSwapCancel table elem => decide (elem < tableCount table)
  | .linTableBuild _ => true
  | .linBuildDone _ => true
  | .linCoeffCommit _ _ => true
  | .linRebuild _ _ => true
  | .linDeferredBuild _ => true
  | .rangeAttack _ _ _ _ => true
  | .rangeRelease _ words => decide (words.length ≤ 4096)
  | .clampEpisodeBegin _ _ _ => true
  | .clampEpisodeEnd _ _ _ => true
  | .nbrPeriodEnd _ => true
  | .clampSourceClear _ _ bits => decide (bits < 2 ^ 8)
  | .blankPinEdge _ _ _ _ => true
  | .blankApply _ => true
  | .feedComparatorSample _ _ => true
  | .feedFoldBack _ => true
  | .feedEnable _ _ value => decide (value < 2 ^ 8)
  | .vfeedLowSet _ => true
  | .vfeedLowClear _ => true
  | .excWindowEnd _ => true
  | .hkPassStart _ => true
  | .hkBurstDone _ codes => codes.all hkCodesWf
  | .hkSeqCommit _ _ => true
  | .hkUrgentRequest _ _ source => decide (source < 2 ^ 8)
  | .hkUrgentStart _ codes => codes.all hkCodesWf
  | .warmEnd _ => true
  | .spectraPeriodEnd _ => true
  | .suppCtxWrite _ _ _ => true
  | .suppCtxApply => true
  | .ctxHold _ _ _ => true
  | .ctxRelease _ _ _ => true
  | .ctxMask _ _ _ => true
  | .ctxUnmask _ _ _ => true
  | .ctxReseed _ _ _ => true
  | .ctxSetK _ _ _ _ => true
  | .suppBoostFall _ => true
  | .dieIsolate _ _ => true
  | .dieRelease _ _ => true
  | .dieIsolationApply _ => true
  | .engHandlerStart _ => true
  | .add _ => true
  | .sub _ => true
  | .adds _ => true
  | .subs _ => true
  | .addi _ => true
  | .mul _ => true
  | .min _ => true
  | .max _ => true
  | .rcp _ => true
  | .sqrt _ => true
  | .fcvt _ => true
  | .and _ => true
  | .or _ => true
  | .xor _ => true
  | .clz _ => true
  | .bext _ => true
  | .bins _ => true
  | .shl _ => true
  | .shr _ => true
  | .sar _ => true
  | .li _ => true
  | .lih _ => true
  | .cmp _ => true
  | .cmpi _ => true
  | .pand _ => true
  | .por _ => true
  | .pxor _ => true
  | .pandn _ => true
  | .pset _ => true
  | .pclr _ => true
  | .rdp _ => true
  | .wrp _ => true
  | .ld _ => true
  | .st _ => true
  | .vld _ => true
  | .vst _ => true
  | .vadd _ => true
  | .vsub _ => true
  | .vmin _ => true
  | .vmax _ => true
  | .vmul _ => true
  | .vand _ => true
  | .vor _ => true
  | .vxor _ => true
  | .vshl _ => true
  | .vshr _ => true
  | .vsar _ => true
  | .vcmp _ => true
  | .vsplat _ => true
  | .vext _ => true
  | .vins _ => true
  | .vredAdd _ => true
  | .vredMax _ => true
  | .vredMin _ => true
  | .vpowB _ => true
  | .vpowH _ => true
  | .cld _ => true
  | .cwr _ => true
  | .ccmdHold _ => true
  | .ccmdRelease _ => true
  | .ccmdMask _ => true
  | .ccmdUnmask _ => true
  | .ccmdReseed _ => true
  | .cvb _ => true
  | .bwx _ => true
  | .bwc _ => true
  | .brx _ => true
  | .brc _ => true
  | .trig _ => true
  | .meas _ => true
  | .send _ => true
  | .recv _ => true
  | .br _ => true
  | .jal _ => true
  | .jr _ => true
  | .loop _ => true
  | .loopi _ => true
  | .yield _ => true
  | .wait _ => true
  | .engWaitEnd _ => true
  | .rdcyc _ => true
  | .engAutoRestart _ => true
  | .engLoad _ _ => true
  | .engLoadCopyDone _ => true
  | .engRestart _ _ => true
  | .engQuarantineCmd _ _ => true
  | .engUnload _ _ => true
  | .engMsgIn _ _ m => m.wf
  | .suppParam _ req => req.wf
  | .spillWrite _ req => req.wf
  | .spillRead _ req => req.wf
  | .spillCopyDone _ => true
  | .engReplyDeliver _ => true
  | .trigCrossing _ x => x.wf
  | .coinMemberTrigger lvl elem t => decide (elem < lvl.count) && t.wf
  | .coinWindowClose lvl elem => decide (elem < lvl.count)
  | .trigRearmEnd level elem => decide (elem < rearmCount level)
  | .trigRrRelease => true
  | .dominoReport _ _ _ => true
  | .dominoConfirm _ _ _ => true
  | .dominoVeto _ _ _ => true
  | .dominoArrayTrig _ _ _ => true
  | .dominoProbe _ _ _ _ => true
  | .dominoEcho _ _ _ => true
  | .dominoRate _ _ _ => true
  | .arrWindowClose => true
  | .dominoProbeSend _ _ => true
  | .trgoPulseStart => true
  | .trgoPulseEnd => true
  | .trgiEdge stamp _ => decide (stamp < 2 ^ 72)
  | .slotAllocate => true
  | .recordCutDone _ => true
  | .recMeasure _ => true
  | .dramArbitration want => decide (want.length = 5)
  | .segmentStart => true
  | .recordExport _ => true
  | .candidateSeal _ => true
  | .candidateExpire _ => true
  | .candidateOutcomeApply => true
  | .sendAhead _ => true
  | .specCommitSend _ => true
  | .tdcEdge _ _ => true
  | .tdcCalUpdate _ => true
  | .tdcDllLock _ => true
  | .tdcDllUnlock _ => true
  | .tdcStartSettle _ => true
  | .freqGateEnd _ => true
  | .freqResultPublish _ => true
  | .laneSignalPresent _ => true
  | .laneEyeSweep _ _ => true
  | .laneBitLock _ => true
  | .laneSymbolLock _ => true
  | .exchangeMessageSend _ => true
  | .exchangeMessage _ _ => true
  | .laneEnterActive _ => true
  | .laneTrainTimeout _ => true
  | .laneExchangeTimeout _ => true
  | .laneLossOfSignal _ => true
  | .laneErrorRetrain _ _ => true
  | .lanePartnerRetrain _ => true
  | .laneBackoffEnd _ => true
  | .laneReset _ _ => true
  | .laneDisable _ _ => true
  | .laneEnable _ _ => true
  | .linkRateWrite _ _ rate => decide (rate < 2 ^ 8)
  | .linkFrame _ _ => true
  | .replayTimeout _ => true
  | .linkFrameSend _ => true
  | .frameDiscardRx _ _ _ _ length => decide (length < 2 ^ 16)
  | .frameHandout => true
  | .queueAgeDrop => true
  | .sdpFrame _ f => f.wf
  | .dominoFrame _ f => f.wf
  | .cascadeFrame _ f => f.wf
  | .cascadeGapSkip => true
  | .cascadeHoldExpire => true
  | .hello h role slot clientNonce => h.wf && decide (role < 2 ^ 8) && decide (slot < 2 ^ 8) && clientNonce.length == 16
  | .auth h signature => h.wf && signature.length == 64
  | .close h => h.wf
  | .read h addrs => h.wf && decide (1 ≤ addrs.length ∧ addrs.length ≤ 16) && addrs.all ObjAddr.wf
  | .write h items => h.wf && decide (1 ≤ items.length ∧ items.length ≤ 16) && items.all WItem.wf
  | .readSeg h addr offset length => h.wf && addr.wf && decide (offset < 2 ^ 32) && decide (1 ≤ length ∧ length ≤ 1024)
  | .writeSeg h addr offset data _ => h.wf && addr.wf && decide (offset < 2 ^ 32) && decide (1 ≤ data.length ∧ data.length ≤ 1024)
  | .subscribe h subOp => h.wf && subOp.wf
  | .unsubscribe h subOp => h.wf && decide (subOp < 2 ^ 8)
  | .eventRead h first count => h.wf && decide (first < 2 ^ 32) && decide (1 ≤ count ∧ count ≤ 16)
  | .setSave h slot name => h.wf && decide (slot < 8) && name.length == 12
  | .setSaveDone => true
  | .setRestore h slot => h.wf && decide (slot < 8)
  | .setRestoreDone => true
  | .ping h data => h.wf && decide (data.length ≤ 64)
  | .sdpUnknownOpcode h _ _ => h.wf
  | .sdpMalformedDatagram => true
  | .sessionAuthTimeout session => decide (session < 2 ^ 16)
  | .sessionIdleTimeout session => decide (session < 2 ^ 16)
  | .writeSegTimeout addr => addr.wf
  | .eventSend session => decide (session < 2 ^ 16)
  | .keySlotWrite _ _ _ _ => true
  | .setErase _ _ => true
  | .genericObjectWrite _ addr _ => addr.wf
  | .appObjRead addr => addr.wf
  | .appObjWrite addr _ => addr.wf
  | .appEngSend _ m => m.wf
  | .appEngRecv _ => true
  | .appCvu _ _ => true
  | .appDataRw _ length writeOp data => (!writeOp || data.length == length)
  | .appLogFault code arg => decide (code < 2 ^ 8) && decide (arg.length ≤ 32)
  | .appKick => true
  | .appConfirm => true
  | .appObjReply _ status _ => decide (status < 2 ^ 8)
  | .appBadService number => (number == 0 || decide (10 < number))
  | .appAccessFault => true
  | .appWatchdogExpire => true
  | .appTrialTimeout => true
  | .appReplyTimeout _ => true
  | .kernelConfirm _ => true
  | .kernelTrialTimeout => true
  | .rollbackCommit _ => true
  | .fuseOwnerKey _ _ hash => hash.length == 32
  | .fuseOwnerRevoke _ _ => true
  | .imageVerify _ _ => true
  | .imageVerifyDone _ => true
  | .imageErase _ _ => true
  | .imageActivate _ _ => true
  | .modeRequest _ _ _ => true
  | .modeCancel _ => true
  | .modeCutoffCheck => true
  | .modeChangeApply => true
  | .softReset _ _ => true
  | .softResetApply => true
  | .dieSoftResetDone _ => true
  | .resetCmdWarm _ => true
  | .resetCmdDumpPreserving _ => true
  | .fatalFault _ kind num => decide (kind < 12) && decide (num < 2 ^ 16)
  | .lockstepMismatch => true
  | .dumpWriteDone => true
  | .dumpCopyDone => true
  | .dumpAck _ => true
  | .haltAutoReset => true
  | .haltAutoHourEnd => true
  | .scrubGranule _ err => err.wf
  | .eccBucketLeak _ => true
  | .scrubSlow _ => true
  | .cvuSubmit _ _ _ => true
  | .cvuJobDone _ => true
  | .cvuContextWrite _ _ _ => true
  | .cfgMasterCheck => true
  | .cfgMasterRepair => true
  | .faultSpanEnd _ kind num => decide (kind < 12) && decide (num < 2 ^ 16)
  | .converterStuck _ => true
  | .chQuarantine _ _ => true
  | .chRelease _ _ => true
  | .chQuarantineApply _ => true
  | .selftestStart _ _ => true
  | .selftestPartitionDone _ _ => true
  | .singleEventUpset u => u.wf
  | .appPoisonStop => true
  | .temperatureComparatorTrip _ => true
  | .fuseBurnDone => true
  | .netLinkStateChange _ => true
  | .arpRequest _ _ _ => true
  | .readerPllLock _ => true

end Sys2Proof
end

