-- ==== Sys2Proof/Tests/Slice0.lean ====
section
/-! SUPPORT. Tests of the model: ill-formed commands that the check refuses, words and values written out from the spec, and for each
statement states and operands that meet its hypotheses, clause by clause. Expected values come from the spec's tables and examples or
from hand calculation. -/

namespace Sys2Proof.Machine.Tests

/-! ### Well-formedness -/

/-- A request header. -/
def hdr : SdpHdr := { src := .udp 1 2, session := 1, reqId := 1, resp := false, lengthOk := true, mac := 0 }

/-- A received frame. -/
def rxFrame (n : Nat) : RxFrame :=
  { vc := 0, type_ := 4, alive := 0, gseq := 0, module := 0, ftick := 0, payload := List.replicate n 0 }

set_option maxRecDepth 10000 in
/-- Ill-formed commands, one for each check of `Instr.wf`. -/
theorem test_ill_formed_commands_of_the_block :
    ([Instr.timeSet .owner (2 ^ 72), .tickBoundary { frames := [(256, [])] }, .tableSwapRequest .owner 1 16 0,
      .tableSwapRequest .owner 1 0 (2 ^ 64), .tableSwapCancel 6 1, .clampSourceClear .owner 0 256, .feedEnable .owner 0 256,
      .hkBurstDone 0 [[32768]], .hkUrgentRequest .owner 0 256, .hkUrgentStart 0 [[-32769]], .engMsgIn .owner 0 ⟨[]⟩, .suppParam 0 ⟨[0]⟩,
      .spillWrite 0 ⟨[]⟩, .spillRead 0 ⟨[]⟩, .trgiEdge (2 ^ 72) false, .dramArbitration [1, 1], .linkRateWrite .owner false 256,
      .trigRearmEnd 4 1, .coinWindowClose .die 8,
      .coinMemberTrigger .module 1 ⟨2 ^ 72, 2 ^ 72, 0, 0, 0, 0, 0, false, []⟩, .trigCrossing 0 ⟨0, List.replicate 63 0⟩,
      .frameDiscardRx 0 .crc 0 0 65536, .sdpFrame 0 (rxFrame 1441), .dominoFrame 0 (rxFrame 1441),
      .cascadeFrame 0 (rxFrame 1441)].any Instr.wf) = false := by decide

/-- Ill-formed requests and commands of the kernel and the application. -/
theorem test_ill_formed_requests :
    ([Instr.hello hdr 256 0 (List.replicate 16 0), .hello hdr 0 0 [], .auth hdr [], .close { hdr with session := 65536 },
      .read hdr [], .write hdr [], .readSeg hdr ⟨0, 0, 0, 0⟩ 0 0, .writeSeg hdr ⟨0, 256, 0, 0⟩ 0 [1] true, .unsubscribe hdr 256,
      .subscribe hdr ⟨0, 0, 256, 0⟩, .eventRead hdr 0 17, .setSave hdr 8 [], .setRestore hdr 8, .ping hdr (List.replicate 65 0),
      .sdpUnknownOpcode { hdr with session := 65536 } 0x20 [], .sessionAuthTimeout 65536, .sessionIdleTimeout 65536,
      .writeSegTimeout ⟨65536, 0, 0, 0⟩, .eventSend 65536, .genericObjectWrite .owner ⟨0, 256, 0, 0⟩ [], .appObjRead ⟨0, 0, 256, 0⟩,
      .appObjWrite ⟨0, 0, 0, 65536⟩ [], .appEngSend 0 ⟨[]⟩, .appDataRw 0 2 true [0], .appLogFault 256 [], .appObjReply 1 256 [],
      .appBadService 5, .fuseOwnerKey .owner 0 [], .fatalFault 0x3F10 12 0, .scrubGranule .cd (.dataBit 64), .faultSpanEnd 0 0 65536,
      .singleEventUpset (.candidate 0 256)].any Instr.wf) = false := by decide

/-- Commands at the ends of their ranges are well formed. -/
theorem test_well_formed_commands :
    ([Instr.timeSet .owner (2 ^ 72 - 1), .tableSwapRequest .owner 1 15 (2 ^ 64 - 1), .trigRearmEnd 4 0, .eventRead hdr 0 16,
      .appBadService 0, .appBadService 11, .readSeg hdr ⟨65535, 255, 255, 65535⟩ (2 ^ 32 - 1) 1024].all Instr.wf) = true := by decide

/-! ### Engine words (09) -/

/-- The words of the worked examples of 09, decoded. -/
theorem test_example_words_decode :
    engDecode 0 0xC8000000 = some .yield ∧ engDecode 1 0xC4020024 = some .loopi ∧ engDecode 0 0xC4420022 = some .loopi ∧
    engDecode 0 0x8C000000 = some .vpowB ∧ engDecode 0 0x88100002 = some .vredMin ∧ engDecode 0 0x54013005 = some .cmp ∧
    engDecode 0 0x48220501 = some .shr ∧ engDecode 0 0x34A22800 = some .or ∧ engDecode 0 0x6800A010 = some .vld ∧
    engDecode 0 0xA0023800 = some .bwx := by decide

/-- Reserved words are no instruction: opcode 0, `PRED` 5, comparison code 6, a loop end not above the loop. -/
theorem test_reserved_words_are_illegal :
    engDecode 0 0 = none ∧ engDecode 0 (0x05 * 2 ^ 26 + 5 * 2 ^ 23) = none ∧ engDecode 0 (0x15 * 2 ^ 26 + 6) = none ∧
    engDecode 4 (0x31 * 2 ^ 26 + 4) = none ∧ engDecode 0 (0x33 * 2 ^ 26) = none := by decide

/-- An engine of number 0 that runs the word at address 0, with data memory all zero. -/
def engSt (w : Nat) : State :=
  ((State.reset.setVal Obj.ENG_STATE 3 0).setEng 0 fun x => { x with active := true }).putBytes (imemAddr 0 0) (leBytes 4 w)

/-- One instruction of each row of 09 with the cycles R200 to R212 give it. -/
def rowCycles : List (EngIns × Nat) :=
  [({ kind := .add, a := 1, b := 2, c := 3 }, 1), ({ kind := .sub, a := 1, b := 1, c := 1 }, 1), ({ kind := .adds, a := 15 }, 1),
   ({ kind := .subs, b := 15 }, 1), ({ kind := .addi, a := 1, low := 32767 }, 1), ({ kind := .mul, c := 15 }, 2),
   ({ kind := .min }, 1), ({ kind := .max }, 1), ({ kind := .rcp, a := 1 }, 6), ({ kind := .sqrt, a := 1 }, 6),
   ({ kind := .fcvt, low := 31 }, 1), ({ kind := .and }, 1), ({ kind := .or }, 1), ({ kind := .xor }, 1), ({ kind := .clz }, 1),
   ({ kind := .bext, low := 1023 }, 1), ({ kind := .bins, low := 31 }, 1), ({ kind := .shl, low := 1024 + 31 }, 1),
   ({ kind := .shr, low := 1024 + 256 + 1 }, 1), ({ kind := .sar, c := 1, low := 512 }, 1), ({ kind := .li, low := 65535 }, 1),
   ({ kind := .lih, low := 1 }, 1), ({ kind := .cmp, a := 3, low := 5 }, 1), ({ kind := .cmpi, low := 5 * 4096 + 4095 }, 1),
   ({ kind := .pand }, 1), ({ kind := .por, low := 1 }, 1), ({ kind := .pxor, low := 2 }, 1), ({ kind := .pandn, low := 3 }, 1),
   ({ kind := .pset, low := 4 }, 1), ({ kind := .pclr, low := 5 }, 1), ({ kind := .rdp, low := 6 }, 1), ({ kind := .wrp, low := 7 }, 1)]

/-- The rows of the memory, vector and port groups. -/
def rowCycles2 : List (EngIns × Nat) :=
  [({ kind := .vadd }, 1), ({ kind := .vsub, low := 1 }, 1), ({ kind := .vmin, low := 2 }, 1), ({ kind := .vmax, low := 3 }, 1),
   ({ kind := .vmul, low := 4 }, 2), ({ kind := .vand, low := 5 }, 1), ({ kind := .vor, low := 6 }, 1), ({ kind := .vxor, low := 7 }, 1),
   ({ kind := .vshl, low := 31 }, 1), ({ kind := .vshr, low := 256 }, 1), ({ kind := .vsar, low := 512 }, 1),
   ({ kind := .vcmp, low := 5 }, 1), ({ kind := .vsplat, a := 7 }, 1), ({ kind := .vext, low := 7 }, 1), ({ kind := .vins, low := 7 }, 1),
   ({ kind := .vredAdd }, 1), ({ kind := .vredMax, low := 1 }, 1), ({ kind := .vredMin, low := 2 }, 1), ({ kind := .vpowB }, 1),
   ({ kind := .vpowH, low := 1 }, 1), ({ kind := .cld, a := 12 }, 2), ({ kind := .cwr, a := 4, low := 15 }, 1),
   ({ kind := .ccmdHold, low := 1 }, 1), ({ kind := .ccmdRelease, low := 2 }, 1), ({ kind := .ccmdMask, low := 3 }, 1),
   ({ kind := .ccmdUnmask, low := 4 }, 1), ({ kind := .ccmdReseed, low := 5 }, 1), ({ kind := .cvb }, 2), ({ kind := .bwx }, 1),
   ({ kind := .bwc, low := 1 }, 1), ({ kind := .brx, low := 2 }, 1), ({ kind := .brc, low := 3 }, 1), ({ kind := .trig }, 1),
   ({ kind := .meas }, 1), ({ kind := .send }, 1), ({ kind := .recv }, 1), ({ kind := .br, low := 16383 }, 2), ({ kind := .jal }, 2),
   ({ kind := .jr }, 2), ({ kind := .yield }, 1), ({ kind := .wait, low := 8192 + 5 }, 1), ({ kind := .rdcyc, low := 16384 }, 1),
   ({ kind := .loopi, a := 1, b := 8, low := 1 }, 1), ({ kind := .loopi, low := 1 }, 2)]

/-- Engine 0 takes the instruction. -/
def takesIt (x : EngIns × Nat) : Bool := takes (engSt x.1.encode) 0 x.1.kind x.1.encode x.2 && engShape (engSt x.1.encode) 0

/-- The hypotheses of the statements on the engine's rows are met: each instruction is taken. -/
theorem witness_EngineScalarInstructions : rowCycles.all takesIt = true := by decide

/-- The hypotheses of the statements on vectors, ports, emissions and flow are met. -/
theorem witness_EngineVectors_EnginePorts_EngineEmissions_EngineFlow : rowCycles2.all takesIt = true := by decide

/-- 09 R200: a register-form shift of the amount 32 shifts by 0. -/
theorem test_shift_amount_is_modulo_32 :
    (match execShl 0 ((engSt { kind := .shl, a := 1, b := 2, c := 3 : EngIns }.encode).setEng 0 fun x =>
        { x with g := (List.range 16).map fun i => BitVec.ofNat 32 (if i = 2 then 5 else if i = 3 then 33 else 0) }) with
      | .next t => t.gr 0 1 | _ => 0) = 10 := by decide


/-! ### Witnesses: the engines (08, 09) -/

/-- The engine with registers `g`. -/
def engStG (i : EngIns) (g : List Nat) : State :=
  (engSt i.encode).setEng 0 fun x => { x with g := (List.range 16).map fun j => BitVec.ofNat 32 (nth 0 g j) }

/-- The hypotheses of a load or store of `n` bytes, inside data memory and aligned. -/
def accessOk (i : EngIns) (g : List Nat) (n : Nat) (store : Bool) : Bool :=
  let s := engStG i g
  let a := s.engAddr 0 i.encode
  takes s 0 i.kind i.encode 1 && engShape s 0 && engInRange a n store && a % n == 0 && !s.engPoisoned 0 a n

/-- Loads and stores of each size, at the last place of data memory that holds them. -/
theorem witness_EngineLoadsAndStores :
    (accessOk { kind := .ld, b := 1 } [0, 0x1FFFC] 4 false && accessOk { kind := .ld, b := 1, low := 4096 } [0, 0x1FFFE] 2 false &&
     accessOk { kind := .ld, b := 1, low := 8192 } [0, 0x1FFFE] 2 false && accessOk { kind := .ld, b := 1, low := 12288 } [0, 0x1FFFF] 1 false &&
     accessOk { kind := .vld, b := 1 } [0, 0x1FFE0] 32 false && accessOk { kind := .vld, b := 1, low := 4096 } [0, 0x1FFF0] 16 false &&
     accessOk { kind := .vld, b := 1, low := 8192 } [0, 0x1FFF0] 16 false &&
     accessOk { kind := .st, b := 1 } [0, 0x1FFFC] 4 true && accessOk { kind := .st, b := 1, low := 4096 } [0, 0x1FFFE] 2 true &&
     accessOk { kind := .st, b := 1, low := 8192 } [0, 0x1FFFF] 1 true &&
     accessOk { kind := .vst, b := 1 } [0, 0x1FFE0] 32 true && accessOk { kind := .vst, b := 1, low := 4096 } [0, 0x1FFF0] 16 true) = true := by
  decide

/-- The context port at the last context, and the rows of the beam port with nothing staged. -/
theorem witness_EnginePorts_operands :
    let s := engStG { kind := .cld, b := 1 } [0, 2047]
    (srcA s 0 ({ kind := .cld, b := 1 : EngIns }.encode)).toNat ≤ 2047 ∧ s.ctxPoisoned 0 2047 = false ∧
    (∀ i, i < 8 → s.ctxPoisoned 0 (8 * 255 + i) = false) ∧ (s.eng 0).bx = [] ∧ (s.eng 0).bc = [] := by decide

/-- Engine 0 with an instruction, registers and more. -/
def engStF (i : EngIns) (g : List Nat) (f : Eng → Eng) : State := (engStG i g).setEng 0 f

/-- Engine 0 takes the instruction in a state. -/
def takesAtOnce (s : State) (i : EngIns) (n : Nat) : Bool := takes s 0 i.kind i.encode n && engShape s 0

/-- Emissions that succeed and fail on each ground: a trigger at a stamp that is and is not a sample's and the fifth of a tick, a
measurement of type 0x80, of type 0x7F, with a nonzero field and the ninth, messages of the length and kind at the limits and past them
and the ninth, a message received, one with a poison mark and none. -/
theorem witness_EngineEmissions_operands :
    (let i : EngIns := { kind := .trig, b := 1 }
     let s := engStG i [0, 8192]
     let u := engStG i [0, 1]
     let v := engStF i [0, 8192] fun x => { x with trigs := [0, 0, 0, 0] }
     takesAtOnce s i 1 = true ∧ (s.eng 0).trigs.length < 4 ∧ (srcA s 0 i.encode).toNat % 2 ^ 13 = 0 ∧
     takesAtOnce u i 1 = true ∧ (srcA u 0 i.encode).toNat % 2 ^ 13 ≠ 0 ∧ takesAtOnce v i 1 = true ∧ 4 ≤ (v.eng 0).trigs.length) ∧
    (let i : EngIns := { kind := .meas, b := 0 }
     let s := engStG i [0, 0x8000]
     let u := engStG i [0, 0x7F00]
     let v := engStG i [0, 0x18000]
     let z := engStF i [0, 0x8000] fun x => { x with meas := List.replicate 8 0 }
     takesAtOnce s i 1 = true ∧ (s.eng 0).meas.length < 8 ∧ (s.gr 0 1).extractLsb' 16 3 = 0 ∧ 0x80 ≤ ((s.gr 0 1).extractLsb' 8 8).toNat ∧
     takesAtOnce u i 1 = true ∧ ((u.gr 0 1).extractLsb' 8 8).toNat < 0x80 ∧ takesAtOnce v i 1 = true ∧ (v.gr 0 1).extractLsb' 16 3 ≠ 0 ∧
     takesAtOnce z i 1 = true ∧ 8 ≤ (z.eng 0).meas.length) ∧
    (let i : EngIns := { kind := .send, b := 1 }
     let st (h n : Nat) : State := engStF i [] fun x =>
       { x with v := (List.range 64).map fun j => BitVec.ofNat 32 (if j = 8 then h else 0), msgs := List.replicate n [] }
     takesAtOnce (st 0x8F1C0000 7) i 1 = true ∧ msgLen ((st 0x8F1C0000 7).vrAll 0 1) ≤ 28 ∧ msgKind ((st 0x8F1C0000 7).vrAll 0 1) ≤ 0x8F ∧
     ((st 0x8F1C0000 7).eng 0).msgs.length < 8 ∧ takesAtOnce (st 0x8F1D0000 0) i 1 = true ∧ 28 < msgLen ((st 0x8F1D0000 0).vrAll 0 1) ∧
     takesAtOnce (st 0x90000000 0) i 1 = true ∧ 0x8F < msgKind ((st 0x90000000 0).vrAll 0 1) ∧
     takesAtOnce (st 0 8) i 1 = true ∧ 8 ≤ ((st 0 8).eng 0).msgs.length) ∧
    (let i : EngIns := { kind := .recv, b := 1 }
     let s := engStF i [] fun x => { x with inq := [[1]], inHead := 31 }
     let u := s.markPoison (msgAddr 0 31)
     takesAtOnce s i 1 = true ∧ (s.eng 0).inq = [[1]] ∧ s.msgPoisoned 0 = false ∧
     takesAtOnce u i 1 = true ∧ (u.eng 0).inq = [[1]] ∧ u.msgPoisoned 0 = true ∧
     takesAtOnce (engStG i []) i 1 = true ∧ ((engStG i []).eng 0).inq = []) := by decide

/-- Counted loops of each form and of none, jumps to the last instruction and past it, and a wait that ends. -/
theorem witness_EngineFlow_operands :
    (let i : EngIns := { kind := .loop, b := 1, low := 16383 }
     takesAtOnce (engStG i [0, 1]) i 1 = true ∧ ((engStG i [0, 1]).gr 0 (EngW.lb i.encode)).toNat ≠ 0 ∧ EngW.lc i.encode = 0 ∧
     takesAtOnce (engStG i []) i 2 = true ∧ ((engStG i []).gr 0 (EngW.lb i.encode)).toNat = 0) ∧
    (let i : EngIns := { kind := .loopi, a := 1, b := 8, low := 1 }
     let j : EngIns := { kind := .loopi, low := 1 }
     takesAtOnce (engStG i []) i 1 = true ∧ EngW.count i.encode ≠ 0 ∧ takesAtOnce (engStG j []) j 2 = true ∧ EngW.count j.encode = 0) ∧
    (let i : EngIns := { kind := .jr, b := 1 }
     takesAtOnce (engStG i [0, 16383]) i 2 = true ∧ (srcA (engStG i [0, 16383]) 0 i.encode).toNat ≤ 16383 ∧
     takesAtOnce (engStG i [0, 16384]) i 2 = true ∧ 16383 < (srcA (engStG i [0, 16384]) 0 i.encode).toNat) ∧
    (let s := (engSt 0).setEng 0 fun x => { x with waitTo := some 1791 }
     s.engState 0 = 3 ∧ (s.eng 0).active = true ∧ (s.eng 0).waitTo = some 1791) := by decide

/-- A legal word on a cleared predicate. -/
theorem witness_EngineClearedPredicateSkips :
    let i : EngIns := { kind := .add, pred := 4 }
    let s := engSt i.encode
    s.engReady 0 = true ∧ (s.eng 0).pc ≤ 16383 ∧ s.engWord 0 = i.encode ∧ engDecode (s.eng 0).pc i.encode = some .add ∧
    s.poisoned (imemAddr 0 (s.eng 0).pc) 4 = false ∧ EngW.pred i.encode ≠ 0 ∧ s.pr 0 3 = false ∧ (s.eng 0).cyc < 1792 ∧
    EngW.pred (5 * 2 ^ 23) = 5 := by decide

/-- The cut-off; an illegal word and a fetch beyond the memory at the last cycle; accesses that leave the ranges, are not aligned, or meet
a mark; contexts beyond the last and one with a mark. -/
theorem witness_EngineExceptions :
    (let s := (engSt 0).setEng 0 fun x => { x with cyc := 1792 }
     s.engReady 0 = true ∧ 1792 ≤ (s.eng 0).cyc) ∧
    (let s := (engSt 0).setEng 0 fun x => { x with cyc := 1791 }
     s.engReady 0 = true ∧ engDecode 0 (s.engWord 0) = none ∧ (s.eng 0).cyc < 1792) ∧
    ((engSt 0).setEng 0 fun x => { x with pc := 16384 }).engReady 0 = true ∧
    (let i : EngIns := { kind := .ld, b := 1 }
     takes (engStG i [0, 0xFFFF0000]) 0 .ld i.encode 1 = true ∧ engInRange ((engStG i [0, 0xFFFF0000]).engAddr 0 i.encode) 4 false = false ∧
     engInRange ((engStG i [0, 1]).engAddr 0 i.encode) 4 false = true ∧ (engStG i [0, 1]).engAddr 0 i.encode % 4 ≠ 0 ∧
     ((engStG i [0, 4]).markPoison (dmemAddr 0 4)).engPoisoned 0 4 4 = true ∧
     takes ((engStG i [0, 4]).markPoison (dmemAddr 0 4)) 0 .ld i.encode 1 = true) ∧
    (let i : EngIns := { kind := .st, b := 1 }
     takes (engStG i [0, 0x20000]) 0 .st i.encode 1 = true ∧ engInRange ((engStG i [0, 0x20000]).engAddr 0 i.encode) 4 true = false ∧
     engInRange ((engStG i [0, 2]).engAddr 0 i.encode) 4 true = true ∧ (engStG i [0, 2]).engAddr 0 i.encode % 4 ≠ 0) ∧
    (let i : EngIns := { kind := .cld, b := 1 }
     takes (engStG i [0, 2048]) 0 .cld i.encode 2 = true ∧ 2047 < (srcA (engStG i [0, 2048]) 0 i.encode).toNat ∧
     ((engStG i [0, 2047]).markPoison (ctxAddr 0 2047)).ctxPoisoned 0 2047 = true ∧
     takes ((engStG i [0, 2047]).markPoison (ctxAddr 0 2047)) 0 .cld i.encode 2 = true) ∧
    (([.cwr, .ccmdHold, .ccmdRelease, .ccmdMask, .ccmdUnmask, .ccmdReseed].zip [0, 1, 2, 3, 4, 5]).all fun k =>
      let i : EngIns := { kind := k.1, b := 1, low := k.2 }
      let i := if k.2 = 0 then { i with a := 4, low := 15 } else i
      takes (engStG i [0, 2048]) 0 k.1 i.encode 1 && decide (2047 < (srcA (engStG i [0, 2048]) 0 i.encode).toNat)) = true ∧
    (let i : EngIns := { kind := .cvb, b := 1 }
     takes (engStG i [0, 256]) 0 .cvb i.encode 2 = true ∧ 255 < (srcA (engStG i [0, 256]) 0 i.encode).toNat) := by decide

/-- A module in a mode, with power, a kernel and start-up done. -/
def atMode (m : Int) : State :=
  { ((State.reset.setVal Obj.MODE_NOW m).setVal Obj.KERNEL_SLOT_RUNNING 0) with boot := { step := 6, power := true } }

/-- A program header of 64 bytes in the first program slot is not written: its verification fails. Handlers that start and that have run in
this tick; a load commanded; a copy at the head of the order. -/
theorem witness_EngineHandlersAndLoads :
    (let s := engSt 0
     s.engState 0 = 3 ∧ s.clk.pastCutoff = false ∧ (s.eng 0).shaking = false ∧ (s.eng 0).startOrd ≠ s.clk.ord + 1) ∧
    (let s := (engSt 0).setEng 0 fun x => { x with startOrd := 1 }
     s.engState 0 = 3 ∧ (s.eng 0).startOrd = s.clk.ord + 1) ∧
    accepts (atMode 1) .engineer (objAddr 0x5001 0 6 255) [1] = true ∧ (atMode 1).imgVerify 4 ≠ none ∧
    (let s : State := { ((atMode 1).setVal Obj.ENG_STATE 1 255).setEng 255 fun x => { x with load := some 63 } with engLoads := [255, 3] }
     s.engState 255 = 1 ∧ s.engLoads.head? = some 255 ∧ (s.eng 255).load = some 63) := by decide

/-- Restarts by command, by the kernel in the running hour, in a new one and past its limit; quarantines and unloads. -/
theorem witness_EngineRestartsAndCommands :
    (let s := (atMode 2).setVal Obj.ENG_STATE 3 7
     accepts s .engineer (objAddr 0x5001 0 6 7) [2] = true ∧ s.engState 7 ≠ 0 ∧ s.engState 7 ≠ 1 ∧
     accepts s .engineer (objAddr 0x5001 0 6 7) [3] = true ∧
     accepts s .engineer (objAddr 0x5001 0 6 7) [4] = true ∧ s.engState 7 = 3) ∧
    (let st (n : Nat) : State :=
       { (State.reset.setVal Obj.ENG_STATE 4 7).setEng 7 fun x => { x with quarOrd := 10, autoDone := n } with clk := { ord := 260 } }
     (st 0).engState 7 = 4 ∧ (st 0).clk.ord = ((st 0).eng 7).quarOrd + 250 ∧ ((st 0).eng 7).autoHour = (st 0).tick / 900000000 ∧
     ((st 0).eng 7).autoDone < (st 0).nat Obj.ENG_AUTO_RESTART 7 ∧ (st 0).bankWithheld 7 = false ∧
     (st 255).nat Obj.ENG_AUTO_RESTART 7 ≤ ((st 255).eng 7).autoDone ∧ (st 255).bankWithheld 7 = false) ∧
    (let s : State := { (State.reset.setVal Obj.ENG_STATE 4 7).setEng 7 fun x => { x with quarOrd := 10, autoDone := 255 } with
       clk := { ord := 260, tick := 900000000 } }
     s.engState 7 = 4 ∧ (s.eng 7).autoHour ≠ s.tick / 900000000 ∧ 0 < s.nat Obj.ENG_AUTO_RESTART 7 ∧ s.bankWithheld 7 = false) := by decide

/-- A request of 16 bytes of an engine as its eight words: kind and sequence in the header. -/
def reqMsg (p : List Nat) : Msg := { words := (List.range 8).map fun i => BitVec.ofNat 32 (nth 0 p i) }

/-- Messages to an engine, the request that is next of each kind, with fields served and refused, spills within and past their ranges, a
spill copied in the hand-out, and a reply with room. -/
theorem witness_EngineMessagesAndServices :
    accepts (atMode 1) .engineer (objAddr 0x5011 0 6 0) ((msgList (reqMsg [0x100])).flatMap fun w => leBytes 4 w.toNat) = true ∧
    (let m := reqMsg [0x80060001, 0x001E4000, 0]
     let s := State.reset.setEng 0 fun x => { x with outq := [msgList m] }
     s.engRequest 0 = some (msgList m) ∧ msgKind (msgList m) = 0x80 ∧
     (s.suppParamStatus 0 (msgBytes (msgList m))).1 = St.OK ∧ (s.suppParamStatus 0 (msgBytes (msgList m))).2.isSome = true) ∧
    (let m := reqMsg [0x80060001, 0x00004009, 0]
     let s := State.reset.setEng 0 fun x => { x with outq := [[0x01000000], msgList m] }
     s.engRequest 0 = some (msgList m) ∧ s.suppParamStatus 0 (msgBytes (msgList m)) = (St.RANGE, none)) ∧
    (([(true, 0x81), (false, 0x82)].all fun k =>
      let m := reqMsg [k.2 * 2 ^ 24, 0x1FFF8, 0xFFFF8, 8]
      let s := State.reset.setEng 0 fun x => { x with outq := [msgList m] }
      let p := msgBytes (msgList m)
      decide (s.engRequest 0 = some (msgList m) ∧ msgKind (msgList m) = (if k.1 then 0x81 else 0x82) ∧
        leNat (slice p 0 4) + leNat (slice p 8 4) ≤ 0x20000 ∧ leNat (slice p 4 4) + leNat (slice p 8 4) ≤ 2 ^ 20 ∧
        leNat (slice p 8 4) = 8)) = true) ∧
    (([[0, 0, 4097], [0, 0, 4], [0, 0, 12], [0x1FFF9, 0, 8], [0, 0xFFFF9, 8]].all fun f =>
      let p := msgBytes (msgList (reqMsg ([0x81000000] ++ f)))
      let n := leNat (slice p 8 4)
      decide (n % 8 ≠ 0 ∨ n < 8 ∨ 4096 < n ∨ 0x20000 < leNat (slice p 0 4) + n ∨ 2 ^ 20 < leNat (slice p 4 4) + n)) = true) ∧
    (let x : Spill := { write := true, addr := 0, offset := 0, len := 8, seq := 1 }
     let s := { State.reset.setEng 0 fun e => { e with spills := [x], replies := [[0]] } with clk := { pastCutoff := true } }
     s.clk.pastCutoff = true ∧ (s.eng 0).spills = [x] ∧ s.memoryOk = true ∧ x.addr + x.len ≤ 0x20000 ∧ x.offset + x.len ≤ 2 ^ 20 ∧
     (s.eng 0).replies = [[0]] ∧ (s.eng 0).inRoom = true) := by decide

/-! ### Witnesses: power, resets, modes, ticks, clocks (02, 19, 20) -/

/-- A module whose start-up has reached a step, in BOOT. -/
def booting (step : Nat) : State := { State.reset with boot := { step, power := true } }

/-- The public key of the first test of RFC 8032. -/
def signer : List Byte := beBytes 32 0xd75a980182b10ab7d54bfed3c964073a0ee172f3daa62325af021a68f707511a

/-- A state with a small image in a slot (19 R450 to R452): version 7, a text of four bytes, signed by `signer`, whose hash is burnt for the
image's key. The signatures come from a signing program outside the model. -/
def withImage (s : State) (slot kind key sig : Nat) : State :=
  let hash : List Byte := beBytes 32 0x21fe31dfa154a261626bf854046fd2271b7bed4b6abe45aa58877ef47f9721b9
  let head := leBytes 4 0x49464C4B ++ leBytes 1 kind ++ leBytes 1 key ++ leBytes 2 0 ++ leBytes 4 7 ++ leBytes 4 0 ++ leBytes 4 4 ++
    leBytes 12 0 ++ leBytes 4 0x29308CF4 ++ leBytes 28 0 ++ signer ++ beBytes 64 sig
  let s := (s.putBytes (slotAddr slot 0) head).putBytes (slotAddr slot 4096) [1, 2, 3, 4]
  if key = 0 then s.setBlob Obj.FUSE_VENDOR_HASH hash else s.setBlob Obj.FUSE_OWNER_KEY hash 0 key

/-- A kernel image in a state, signed by the vendor. -/
def withKernel (s : State) : State := withImage s 0 1 0 0xe17ce723115f72ccf2babe7376bd5fb520427eac23f089d06f5c6c92bb52bf7e97fa7249c28ef1b1348e73b87d6b3bd65baf0050d32e7f63232123f5d705a90f

/-- An application image in a slot, signed by the owner's key 4. -/
def withApp (s : State) (slot : Nat) : State := withImage s slot 2 4 0xdaf4335cd15f928bd76e2e8f7f768489fbe256ae94686c22b3d2712cae64c667fee4dc690d5599c90e21fb6491be1336a3eacdbaf1ec29000b0d817fdca24b06

/-- An engine program in a slot, signed by the vendor. -/
def withProgram (s : State) (slot : Nat) : State := withImage s slot 3 0 0x76baf0c3b9027d30456696af8c041589771ad04a0adf9e7f4fe77e863a3e7f5bc99becd34babbeb6f416f842eba5fa1baf792cf4397608692b56a875c3ff1401

set_option maxRecDepth 100000 in
/-- Images that pass every check of 19 R454: a kernel that start-up runs, and a program in the last slot. -/
theorem witness_images_that_pass :
    (let s : State := withKernel { (booting 2).setVal Obj.PLL_LOCK 1 8 with boot := { step := 2, power := true, fuses := true, filled := true } }
     s.boot.kTrial = false ∧ s.boot.kPref = 0 ∧ s.slotPasses s.boot.kPref = true ∧ s.on Obj.PLL_LOCK 8 = true) ∧
    (withProgram (atMode 1) 67).imgVerify 67 = none := by decide +kernel

set_option maxRecDepth 100000 in
/-- The text or the fuse hash changed: the check value and the key fail (19 R454). -/
theorem test_images_that_fail :
    ((withProgram (atMode 1) 4).putBytes (slotAddr 4 4096) [0]).imgVerify 4 = some (4, St.CHECK) ∧
    ((withProgram (atMode 1) 4).setBlob Obj.FUSE_VENDOR_HASH [0]).imgVerify 4 = some (3, St.TRUST) := by decide +kernel

/-- Start-up: each step's state. -/
theorem witness_StartUpRunsInOrder :
    (booting 0).boot.power = true ∧ (booting 1).mode = 0 ∧ (booting 2).boot.filled = false ∧
    (let s : State := { (booting 2).setVal Obj.PLL_LOCK 1 8 with boot := { step := 2, power := true, fuses := true, filled := true } }
     s.mode = 0 ∧ s.boot.fuses = true ∧ s.boot.filled = true ∧ s.on Obj.PLL_LOCK 8 = true ∧ s.boot.kTrial = false) ∧
    (booting 5).boot.step = 5 ∧ 8 ≤ (booting 5).nat Obj.SET_BOOT ∧ (booting 5).boot.fellBack = false := by decide

set_option maxRecDepth 10000 in
/-- Module-wide resets: a released pin after HALT and after another mode, an automatic reset and one past the limit, the hour's end, the
commands, a kernel's trial and activations. -/
theorem witness_ModuleResets :
    (let s : State := { atMode 0 with boot := { low := true, prev := 11 } }
     s.boot.low = true ∧ s.boot.prev = 11) ∧
    (let s : State := { atMode 0 with boot := { low := true, prev := 3 } }
     s.boot.low = true ∧ s.boot.prev ≠ 11) ∧
    (let s : State := { ((atMode 11).setVal Obj.HALT_AUTO_RESET 2500000).setVal Obj.HALT_AUTO_COUNT 2 with
       clk := { ord := 2500000 }, boot := { hour := some 900000000, hourOrd := 2500000 } }
     s.mode = 11 ∧ 0 < s.nat Obj.HALT_AUTO_RESET ∧ s.val Obj.HALT_AUTO_COUNT < 3 ∧
     s.boot.haltOrd + s.nat Obj.HALT_AUTO_RESET ≤ s.clk.ord ∧ s.flt.spans = [] ∧ s.boot.hour = some 900000000 ∧
     900000000 ≤ 900000000 + (s.clk.ord - s.boot.hourOrd)) ∧
    3 ≤ ((atMode 11).setVal Obj.HALT_AUTO_COUNT 3).val Obj.HALT_AUTO_COUNT ∧
    accepts (atMode 1) .owner (objAddr 0x1051 0 0 0) [1] = true ∧ accepts (atMode 1) .owner (objAddr 0x1051 0 0 0) [2] = true ∧
    (let s : State := { State.reset with boot := { onTrial := true }, clk := { ord := 150000000 } }
     s.boot.onTrial = true ∧ s.boot.safeOrd + s.nat Obj.IMAGE_TRIAL_LIMIT ≤ s.clk.ord) ∧
    accepts ((atMode 1).setImgState 1 3) .owner (objAddr 0xB015 2 0 0) [1] = true ∧
    accepts ((atMode 1).setImgState 2 3) .owner (objAddr 0xB015 3 0 0) [1] = true := by decide

/-- A supply that falls, and a reset pin that is low for 10 µs. -/
theorem witness_SupplyAndResetPins :
    (atMode 3).boot.power = true ∧ (atMode 3).boot.low = false ∧ (atMode 3).boot.step ≠ 0 := by decide

/-- A module whose PLLs are locked. -/
def locked (m : Int) : State := (List.range 9).foldl (fun s d => s.setVal Obj.PLL_LOCK 1 d) (atMode m)

/-- Mode requests in time and late, their cancellation, the check at the cut-off with and without a case that applies and at the last tick
number, its tick, and the requests 2 and 9 with every reader die set aside. -/
theorem witness_ModeRequestsAndChanges :
    accepts (locked 1) .operator (objAddr 0x1001 0 0 0) (leBytes 8 (2 * 2 ^ 60)) = true ∧
    (let s := locked 1
     accepts { s with clk := { s.clk with pastCutoff := s.clk.pastCutoff || true } } .operator (objAddr 0x1001 0 0 0) (leBytes 8 (2 * 2 ^ 60)) = true) ∧
    (let s := (locked 1).setVal Obj.MODE_PENDING (2 * 2 ^ 60 + 1 : Nat)
     accepts s .operator (objAddr 0x1003 0 0 0) [1] = true ∧ 0 < s.nat Obj.MODE_PENDING ∧
     s.nat Obj.MODE_PENDING % 2 ^ 53 = (s.tick + 1) % 2 ^ 53 ∧ s.modeRefusal (s.nat Obj.MODE_PENDING) false true = none ∧
     s.tick < s.nat Obj.MODE_PENDING % 2 ^ 53) ∧
    (let s : State := { (locked 1).setVal Obj.MODE_PENDING (2 * 2 ^ 60 : Nat) with clk := { tick := 2 ^ 53 - 1 } }
     s.nat Obj.MODE_PENDING % 2 ^ 53 = (s.tick + 1) % 2 ^ 53) ∧
    (let s := (atMode 1).setVal Obj.MODE_PENDING (2 * 2 ^ 60 + 1 : Nat)
     s.modeRefusal (s.nat Obj.MODE_PENDING) false true = some St.BUSY) ∧
    (let s : State := { (locked 1).setVal Obj.MODE_PENDING (2 * 2 ^ 60 + 1 : Nat) with clk := { tick := 1 } }
     0 < s.nat Obj.MODE_PENDING ∧ s.nat Obj.MODE_PENDING % 2 ^ 53 ≤ s.tick ∧ (∃ d, d < 8 ∧ s.dieOff d = false)) ∧
    (([2, 9].all fun m =>
      let s : State := { (locked 1).setVal Obj.MODE_PENDING (m * 2 ^ 60 + 1 : Nat) with
        clk := { tick := 1 }, cont := { out := [0, 1, 2, 3, 4, 5, 6, 7] } }
      decide (0 < s.nat Obj.MODE_PENDING ∧ s.nat Obj.MODE_PENDING % 2 ^ 53 ≤ s.tick ∧ 2 ≤ s.nat Obj.MODE_PENDING / 2 ^ 60 ∧
        s.nat Obj.MODE_PENDING / 2 ^ 60 ≤ 9 ∧ ∀ d, d < 8 → s.dieOff d = true)) = true) := by decide

/-- A boundary and a cut-off in BOOT. -/
theorem witness_BoundariesCountTicks :
    (let s : State := { (booting 5).setVal Obj.PLL_LOCK 1 8 with clk := { counting := true } }
     s.clocked = true ∧ s.mode = 0 ∧ s.cont.isolating = [] ∧ s.cont.quarantining = [] ∧ s.cont.returning = [] ∧ s.flt.spans = [] ∧
     s.clk.counting = true ∧ s.clk.pastCutoff = false ∧ s.engs = [] ∧ s.nat Obj.MODE_PENDING = 0) ∧
    (∀ k, (booting 5).engState k ≠ 3) := by
  refine ⟨by decide, fun k => ?_⟩
  have h : (booting 5).engState k = 0 := rfl
  rw [h]; decide

/-- The reference sought, met at the last ppm and past it, lost, back and slewed; reader-die PLLs; crossings and lanes whose clock stops. -/
theorem witness_ClocksLoseAndRegainLock :
    (booting 2).seeksRef = true ∧ adoptRef 9000 ≠ 0 ∧
    (let s := (booting 2).setVal Obj.REFCLK_FREQ 1
     s.seeksRef = true ∧ s.on Obj.REFCLK_FREQ = true ∧ (-200 : Int).natAbs ≤ 200 ∧ 200 < (201 : Int).natAbs) ∧
    (atMode 1).seeksRef = false ∧
    (let s := (locked 1).setVal Obj.TIME_STATE 1
     s.clk.holdover = false ∧ s.on Obj.PLL_LOCK 8 = true ∧ s.val Obj.TIME_STATE = 1) ∧
    ({ locked 1 with clk := { slewing := true } } : State).clk.slewing = true ∧
    ({ locked 1 with clk := { holdover := true } } : State).clk.holdover = true ∧ (-200 : Int).natAbs ≤ 200 ∧
    (locked 1).on Obj.PLL_LOCK 7 = true ∧
    (let s : State := { atMode 1 with clk := { ord := 256, pllLost := [(7, 1)] } }
     s.on Obj.PLL_LOCK 7 = false ∧ smGet 0 s.clk.pllLost 7 ≠ 0 ∧ s.val Obj.DIE_STATE 7 = 0 ∧ smGet 0 s.clk.pllLost 7 - 1 + 256 ≤ s.clk.ord) ∧
    (let s := (atMode 1).setVal Obj.PLL_LOCK 1 8
     s.on Obj.PLL_LOCK 0 = false ∧ s.dieOff 0 = false ∧ smGet 0 s.clk.pllLost 0 = 0 ∧ s.boot.step ≠ 0 ∧ s.on Obj.PLL_LOCK 8 = true ∧ s.dieOut 0 = false) ∧
    (let s := (locked 1).setVal Obj.LANE_STATE 6 47
     s.boot.step ≠ 0 ∧ 2 ≤ s.laneState 47 ∧ s.laneState 47 ≤ 6) ∧
    (let s := (locked 1).setVal Obj.LANE_STATE 2 0
     2 ≤ s.laneState 0 ∧ s.laneState 0 ≤ 6) ∧
    (let s : State := { locked 1 with cont := { resetting := [(3, 5)] } }
     smGet 0 s.cont.resetting 3 ≠ 0 ∧ s.on Obj.PLL_LOCK 3 = true) := by decide

/-- A time set armed and given up, edges that end it, that keep time in window and out of it, seconds without an edge and with one, and a
second whose bookkeeping is due and not. -/
theorem witness_TimeSetAndPps :
    accepts (atMode 2) .engineer (objAddr 0x1021 0 0 0) (leBytes 9 secondTu) = true ∧ secondTu < 2 ^ 72 ∧
    (let s : State := { atMode 1 with clk := { armed := some 0, ord := 500000 } }
     s.clk.armed.isSome = true ∧ s.clk.armedOrd + 500000 ≤ s.clk.ord) ∧
    (let s : State := { atMode 1 with clk := { armed := some 0, ord := 499999 } }
     s.clk.ord < s.clk.armedOrd + 500000) ∧
    (let s : State := { (atMode 2).setVal Obj.PPS_ENABLE 1 with clk := { armed := some secondTu } }
     s.on Obj.PPS_ENABLE = true ∧ Mode.ppsTdc s.mode = true ∧ (s.val Obj.PPS_EDGE = 1 ↔ (true : Bool) = false)) ∧
    (let s : State := { ((atMode 2).setVal Obj.PPS_ENABLE 1).setVal Obj.TIME_STATE 2 with clk := { tick := 250000 } }
     let stamp := s.ppsStamp { period := 0, code := 0, rising := true }
     s.clk.armed = none ∧ s.val Obj.TIME_STATE ≠ 0 ∧ s.ppsJudged 1 = false ∧ (2 * stamp + secondTu) / (2 * secondTu) = 1 ∧
     ((stamp : Int) - (1 * secondTu : Nat)).natAbs ≤ s.nat Obj.PPS_WINDOW) ∧
    (let s : State := { ((atMode 2).setVal Obj.PPS_ENABLE 1).setVal Obj.TIME_STATE 1 with clk := { tick := 250004 } }
     let stamp := s.ppsStamp { period := 8191, code := 0, rising := true }
     let off := (stamp : Int) - (1 * secondTu : Nat)
     s.ppsJudged 1 = false ∧ (2 * stamp + secondTu) / (2 * secondTu) = 1 ∧ off < 2 ^ 31 ∧ s.nat Obj.PPS_WINDOW < off.natAbs) ∧
    (let s : State := { ((atMode 2).setVal Obj.PPS_ENABLE 1).setVal Obj.TIME_STATE 1 with clk := { tick := 250000 + 249999 } }
     s.val Obj.TIME_STATE ≠ 0 ∧ s.on Obj.PPS_ENABLE = true ∧ s.ppsJudged (s.tick / 250000) = false ∧
     s.tick / 250000 * secondTu + s.nat Obj.PPS_WINDOW < (s.tick + 1) * 2 ^ 19) ∧
    (let s : State := { (atMode 2).setVal Obj.PPS_ENABLE 1 with clk := { tick := 250000, ppsSecond := some 1 } }
     s.ppsJudged (s.tick / 250000) = true ∧ ((atMode 2).setVal Obj.PPS_ENABLE 0).on Obj.PPS_ENABLE = false) ∧
    ({ atMode 2 with clk := { secondDue := some 1 } } : State).clk.secondDue = some 1 ∧ (atMode 2).clk.secondDue = none := by decide

/-- A swap requested for table 3 of the last region, one deferred to its limit with its group, and one below it. -/
theorem witness_TableSwapCommands :
    accepts (atMode 1) .engineer (tabAddr 0x1015 3 15) (leBytes 8 0) = true ∧
    (let st (n : Nat) := ((atMode 1).setTab 3 15 fun x => { x with ready := true, deferRun := n, group := [tabKey 3 15] }).setTabState 3 15 2
     let s := st 65536
     s.tabState 3 15 = 2 ∧ s.nat Obj.SWAP_DEFER_LIMIT ≤ (s.tab 3 15).deferRun ∧ (s.tab 3 15).group = [tabKey 3 15] ∧
     (∀ k ∈ (s.tab 3 15).group, k < 12 * 256 ∧ k % 256 < tabCount (k / 256) ∧ s.tabPending (k / 256) (k % 256) = true) ∧
     s.tabRetiring 3 15 = false ∧ ((st 0).tab 3 15).deferRun < (st 0).nat Obj.SWAP_DEFER_LIMIT) := by decide

/-! ### Witnesses: linearizer, ranges, clamps, feeds, housekeeping, contexts, containment (01, 03–06, 20, 21) -/

/-- Linearizer builds: one that may start, ones that wait, a deferred one asked for before and in this tick, the commands. -/
theorem witness_RangesAndLinearizers_builds :
    (let s := atMode 3
     s.tick % 250 = 0 ∧ (s.regionRuns 15 && !s.tabPending 0 15 && !s.tabRetiring 0 15) = true ∧ (s.rg 15).buildWaits = false) ∧
    (let s := (atMode 3).setTabState 0 15 1
     s.tick % 250 = 0 ∧ s.regionRuns 15 = true ∧ (s.regionRuns 15 && !s.tabPending 0 15 && !s.tabRetiring 0 15) = false) ∧
    (atMode 0).regionRuns 15 = false ∧
    (let s : State := { (atMode 3).setRg 15 fun x => { x with buildWaits := true, askOrd := 6 } with clk := { ord := 7 } }
     (s.rg 15).buildWaits = true ∧ (s.rg 15).askOrd < s.clk.ord ∧
     (s.regionRuns 15 && !s.tabPending 0 15 && !s.tabRetiring 0 15) = true) ∧
    (let s : State := { ((atMode 3).setRg 15 fun x => { x with buildWaits := true, askOrd := 6 }).setTabState 0 15 1 with clk := { ord := 7 } }
     (s.rg 15).buildWaits = true ∧ (s.rg 15).askOrd < s.clk.ord ∧
     (s.regionRuns 15 && !s.tabPending 0 15 && !s.tabRetiring 0 15) = false ∧ s.tabPending 0 15 = true) ∧
    (let s : State := { (atMode 3).setRg 15 fun x => { x with buildWaits := true, askOrd := 7 } with clk := { ord := 7 } }
     s.clk.ord ≤ (s.rg 15).askOrd ∧ s.tabPending 0 15 = false) ∧
    accepts (atMode 3) .engineer (objAddr 0x3001 0 3 15) [1] = true ∧ accepts (atMode 3) .engineer (objAddr 0x3002 0 3 15) [1] = true := by decide

/-- Input 255 in a range at a boundary, with its release count begun at a sample of the tick. -/
def rangeSt (range relFrom relCount : Nat) : State :=
  { (atMode 3).setInp 255 fun x => { x with range, relFrom := 409600 + relFrom, relCount } with clk := { ord := 100 } }

/-- An attack that takes effect in the next tick and one that takes effect in its own, from the ranges 2 and 0; releases at the hold, over
words and with none before; words that are not small; a blanked sample; inputs that are locked, that have a change on its way, and in
BOOT. -/
theorem witness_RangesAndLinearizers_ranges :
    (let s := rangeSt 2 0 0
     s.converterRuns 255 = true ∧ s.rangeLock 255 = none ∧ (s.inp 255).pend = none ∧ rawRange 0x9FF = (s.inp 255).range ∧
     s.nat Obj.RANGE_ATTACK 255 < (rawMant 0x9FF).natAbs ∧ (s.inp 255).evalFrom ≤ s.absSample 4095 ∧ s.blankedAt 255 4095 = false ∧
     s.blankedAt 255 4093 = false) ∧
    (let s := rangeSt 0 0 0
     rawRange 0x1FF = (s.inp 255).range ∧ s.nat Obj.RANGE_ATTACK 255 < (rawMant 0x1FF).natAbs ∧ (s.inp 255).range < 3) ∧
    (let s := rangeSt 3 4090 ((atMode 3).nat Obj.RANGE_HOLD 255 - 4)
     s.converterRuns 255 = true ∧ s.rangeLock 255 = none ∧ (s.inp 255).pend = none ∧ 0 < (s.inp 255).range ∧
     (s.inp 255).evalFrom ≤ s.absSample 4093 ∧ s.relStart 255 + [(0 : BitVec 12), 0, 0].length = 4093 ∧ s.blankedAt 255 4093 = false ∧
     relSmall (s.nat Obj.RANGE_RELEASE 255) 0 = true ∧ s.nat Obj.RANGE_HOLD 255 ≤ s.relRun 255 [0, 0, 0] + 1) ∧
    (let s := rangeSt 1 4095 ((atMode 3).nat Obj.RANGE_HOLD 255 - 1)
     s.relStart 255 + ([] : List (BitVec 12)).length = 4095 ∧ s.nat Obj.RANGE_HOLD 255 ≤ s.relRun 255 [] + 1 ∧ 0 < (s.inp 255).range) ∧
    relSmall ((atMode 3).nat Obj.RANGE_RELEASE 255) 0x9FF = false ∧ relSmall ((atMode 3).nat Obj.RANGE_RELEASE 255) 0xE00 = false ∧
    (let s := (((rangeSt 1 0 0).setVal Obj.BLANK_MASK 1 255).setVal Obj.BLANK_POLARITY 0).setPin 0 fun p => { p with level := true }
     s.blankedAt 255 4093 = true) ∧
    ((rangeSt 1 0 0).setVal Obj.RANGE_MODE 1 255).rangeLock 255 = some 0 ∧
    ((rangeSt 1 0 0).setInp 255 fun x => { x with pend := some 2 }).converterRuns 255 = true ∧
    (((rangeSt 1 0 0).setInp 255 fun x => { x with pend := some 2 }).inp 255).pend.isSome = true ∧ (atMode 0).converterRuns 0 = false := by decide

/-- A clamp episode that begins and ends, its sources cleared; edges of a BLANK pin that wait, are due, and end a short pulse. -/
theorem witness_ClampsAndBlanking :
    (Mode.frontEnd (atMode 3).mode = true ∧ (atMode 3).on Obj.CLAMP_STATE 63 = false) ∧
    ((atMode 3).setVal Obj.CLAMP_STATE 1 63).on Obj.CLAMP_STATE 63 = true ∧
    accepts (atMode 3) .operator (objAddr 0x2011 0 2 63) (leBytes 1 15) = true ∧
    ((true != bitOf ((atMode 3).nat Obj.BLANK_POLARITY) 0) = true ∨ (false != bitOf ((atMode 3).nat Obj.BLANK_POLARITY) 0) = true) ∧
    ((true != bitOf ((atMode 3).nat Obj.BLANK_POLARITY) 0) = false ∨ (false != bitOf ((atMode 3).nat Obj.BLANK_POLARITY) 0) = false) ∧
    ((atMode 3).pin 0).wait = [] ∧
    (let s := (atMode 3).setPin 3 fun x => { x with wait := [(16, true)] }
     (s.pin 3).wait = [(16, true)] ∧ 16 / 4096 ≤ s.clk.ord) ∧
    (let s := (atMode 3).setPin 3 fun x => { x with wait := [(4096, true)] }
     (s.pin 3).wait = [(4096, true)] ∧ s.clk.ord < 4096 / 4096) := by decide

/-- A feed in a state with its runs. -/
def feedSt (st : Int) (openRun normRun limitRun : Nat) : State :=
  ((atMode 3).setVal Obj.FEED_STATE st 5).setInp 5 fun x => { x with openRun, normRun, limitRun }

/-- A feed in `RAIL_LOW` with its enable and its latch. -/
def feedLow (enable : Int) (latched : Bool) : State :=
  ((((atMode 3).setVal Obj.VFEED_LOW 1 7).setVal Obj.FEED_STATE 5 255).setVal Obj.FEED_ENABLE enable 255).setInp 255 fun x => { x with latched }

/-- The feeds' states of each clause, with currents at the limits. -/
theorem witness_FeedsFollowTheirComparators :
    (let s := atMode 3
     let lim := 1000 * s.nat Obj.FEED_LIMIT 5
     let op := 1000 * s.nat Obj.FEED_OPEN_LIMIT 5
     lim ≤ lim ∧ (op - 1 < lim ∧ op - 1 < op) ∧ op < lim ∧ lim - 1 < lim ∧ op ≤ lim - 1) ∧
    (Mode.feeds (feedSt 1 3 0 0).mode && (feedSt 1 3 0 0).inService 5) = true ∧ (feedSt 1 3 0 0).val Obj.FEED_STATE 5 = 1 ∧
    ((feedSt 1 3 0 0).inp 5).openRun = 3 ∧ ((feedSt 1 2 0 0).inp 5).openRun < 3 ∧ (feedSt 2 0 3 0).val Obj.FEED_STATE 5 = 2 ∧
    ((feedSt 2 0 3 0).inp 5).normRun = 3 ∧ ((feedSt 2 0 2 0).inp 5).normRun < 3 ∧ ((feedSt 1 0 0 0).inp 5).limitRun = 0 ∧
    (feedSt 3 0 0 24).val Obj.FEED_STATE 5 = 3 ∧ ((feedSt 3 0 0 24).inp 5).limitRun = 24 ∧ ((feedSt 3 0 0 3).inp 5).limitRun = 3 ∧
    0 < ((feedSt 3 0 0 1).inp 5).limitRun ∧ 4 ≤ ((feedSt 3 0 0 4).inp 5).limitRun ∧ feedPassing 1 = true ∧ feedPassing 0 = false ∧
    (Mode.feeds (atMode 0).mode && (atMode 0).inService 5) = false ∧
    accepts (atMode 3) .operator (objAddr 0x2030 0 1 255) (leBytes 1 1) = true ∧ (atMode 3).on Obj.VFEED_LOW 7 = false ∧
    (atMode 3).val Obj.FEED_STATE 255 = 0 ∧ ((atMode 3).setVal Obj.FEED_STATE 4 255).val Obj.FEED_STATE 255 ≠ 0 ∧
    ([(1, false), (1, true), (0, false)].all fun k =>
      let s := feedLow k.1 k.2
      decide (s.on Obj.VFEED_LOW 7 = true ∧ s.mode ≠ 11 ∧ s.val Obj.FEED_STATE 255 = 5 ∧ (s.on Obj.FEED_ENABLE 255 = (k.1 == 1)) ∧
        (s.inp 255).latched = k.2)) = true ∧
    (atMode 3).val Obj.EXC_REMAINING 5 ≤ 1 ∧ 1 < ((atMode 3).setVal Obj.EXC_REMAINING 2 5).val Obj.EXC_REMAINING 5 := by decide

/-- A converter with a sequence of one feed. -/
def hkSt (f : HkSt → HkSt) : State := (atMode 3).setHk 8 f

/-- Passes that start, in either form of the period, take commits, overrun, and have started already. -/
theorem witness_HousekeepingConverters_passes :
    (([0, 25].all fun p =>
      let s := (hkSt fun x => { x with seq := [0x00900005], seqLen := 1 }).setVal Obj.HK_SEQ_PERIOD p 8
      decide (s.hkRuns 8 = true ∧ (s.hk 8).startOrd ≠ s.clk.ord + 1 ∧
        ((s.nat Obj.HK_SEQ_PERIOD 8 ≠ 0 ∧ s.tick % s.nat Obj.HK_SEQ_PERIOD 8 = 0) ∨
          (s.nat Obj.HK_SEQ_PERIOD 8 = 0 ∧ (s.hk 8).passing = false ∧ (s.hk 8).endOrd ≤ s.clk.ord)) ∧ (s.hk 8).passing = false ∧
        (s.hk 8).commit = 0 ∧ (s.hk 8).burst = .none ∧ (s.hk 8).queue = [] ∧ (s.hk 8).nextEntry 8 0 = some 0)) = true) ∧
    (let s := (hkSt fun x => { x with commit := 2 }).setVal Obj.HK_SEQ_PERIOD 25 8
     s.hkRuns 8 = true ∧ (s.hk 8).passing = false ∧ 0 < (s.hk 8).commit) ∧
    (let s := (hkSt fun x => { x with passing := true }).setVal Obj.HK_SEQ_PERIOD 25 8
     s.hkRuns 8 = true ∧ s.nat Obj.HK_SEQ_PERIOD 8 ≠ 0 ∧ s.tick % s.nat Obj.HK_SEQ_PERIOD 8 = 0 ∧ (s.hk 8).passing = true) ∧
    (let s := hkSt fun x => { x with startOrd := 1 }
     (s.hk 8).startOrd = s.clk.ord + 1) := by decide

/-- A burst of one source and of a group resumed at its last members, discarded and urgent; commits; urgent requests that are queued, start
on an idle converter, take it from a group's burst, and come with the queue full. -/
theorem witness_HousekeepingConverters_bursts :
    (let s := hkSt fun x => { x with seq := [0x00900005], seqLen := 1, burst := .seq }
     (s.hk 8).burst = .seq ∧ (s.hk 8).member = 0 ∧ hkIsGroup 8 ((s.hk 8).word 8 % 256) = false ∧
     [(-32768 : Int), 0, 0, 32767].length = hkAvg ((s.hk 8).word 8) ∧ hkIsFeed 8 ((s.hk 8).word 8 % 256) = false) ∧
    (let s := (atMode 3).setHk 0 fun x => { x with seq := [0x00900023], seqLen := 1, burst := .seq, member := 6 }
     let codes : List (List Int) := [[0, 0, 0, 0], [1, 1, 1, 1]]
     (s.hk 0).burst = .seq ∧ hkIsGroup 0 ((s.hk 0).word 0 % 256) = true ∧ codes.length = ((s.hk 0).remaining 0).length ∧
     (∀ l ∈ codes, l.length = hkAvg ((s.hk 0).word 0)) ∧ (s.hk 0).remaining 0 = [30, 31] ∧
     (∀ q ∈ (s.hk 0).remaining 0, s.val Obj.EXC_REMAINING (32 * 0 + q) = 0)) ∧
    (let s := ((atMode 3).setHk 0 fun x => { x with seq := [0x00800005], seqLen := 1, burst := .seq }).setVal Obj.EXC_REMAINING 9 5
     (s.hk 0).burst = .seq ∧ (s.hk 0).member = 0 ∧ hkIsFeed 0 ((s.hk 0).word 0 % 256) = true ∧ [(0 : Int)].length = hkAvg ((s.hk 0).word 0) ∧
     s.val Obj.EXC_REMAINING 5 ≠ 0) ∧
    (let s := hkSt fun x => { x with burst := .urgent 9 true }
     (s.hk 8).burst = .urgent 9 true ∧ (List.replicate (hkAvg (s.nat Obj.HK_URGENT_CFG 8)) (0 : Int)).length = hkAvg (s.nat Obj.HK_URGENT_CFG 8)) ∧
    accepts (atMode 3) .operator (objAddr 0x2803 0 10 8) [1] = true ∧ accepts (atMode 3) .operator (objAddr 0x2806 0 10 8) (leBytes 1 5) = true ∧
    ((atMode 3).hk 8).queue.length < 4 ∧ (∀ q ∈ ((atMode 3).hk 8).queue, q.source ≠ 5) ∧
    (let s := hkSt fun x => { x with queue := [⟨5, true⟩] }
     s.hkRuns 8 = true ∧ (s.hk 8).queue = [⟨5, true⟩] ∧ (s.hk 8).burst = .none) ∧ (atMode 0).hkRuns 8 = false ∧
    (let s := (atMode 3).setHk 0 fun x => { x with queue := [⟨5, true⟩], seq := [0x00900020], seqLen := 1, burst := .seq }
     s.hkRuns 0 = true ∧ (s.hk 0).queue = [⟨5, true⟩] ∧ (s.hk 0).burst = .seq ∧ (s.hk 0).mayAbort 0 ⟨5, true⟩ = true ∧
     (List.replicate 7 [(0 : Int), 0, 0, 0]).length < ((s.hk 0).remaining 0).length ∧ hkAvg ((s.hk 0).word 0) = 4) ∧
    (let s := (atMode 3).setVal Obj.HK_URGENT_ON_FAULT 1 8
     s.hkRuns 8 = true ∧ s.on Obj.HK_URGENT_ON_FAULT 8 = true ∧ (s.hk 8).queue.length < 4 ∧ (∀ q ∈ (s.hk 8).queue, q.source ≠ hkCentre 8)) ∧
    (let s := (hkSt fun x => { x with queue := List.replicate 4 ⟨5, true⟩ }).setVal Obj.HK_URGENT_ON_FAULT 1 8
     s.hkRuns 8 = true ∧ s.on Obj.HK_URGENT_ON_FAULT 8 = true ∧ 4 ≤ (s.hk 8).queue.length ∧ (∀ q ∈ (s.hk 8).queue, q.source ≠ hkCentre 8)) ∧
    ((atMode 3).setVal Obj.HK_URGENT_ON_FAULT 0 8).on Obj.HK_URGENT_ON_FAULT 8 = false := by decide

/-- A context of input 255's last channel in a state, with a command that waits. -/
def ctxSt (c : Ctx) (cmd arg : Nat) : State :=
  { (atMode 3).setSl 255 fun x => { x with ctx := smPut {} x.ctx (8 * 255 + 7) c } with
    ctxQueue := [.cmd 255 (ctxCmdWord cmd arg 2047 2047)] }

/-- Restarts and periods that end and go on; writes and commands of contexts in every mode of a context; a boost that falls. -/
theorem witness_RegionsAndContexts :
    (atMode 3).val Obj.WARM_REMAINING 15 ≤ 1 ∧ 1 < ((atMode 3).setVal Obj.WARM_REMAINING 2 15).val Obj.WARM_REMAINING 15 ∧
    (let s := ((atMode 3).setVal Obj.SPEC_INT_TICKS 4).setRg 15 fun x => { x with specOn := true, specLen := 4 }
     (s.rg 15).specOn = true ∧ 0 < (s.rg 15).specLen ∧ s.nat Obj.SPEC_INT_TICKS ≤ (s.rg 15).specLen ∧
     ((s.rg 15).specFirst, (s.rg 15).specLen) ∉ s.periods) ∧
    (let s := ((atMode 3).setVal Obj.SPEC_INT_TICKS 4).setRg 15 fun x => { x with specOn := true, specLen := 3 }
     (s.rg 15).specLen < s.nat Obj.SPEC_INT_TICKS) ∧
    accepts (atMode 3) .engineer (objAddr 0x4031 0 6 255) (leBytes 16 (Ctx.word (smGet {} ((atMode 3).sl 255).ctx0 0))) = true ∧
    (([1, 2, 3, 4, 5].all fun c => accepts (atMode 3) .owner (objAddr 0x4032 0 1 255) (leBytes 8 (ctxCmdWord c 0 2047 2047))) = true) ∧
    accepts (atMode 3) .owner (objAddr 0x4032 0 1 255) (leBytes 8 (ctxCmdWord 6 0xFF 0 2047)) = true ∧
    (([0, 1, 2, 3].all fun st => [1, 2, 3, 4, 5, 6].all fun cmd =>
      let s := ctxSt { state := st } cmd 0
      decide (s.ctxQueue = [.cmd 255 (ctxCmdWord cmd 0 2047 2047)] ∧ (smGet {} (s.sl (2047 / 8)).ctx (8 * 255 + 2047 % 8)).state = st ∧
        st ≠ 4)) = true) ∧
    (let s := ctxSt { state := 4 } 4 0
     (smGet {} (s.sl (2047 / 8)).ctx (8 * 255 + 2047 % 8)).state = 4 ∧
     (smGet {} (s.sl (2047 / 8)).ctx (8 * 255 + 2047 % 8)).iso = false ∧ s.inService 255 = true) ∧
    (let s : State := { ctxSt { state := 4 } 4 0 with blobs := [] } |>.setBlob Obj.INPUT_SERVICE_MASK []
     (smGet {} (s.sl (2047 / 8)).ctx (8 * 255 + 2047 % 8)).iso = false ∧ s.inService 255 = false) ∧
    (smGet {} ((ctxSt { state := 4, iso := true } 4 0).sl 255).ctx (8 * 255 + 7)).iso = true ∧
    (let s := ((atMode 3).setVal Obj.SUPP_BOOST 3 255).setSl 255 fun x => { x with quiet := 65536 }
     0 < s.nat Obj.SUPP_BOOST 255 ∧ s.nat Obj.SUPP_BOOST_RELEASE ≤ (s.sl 255).quiet ∧ (atMode 3).nat Obj.SUPP_BOOST 255 = 0) := by decide

/-- Elements set aside, returned and reset. -/
theorem witness_ElementsLeaveAndReset_commands :
    accepts (atMode 3) .engineer (objAddr 0x1081 0 4 7) [1] = true ∧ (atMode 3).dieOut 7 = false ∧
    (let s := (atMode 1).setVal Obj.DIE_STATE 1 7
     accepts s .engineer (objAddr 0x1081 0 4 7) [0] = true ∧ s.dieOut 7 = true) ∧
    accepts (atMode 3) .engineer (objAddr 0x1088 0 1 255) [1] = true ∧ (atMode 3).val Obj.CH_STATE 255 = 0 ∧
    (let s := (atMode 1).setVal Obj.CH_STATE 1 255
     accepts s .engineer (objAddr 0x1088 0 1 255) [0] = true ∧ s.val Obj.CH_STATE 255 ≠ 0) ∧
    (let s := (atMode 3).setInp 255 fun x => { x with range := 0, stuckRun := 61440 }
     s.converterRuns 255 = true ∧ s.rangeLock 255 = none ∧ (s.inp 255).range = 0 ∧ 65536 ≤ (s.inp 255).stuckRun + 4096 ∧ s.val Obj.CH_STATE 255 = 0) ∧
    ((atMode 3).inp 255).range ≠ 0 ∧
    (([(1, 255), (2, 63), (3, 15), (4, 7)].all fun e => accepts (atMode 3) .engineer (objAddr 0x1050 0 e.1 e.2) [1]) = true) := by decide

set_option maxRecDepth 10000 in
/-- Their boundaries. -/
theorem witness_ElementsLeaveAndReset_boundaries :
    (let s : State := { (atMode 1).setVal Obj.DIE_STATE 1 7 with cont := { isolating := [(7, 0)] } }
     s.cont.isolating = [(7, 0)] ∧ s.cont.returning = [] ∧ s.dieOut 7 = true ∧ s.dieOff 7 = false ∧ s.mode = 1 ∧
     (∀ m, m < 256 → s.inService m = s.served m)) ∧
    (let s : State := { (atMode 3).setVal Obj.DIE_STATE 1 7 with cont := { isolating := [(7, 0)] } }
     s.cont.isolating = [(7, 0)] ∧ s.dieOut 7 = true ∧ s.dieOff 7 = false ∧ 2 ≤ s.mode ∧ s.mode ≤ 9 ∧
     (∃ e, e < 8 ∧ e ≠ 7 ∧ s.dieOff e = false) ∧ (∀ m, m < 256 → s.inService m = s.served m)) ∧
    (([2, 9].all fun m =>
      let s : State := { (atMode m).setVal Obj.DIE_STATE 1 7 with cont := { isolating := [(7, 0)], out := [0, 1, 2, 3, 4, 5, 6] } }
      decide (s.cont.isolating = [(7, 0)] ∧ s.cont.returning = [] ∧ s.dieOut 7 = true ∧ s.dieOff 7 = false ∧ 2 ≤ s.mode ∧ s.mode ≤ 9 ∧
        (List.range 7).all s.dieOff = true)) = true) ∧
    (atMode 3).cont.isolating = [] ∧ (atMode 3).cont.softs = [] ∧ 7 ∉ (atMode 3).cont.shaken ∧
    (let s : State := { atMode 1 with cont := { returning := [7] } }
     s.cont.isolating = [] ∧ s.cont.returning = [7] ∧ s.dieOut 7 = false) ∧
    (let s : State := { (atMode 1).setVal Obj.CH_STATE 1 255 with cont := { quarantining := [(255, 0)] } }
     s.cont.quarantining = [(255, 0)] ∧ s.cont.returning = [] ∧ s.val Obj.CH_STATE 255 ≠ 0 ∧ 255 ∉ s.cont.quar ∧
     (∀ m, m < 256 → s.inService m = s.served m)) ∧
    (let s : State := { atMode 1 with cont := { returning := [256 + 255] } }
     s.cont.quarantining = [] ∧ s.cont.returning = [256 + 255] ∧ s.val Obj.CH_STATE 255 = 0) ∧
    (let s : State := { atMode 3 with cont := { softs := [(1, 255, 9)] } }
     s.cont.softs = [(1, 255, 9)] ∧ s.dieOut (255 / 32) = false) ∧
    (let s : State := { atMode 3 with cont := { softs := [(4, 7, 9)] } }
     s.cont.softs = [(4, 7, 9)] ∧ s.dieOut 7 = false) ∧
    (let s : State := { locked 3 with cont := { resetting := [(7, 5)], shaken := [7] } }
     smGet 0 s.cont.resetting 7 ≠ 0 ∧ 7 ∈ s.cont.shaken ∧ s.on Obj.PLL_LOCK 7 = true) := by decide

/-! ### Witnesses: triggers and the Domino bus (10) -/

/-- The samples up to one whose newest values are given, with a filter that passes its newest sample. -/
def crossing (l : List Int) : CrossingIn := { sample := 4095, lin := l ++ List.replicate (64 - l.length) 0 }

/-- Input 255 with its trigger path on. -/
def trigSt : State :=
  { ((((((atMode 7).setVal Obj.TRIG_ENABLE 1 255).setVal Obj.TRIG_EDGE 2 255).setVal Obj.TRIG_INTERP 0 255).setVal Obj.TRIG_LEVEL 50 255).setVal
      Obj.BLANK_GATES_TDC 0 255).setVal Obj.TRIG_INHIBIT_MASK 0 255 with
    liveBlobs := [(key Obj.TRIG_FILTER_SHADOW 15 Obj.TRIG_FILTER_SHADOW.subLo, [0xFF, 0x7F])] }

/-- What the comparator of input 255 finds at a crossing: it rises to the level, or falls below it. -/
def meets (s : State) (x : CrossingIn) (up : Bool) : Bool :=
  let e := envelope3 (trigSet (holed (s.trigHoles 255) (slice (s.liveBlob Obj.TRIG_FILTER_SHADOW 15) 0 512)) (s.nat Obj.TRIG_FILTER_SEL 255)) x.lin
  let level := s.nat Obj.TRIG_LEVEL 255
  if up then decide (nth 0 e 1 < level ∧ level ≤ nth 0 e 0) else decide (level ≤ nth 0 e 1 ∧ nth 0 e 0 < level)

/-- Crossings in BOOT, of samples the comparator has taken, disarmed, gated by blanking, inhibited, inside the re-arm, past it, and with
older samples that the comparator has not taken. -/
theorem witness_TriggersAndRearms_crossing :
    (let s := trigSt
     let x := crossing [20000]
     (Mode.record s.mode && s.on Obj.TRIG_ENABLE 255 && s.converterRuns 255 && s.inService 255) = true ∧
     (s.trigCh 255).seen ≤ s.absSample x.sample ∧ x.lin.length ≤ 64 ∧ s.val Obj.TRIG_EDGE 255 = 2 ∧
     Flag.any (s.inhibits 255 x.sample) (BitVec.ofInt 16 (s.val Obj.TRIG_INHIBIT_MASK 255)) = false ∧ s.blankedAt 255 x.sample = false ∧
     (s.trigCh 255).armedR = true ∧ (s.trigCh 255).armedF = true ∧ (s.trigCh 255).rearm = 0) ∧
    (Mode.record (atMode 0).mode && (atMode 0).on Obj.TRIG_ENABLE 255 && (atMode 0).converterRuns 255 && (atMode 0).inService 255) = false ∧
    (let s := trigSt.setTrigCh 255 fun x => { x with seen := 4096 }
     s.absSample (crossing []).sample < (s.trigCh 255).seen) ∧
    ((trigSt.setTrigCh 255 fun x => { x with armedR := false, armedF := false }).trigCh 255).armedR = false ∧
    (let s := ((((trigSt.setVal Obj.BLANK_MASK 1 255).setVal Obj.BLANK_POLARITY 0).setVal Obj.BLANK_GATES_TDC 1 255).setPin 0 fun p => { p with level := true })
     s.blankedAt 255 4095 = true ∧ s.on Obj.BLANK_GATES_TDC 255 = true) ∧
    (let s := (trigSt.setVal Obj.CLAMP_STATE 1 63).setVal Obj.TRIG_INHIBIT_MASK 0xFFFF 255
     Flag.any (s.inhibits 255 4095) (BitVec.ofInt 16 (s.val Obj.TRIG_INHIBIT_MASK 255)) = true ∧ s.on Obj.BLANK_GATES_TDC 255 = false) ∧
    (((trigSt.setTrigCh 255 fun x => { x with rearm := 10000000 }).trigCh 255).rearm = 10000000) ∧
    (let x : CrossingIn := { sample := 4095, lin := List.replicate 65 0 }
     64 < x.lin.length ∧ smWf {} trigSt.trig.chans = true ∧ (4094 : Fin 4096).val + 1 = x.sample.val ∧
     (trigSt.trigCh 255).seen ≤ trigSt.absSample 4094) := by decide

set_option maxRecDepth 10000 in
/-- The levels of crossings that rise, fall, and do neither, with the parabola as with the line. -/
theorem witness_TriggersAndRearms_level :
    meets trigSt (crossing [20000]) true = true ∧ meets trigSt (crossing [0, 20000]) false = true ∧ meets trigSt (crossing [100]) true = false ∧
    meets trigSt (crossing [100]) false = false ∧ meets (trigSt.setVal Obj.TRIG_INTERP 1 255) (crossing [20000]) true = true := by decide

/-- A trigger of member 1 of cluster 0. -/
def member (n : Nat) : MemberTrig := { member := n, stamp := 0, level := 0, element := n, members := 1, origin := n, cond := 0, uncal := false }

/-- The cluster level with a rule and a state. -/
def coinSt (k : Int) (c : CoinSt) : State :=
  { ((((atMode 7).setVal Obj.TRIG_ENABLE 1 1).setVal Obj.TRIG_ENABLE 1 0).setCoin 1 0 fun _ => c) with
    live := [(key Obj.COIN_CL_K 0 Obj.COIN_CL_K.subLo, k)] }

/-- The module level with an external input and a state. -/
def modSt (c : CoinSt) : State :=
  { (atMode 7).setCoin 4 0 fun _ => c with live := [(key Obj.COIN_MOD_SOURCES 0 Obj.COIN_MOD_SOURCES.subLo, 2 ^ 24)] }

/-- A member inside the re-arm, one that issues alone, one that opens a window and one that joins; windows that close short and full. -/
theorem witness_CoincidenceLevels :
    (let s := coinSt 1 { rearm := 100000 }
     (Mode.record s.mode && s.memberOn 1 0 (member 1) && decide ((member 1).member < 8)) = true ∧
     s.arrivalAt 1 (member 1) < (s.coin 1 0).rearm) ∧
    (let s := coinSt 1 {}
     (Mode.record s.mode && s.memberOn 1 0 (member 1) && decide ((member 1).member < 8)) = true ∧
     (s.coin 1 0).rearm ≤ s.arrivalAt 1 (member 1) ∧ (s.coin 1 0).win = none ∧ (s.coinRule 1 0 (s.ordOf 0)).1 < 2) ∧
    (let s := coinSt 2 {}
     (Mode.record s.mode && s.memberOn 1 0 (member 1) && decide ((member 1).member < 8)) = true ∧
     (s.coin 1 0).rearm ≤ s.arrivalAt 1 (member 1) ∧ (s.coin 1 0).win = none ∧ 2 ≤ (s.coinRule 1 0 (s.ordOf 0)).1) ∧
    (let w : CoinWin := { t0 := 0, k := 2, w := 0, joined := [member 0] }
     let s := coinSt 2 { win := some w }
     (Mode.record s.mode && s.memberOn 1 0 (member 1) && decide ((member 1).member < 8)) = true ∧
     (s.coin 1 0).rearm ≤ s.arrivalAt 1 (member 1) ∧ (s.coin 1 0).win = some w ∧ (member 1).stamp ≤ w.t0 + 128 * w.w ∧
     (∀ j ∈ w.joined, j.member ≠ (member 1).member) ∧ (s.coin 1 0).held = [] ∧ w.joined.length < w.k) ∧
    (let w : CoinWin := { t0 := 0, k := 2, w := 0, joined := [member 0, member 1] }
     let s := coinSt 2 { win := some w }
     Mode.record s.mode = true ∧ (s.coin 1 0).win = some w ∧ (s.coin 1 0).held = [] ∧ w.k ≤ w.joined.length ∧
     (s.tick + 1) * 4096 ≤ s.coinCloseAt 1 { w with w := 4096 }) ∧
    (let w : CoinWin := { t0 := 0, k := 2, w := 0, joined := [member 0] }
     let s : State := { coinSt 2 { win := some w } with clk := { tick := 1, ord := 1 } }
     Mode.record s.mode = true ∧ (s.coin 1 0).win = some w ∧ s.coinCloseAt 1 w < (s.tick + 1) * 4096 ∧ w.joined.length < w.k) ∧
    (let w : CoinWin := { t0 := 0, k := 1, w := 0, joined := [member 0] }
     let s : State := { coinSt 2 { win := some w } with clk := { tick := 1, ord := 1 } }
     s.coinCloseAt 1 w < (s.tick + 1) * 4096 ∧ w.k ≤ w.joined.length) ∧
    (let m := { member 24 with level := 6 }
     let w : CoinWin := { t0 := 0, k := 2, w := 0, joined := [member 0] }
     ([modSt {}, modSt { win := some w }].all fun s =>
       decide (Mode.record s.mode = true ∧ s.memberOn 4 0 m = true ∧ (s.coin 4 0).rearm ≤ s.arrivalAt 4 m ∧ 8 ≤ m.member)) = true) ∧
    Mode.record (atMode 0).mode = false ∧ (coinSt 1 {}).coin 1 0 = {} := by decide

/-- A prescale level that falls and one that waits. -/
theorem witness_TriggersAndRearms_release :
    (let s := ((atMode 3).setVal Obj.TRIG_PRESCALE_LEVEL 1).setTrig fun t => { t with quiet := 65536 }
     0 < s.nat Obj.TRIG_PRESCALE_LEVEL ∧ s.nat Obj.TRIG_RR_RELEASE ≤ s.trig.quiet) ∧
    (atMode 3).trig.quiet < (atMode 3).nat Obj.TRIG_RR_RELEASE := by decide

/-- A candidate whose window is written up to its last tick. -/
def recSt (e : Candidate) : State :=
  { atMode 7 with clk := { tick := 9, ord := 9 }, hist := { newest := some 5 }, spec := { cands := [(8191, e)] } }

/-- A module on a Domino bus: lane 32 up, lane 47 down, both in `ACTIVE`. -/
def domSt (role up down : Int) : State :=
  ((((((atMode 7).setVal Obj.DOMINO_ROLE role).setVal Obj.DOMINO_UP_LANE up).setVal Obj.DOMINO_DOWN_LANE down).setVal
    Obj.LANE_STATE 6 32).setVal Obj.LANE_STATE 6 47).setVal Obj.ARR_REQUIRE_LOCK 0

/-- Bits that are a good message of a type. -/
def dom (type stamp : Nat) : BitVec 128 := DomMsg.pack { type, module := 0, stamp } 0

set_option maxRecDepth 10000 in
/-- Messages that fail their CRC, a first report, a confirmation, a veto, a late one, an array trigger, and a rate. -/
theorem witness_DominoMessagesAndRoundTrips_messages :
    (let s := domSt 1 255 32
     (Mode.lanes s.mode && s.laneState 32 == 6) = true ∧ domCrcOk (1 : BitVec 128).toNat = false ∧
     s.val Obj.DOMINO_ROLE ≠ 0 ∧ (domUnpack (dom 1 0).toNat).type = 1 ∧ domCrcOk (dom 1 0).toNat = true ∧
     s.nat Obj.DOMINO_LINK_DELAY 32 = 0xFFFFFFFF ∧ Mode.record s.mode = true ∧ s.domDownLane = some 32 ∧
     s.on Obj.ARR_REQUIRE_LOCK = false ∧ s.trig.arrT0 = none ∧ s.trig.closedTo = none ∧ s.trig.held = [] ∧
     0 < (recover40 0 0).toNat + s.nat Obj.ARR_WINDOW + s.nat Obj.ARR_SETTLE ∧ s.laneFlushing 32 = false ∧
     (domUnpack (dom 7 0).toNat).type = 7 ∧ domCrcOk (dom 7 0).toNat = true) ∧
    (let s := (domSt 0 32 255).setCand 8191 fun _ => { state := 1, stamp := 2 ^ 40 + 5 }
     s.val Obj.DOMINO_ROLE = 0 ∧ s.nat Obj.DOMINO_UP_LANE = 32 ∧ s.nat Obj.MODULE_NUMBER = 0 ∧ (s.cand 8191).state = 1 ∧
     (s.cand 8191).stamp % 2 ^ 40 = 5) ∧
    (let m := domUnpack (DomMsg.pack { type := 2, module := 0, cand := 8191, stamp := 5 } 0).toNat
     m.type = 2 ∧ m.cand = 8191 ∧ m.stamp = 5 ∧ m.module = 0) ∧
    (let s : State := { domSt 0 32 255 with spec := { cands := [(8191, { state := 1, stamp := 5 })] } }
     s.domDownLane = none ∧ s.spec.cands = [(8191, { state := 1, stamp := 5 })] ∧ (recover40 0 5).toNat = 5 ∧
     (domUnpack (dom 4 5).toNat).type = 4 ∧ (domUnpack (dom 4 5).toNat).stamp = 5) ∧
    ((domSt 0 32 255).cand 8191).state ≠ 1 ∧ ({ domSt 1 255 32 with clk := { flushing := [.lane 32] } } : State).laneFlushing 32 = true := by
  decide

set_option maxRecDepth 10000 in
/-- Probes answered and not, an echo taken and not, probes sent at the entry into ACTIVE and in the module's tick, and not sent; stamps that can
have departed when they say, and that cannot. -/
theorem witness_DominoMessagesAndRoundTrips_probes :
    (let s := (((domSt 0 32 255).setVal Obj.DOMINO_LINK_DELAY 5 32).setBlob Obj.LINK_PARTNER_EXCH [0, 0, 0, 0, 0, 0, 0, 0, 0, 0, 2] 32).setLn 32
       fun x => { x with exchTx := some (BitVec.ofNat 128 (2 ^ 81)) }
     (Mode.lanes s.mode && s.laneState 32 == 6 && !s.laneFlushing 32 && domCrcOk (dom 5 0).toNat) = true ∧
     (domUnpack (dom 5 0).toNat).type = 5 ∧ domCrcOk (dom 6 0).toNat = true ∧ s.domAdvertised 32 = true ∧
     ((s.ln 32).ctrl.filter fun c => decide (0 < c.1)).length < 16 ∧
     (domUnpack (dom 6 0).toNat).type = 6 ∧ s.domProbes 32 = true ∧ smGet 0 s.trig.probed 32 ≤ (s.ln 32).actOrd ∧
     s.nat Obj.DOMINO_LINK_DELAY 32 ≠ 0xFFFFFFFF ∧
     recover40 1000 2000000 > (1000 : Int) - s.nat Obj.DOMINO_LINK_DELAY 32 + s.nat Obj.DOMINO_DELAY_TOL ∧
     ¬ recover40 1000 0 > (1000 : Int) - s.nat Obj.DOMINO_LINK_DELAY 32 + s.nat Obj.DOMINO_DELAY_TOL) ∧
    (let s : State := { (domSt 0 32 255).setBlob Obj.LINK_PARTNER_EXCH [0, 0, 0, 0, 0, 0, 0, 0, 0, 0, 2] 32 with
       clk := { tick := 1024, ord := 9 }, trig := { probed := [(32, 9)] } }
     s.tick % 250000 = 1024 + s.nat Obj.MODULE_NUMBER ∧ smGet 0 s.trig.probed 32 ≤ s.clk.ord ∧ s.domProbes 32 = true) ∧
    (let s : State := { domSt 0 32 255 with clk := { tick := 1025, ord := 9 }, trig := { probed := [(32, 9)] } }
     (s.ln 32).actOrd < smGet 0 s.trig.probed 32 ∧ s.tick % 250000 ≠ 1024 + s.nat Obj.MODULE_NUMBER) ∧
    (let s : State := { domSt 0 32 255 with clk := { tick := 1024, ord := 9 }, trig := { probed := [(32, 10)] } }
     s.clk.ord < smGet 0 s.trig.probed 32) ∧
    (domSt 0 32 255).domAdvertised 32 = false ∧ (domSt 0 32 255).domProbes 32 = false ∧ (domSt 0 32 255).laneState 33 ≠ 6 := by decide

/-- An array window of one report that closes and one that is open; pulses that begin and end in the tick, that wait, and in a mode without
records; edges of the wired input, counted, that confirm, and that follow too soon. -/
theorem witness_ArrayWindowAndWiredPins :
    (let r : Report := { module := 0, cand := 8191, level := 1, stamp := 0, unlocked := false }
     let st (tick : Nat) : State := { (domSt 1 255 32).setVal Obj.ARR_BROADCAST 0 with clk := { tick }, trig := { arrT0 := some 0, joined := [r] } }
     let s := st (2 ^ 20)
     s.trig.arrT0 = some 0 ∧ s.trig.joined = [r] ∧ s.trig.held = [] ∧ r.module = s.nat Obj.MODULE_NUMBER ∧ s.on Obj.ARR_BROADCAST = false ∧
     0 + s.nat Obj.ARR_WINDOW + s.nat Obj.ARR_SETTLE < s.timeNow + 2 ^ 19 ∧
     (st 0).timeNow + 2 ^ 19 ≤ 2 ^ 19 + s.nat Obj.ARR_WINDOW + s.nat Obj.ARR_SETTLE) ∧
    (atMode 7).trig.arrT0 = none ∧ (atMode 7).trig.pulses = [] ∧ Mode.record (atMode 1).mode = false ∧
    (let s := (atMode 7).setTrig fun t => { t with pulses := [(4095, 4095)], trgo := true }
     s.trig.pulses = [(4095, 4095)] ∧ s.trig.trgo = true ∧ Mode.record s.mode = true ∧ 4095 < (s.tick + 1) * 4096 ∧ (s.tick + 1) * 4096 ≤ 4096) ∧
    (let s := (atMode 1).setVal Obj.TRGI_ENABLE 1
     s.on Obj.TRGI_ENABLE = true ∧ Mode.lanes s.mode = true ∧ Mode.record s.mode = false ∧ s.trig.trgiLast = none) ∧
    (let s := (recSt { state := 1, stamp := 5000 - (atMode 7).nat Obj.TRGI_DELAY }).setVal Obj.TRGI_ENABLE 1
     s.on Obj.TRGI_ENABLE = true ∧ Mode.record s.mode = true ∧ s.trig.trgiLast = none ∧ (s.cand 8191).state = 1 ∧
     (s.cand 8191).stamp = 5000 - s.nat Obj.TRGI_DELAY) ∧
    (let s := ((atMode 1).setVal Obj.TRGI_ENABLE 1).setTrig fun t => { t with trgiLast := some 1000 }
     s.trig.trgiLast = some 1000 ∧ 1000 ≤ 1255 ∧ 1255 < 1000 + 256 ∧ 1000 + 256 ≤ 1256 ∧ s.on Obj.TRGI_ENABLE = true ∧
     Mode.lanes s.mode = true ∧ Mode.record s.mode = false) ∧
    ((atMode 1).setVal Obj.TRGI_ENABLE 0).on Obj.TRGI_ENABLE = false := by decide

/-! ### Witnesses: history, records, candidates, converters (11–14) -/

/-- A run in progress. -/
def histSt (tick : Nat) (inputs : List Nat) : State :=
  { atMode 7 with clk := { tick, ord := tick }, hist := { on := true, inputs } }

set_option maxRecDepth 10000 in
/-- A slot to allocate beside a pinned older one and one that is there, segments to start at a run's first tick and at a 32nd tick, and a
tick between. -/
theorem witness_HistoryAndRecords_history :
    (let s := histSt 64 [255]
     s.hist.on = true ∧ s.slotOf s.run (s.tick / 64) = none ∧ s.tick % 32 = 0 ∧ s.coder.segTick ≠ some s.tick ∧
     (∀ n ∈ s.hist.inputs, n < 256) ∧ slice (s.liveBlob Obj.CODER_TAB_SHADOW (255 / 16)) 0 1 = [0]) ∧
    (let x : Slot := { j := 0, first := 0, run := 0, state := 1, bits := 6, granules := [], count := 0, inputs := [] }
     let s : State := { atMode 7 with hist := { on := true, slots := [x] }, coder := { segTick := some 0 } }
     (s.slotOf s.run (s.tick / 64)).isSome = true ∧ s.coder.segTick = some s.tick) ∧
    (let s := (histSt 65 [255]).setVal Obj.HIST_RUN_START 65
     s.hist.on = true ∧ s.tick = s.nat Obj.HIST_RUN_START ∧ s.coder.segTick ≠ some s.tick) ∧
    (let s := histSt 65 [255]
     s.tick ≠ s.nat Obj.HIST_RUN_START ∧ s.tick % 32 ≠ 0) ∧
    (atMode 7).hist.on = false := by decide

/-- A record at each stage: cut, measured, with a late slot, sealed with no notice and past its engines' window and before, exported, held
back by the queue, and each in HALT. -/
theorem witness_HistoryAndRecords_records :
    (let s := recSt { state := 1, first := 3, ticks := 3 }
     let w := s.measWindow (s.cand 8191)
     s.mode ≠ 11 ∧ (s.cand 8191).state = 1 ∧ (s.cand 8191).cutDone = false ∧ s.windowWritten (s.cand 8191) = true ∧
     (s.cand 8191).measured = false ∧ s.lateWithin (s.cand 8191) w.1 w.2 = false ∧ s.hist.newest = some 5 ∧ w.2 ≤ 4096 * (5 + 1)) ∧
    (recSt { state := 1, first := 3, ticks := 4 }).windowWritten { state := 1, first := 3, ticks := 4 } = false ∧ (atMode 7).hist.newest = none ∧
    (([([], 0), ([3], 65)].all fun k =>
      let s : State := { recSt { state := 2, cutDone := true, measured := true, notices := k.1, noticeTick := 0 } with clk := { ord := k.2 } }
      decide (s.mode ≠ 11 ∧ (s.cand 8191).state = 2 ∧ (s.cand 8191).isSealed = false ∧ (s.cand 8191).cutDone = true ∧
        (s.cand 8191).measured = true ∧ ((s.cand 8191).notices = [] ∨ (s.cand 8191).noticeTick + s.nat Obj.ENG_MEAS_WINDOW < s.clk.ord))) = true) ∧
    (let s : State := { recSt { state := 2, cutDone := true, measured := true, notices := [3], noticeTick := 0 } with clk := { ord := 64 } }
     (s.cand 8191).notices ≠ [] ∧ s.clk.ord ≤ (s.cand 8191).noticeTick + s.nat Obj.ENG_MEAS_WINDOW) ∧
    (let s := recSt { state := 2, isSealed := true }
     Mode.record s.mode = true ∧ (s.cand 8191).exporting = false ∧ (s.cand 8191).ahead = false ∧ s.queueCovers (s.cand 8191) = true ∧
     (∀ q ∈ s.spec.cands, q.1 ≠ 8191 → q.2.state = 2 → q.2.exporting = true ∨ q.2.ahead = true ∨ (s.cand 8191).seq < q.2.seq)) ∧
    ({ recSt { state := 2 } with vals := (atMode 11).vals } : State).mode = 11 ∧
    ((recSt { state := 2, isSealed := true, exporting := true }).cand 8191).exporting = true := by decide

set_option maxRecDepth 10000 in
/-- A record whose slot is completed a tick late. -/
theorem witness_HistoryAndRecords_late :
    (let x : Slot := { j := 0, first := 0, run := 0, state := 1, bits := 6, granules := [], count := 0, inputs := [] }
     let e : Candidate := { state := 1, first := 3, ticks := 3 }
     let s : State := { recSt e with hist := { newest := some 5, lateSlot := some x } }
     s.lateWithin e (s.measWindow e).1 (s.measWindow e).2 = true) := by decide

/-- A record of `n` bytes of blocks, committed and sealed. -/
def longRec (n : Nat) : Candidate := { state := 2, isSealed := true, blocks := List.replicate n 0 }

theorem longRec_size (n : Nat) : (longRec n).size = 80 + n := by simp [longRec, Candidate.size]

/-- A record that the output queues cannot take. -/
theorem witness_HistoryAndRecords_heldBack (n : Nat) (h : 2 ^ 31 ≤ n) :
    (recSt (longRec n)).cand 8191 = longRec n ∧ (recSt (longRec n)).queueCovers (longRec n) = false ∧ (longRec n).waits = false ∧
    (recSt { longRec n with waits := true }).queueCovers { longRec n with waits := true } = false ∧
    (longRec n).state = 2 ∧ (longRec n).isSealed = true ∧ (longRec n).exporting = false ∧ (longRec n).ahead = false := by
  have hc (e : Candidate) (he : e.size = 80 + n) : (recSt e).queueCovers e = false := by
    unfold State.queueCovers
    rw [he]
    simp only [decide_eq_false_iff_not, not_le]
    omega
  exact ⟨rfl, hc _ (longRec_size n), rfl, hc _ (longRec_size n), rfl, rfl, rfl, rfl⟩

/-- A candidate at its deadline and before it, ones that a confirmation with and without a stamp and a veto name, one sent ahead and its
commit, and each command with nothing to do. -/
theorem witness_CandidateOutcomes :
    (let s := recSt { state := 1, deadline := 9 }
     s.mode ≠ 11 ∧ s.trig.decisions = [] ∧ (s.cand 8191).state = 1 ∧ (s.cand 8191).deadline ≤ s.tick ∧ (s.cand 8191).ahead = false ∧
     s.val Obj.SPEC_EXPIRY_ACTION ≠ 1 ∧ (s.setVal Obj.SPEC_EXPIRY_ACTION 1).val Obj.SPEC_EXPIRY_ACTION = 1) ∧
    (let s := recSt { state := 1, deadline := 10 }
     s.trig.decisions = [] ∧ s.tick < (s.cand 8191).deadline) ∧
    (([(true, none), (true, some 7), (false, none), (false, some 7)].all fun k =>
      let d : Decision := { confirm := k.1, cands := [8191], stamp := k.2, ord := 8 }
      let s := (recSt { state := 1, stamp := 2 ^ 40 + 7 }).setTrig fun t => { t with decisions := [d] }
      decide (s.mode ≠ 11 ∧ s.trig.decisions = [d] ∧ 8 < s.clk.ord ∧ (s.cand 8191).state = 1 ∧
        (k.2 = none ∨ k.2 = some ((s.cand 8191).stamp % 2 ^ 40)) ∧ (s.cand 8191).ahead = false)) = true) ∧
    (let s := ((recSt { state := 1, isSealed := true }).setVal Obj.SPEC_SEND_AHEAD 1).setVal Obj.SPEC_PARTNER_CAPABLE 1
     (decide (s.mode ≠ 11) && s.on Obj.SPEC_SEND_AHEAD && s.on Obj.SPEC_PARTNER_CAPABLE && s.queueCovers (s.cand 8191)) = true ∧
     (s.cand 8191).state = 1 ∧ (s.cand 8191).isSealed = true ∧ (s.cand 8191).queued = false ∧ (∀ f ∈ s.fr.queue, ¬(f.cls = 8 ∧ f.type = 1)) ∧
     (∀ q ∈ s.spec.cands, q.1 ≠ 8191 → q.2.state = 1 → q.2.isSealed = true → q.2.queued = true ∨ (s.cand 8191).sealNo < q.2.sealNo)) ∧
    (let s := recSt { state := 2, ahead := true }
     s.mode ≠ 11 ∧ (s.cand 8191).state = 2 ∧ (s.cand 8191).ahead = true ∧ (s.cand 8191).commitQueued = false) ∧
    ((recSt { state := 2, ahead := true, commitQueued := true }).cand 8191).commitQueued = true ∧
    ((recSt { state := 1 }).cand 8191).isSealed = false ∧ (atMode 11).mode = 11 := by decide

/-- A converter of input 255 whose loop is locked. -/
def tdcSt (m : Int) (f : TdcSt → TdcSt) : State := ((locked m).setVal Obj.TDC_DLL_LOCK 1 7).setTdc 255 f

/-- Loops that have run in band for 256 ticks and for one less, that unlock; histograms that are short, in bounds at both bounds, and out of
them; edges in CALIBRATE. -/
theorem witness_TdcHitsAndCalibration_loops :
    (let s : State := { locked 2 with clk := { ord := 256 }, tdc := { loops := [(8, 1)] } }
     s.dllRuns 8 = true ∧ 0 < smGet 0 s.tdc.loops 8 ∧ smGet 0 s.tdc.loops 8 + 255 ≤ s.clk.ord ∧ s.on Obj.TDC_DLL_LOCK 8 = false) ∧
    (let s : State := { locked 2 with clk := { ord := 255 }, tdc := { loops := [(8, 1)] } }
     s.clk.ord < smGet 0 s.tdc.loops 8 + 255) ∧ smGet 0 (locked 2).tdc.loops 8 = 0 ∧ (tdcSt 2 id).on Obj.TDC_DLL_LOCK 7 = true ∧
    (tdcSt 2 id).val Obj.TDC_CAL_HITS 255 < 2 ^ 20 ∧
    (let s := (tdcSt 2 fun x => { x with histo := (List.range 64).map fun j => (j, if j = 0 then 4096 else if j = 1 then 32768 else 16384) }).setVal
       Obj.TDC_CAL_HITS (2 ^ 20) 255
     2 ^ 20 ≤ s.val Obj.TDC_CAL_HITS 255 ∧ ∀ j, j < 64 → 4096 ≤ smGet 0 (s.tdcOf 255).histo j ∧ smGet 0 (s.tdcOf 255).histo j ≤ 32768) ∧
    (let s := (tdcSt 2 fun x => { x with histo := [(0, 2 ^ 20)] }).setVal Obj.TDC_CAL_HITS (2 ^ 20) 255
     2 ^ 20 ≤ s.val Obj.TDC_CAL_HITS 255 ∧ ¬(4096 ≤ smGet 0 (s.tdcOf 255).histo 63 ∧ smGet 0 (s.tdcOf 255).histo 63 ≤ 32768)) ∧
    (let s := tdcSt 2 id
     s.mode = 2 ∧ s.tdcServed 255 = true ∧ s.on Obj.TDC_DLL_LOCK (tdcDie 255) = true ∧ (s.setVal Obj.TDC_CAL_MODE 0 255).val Obj.TDC_CAL_MODE 255 = 0) ∧
    (atMode 3).tdcRuns 271 = false ∧ (atMode 3).tdcRuns 255 = false := by decide

/-- Input 255 with its converter on. -/
def hitSt (f : TdcSt → TdcSt) : State :=
  ((((((tdcSt 6 f).setVal Obj.TDC_ENABLE 1 255).setVal Obj.TDC_EDGE 2 255).setVal Obj.FREQ_ENABLE 0 255).setVal Obj.TDC_ARM 0 255).setVal
    Obj.HIT_OUT 1 255).setBlob Obj.TDC_CAL_TABLE [] 255

/-- Input 255 blanked, with gates that follow. -/
def blankSt : State :=
  ((((hitSt id).setVal Obj.BLANK_MASK 1 255).setVal Obj.BLANK_POLARITY 0).setVal Obj.BLANK_GATES_TDC 1 255).setPin 0 fun p => { p with level := true }

/-- A start of input 255 whose window ends at a time. -/
def startAt (hi : Int) : StartEdge :=
  { s8 := 0, stamp := 0, src := 255, uncal := false, unlocked := false, lo := 0, hi, arm := 2, gate := 0, at_ := 0, ord := 0 }

set_option maxRecDepth 10000 in
/-- Movements through the threshold in either direction, past the clamp and at it, and one that is none; an edge that becomes a hit, with a
loss before it and after it; edges 158 and 157 TU after the last, with the buffer full, and blanked; starts whose window is over by its
end, by its age, and not yet. -/
theorem witness_TdcHitsAndCalibration_hits :
    (let s := hitSt id
     s.mode ≠ 2 ∧ Mode.hits s.mode = true ∧ s.inService 255 = true ∧ s.on Obj.TDC_ENABLE 255 = true ∧ s.val Obj.TDC_EDGE 255 = 2 ∧
     s.blankedAt 255 4095 = false ∧ (s.tdcOf 255).gate = none ∧ s.val Obj.TDC_ARM 255 = 0 ∧ (s.tdcOf 255).prev = none ∧
     s.on Obj.HIT_OUT 255 = true ∧ (s.tdcOf 255).stored < 64 ∧ (s.tdcOf 255).starts = [] ∧ (s.tdcOf 255).edges = [] ∧
     (s.tdcOf 255).high = false ∧ s.val Obj.DISC_THRESHOLD 255 * 500000 < (max (-1600000) (min 1600000 2000000) : Int) * 511 ∧
     ¬ s.val Obj.DISC_THRESHOLD 255 * 500000 < (max (-1600000) (min 1600000 (-2000000)) : Int) * 511) ∧
    (let s := hitSt fun x => { x with high := true }
     (s.tdcOf 255).high = true ∧
     (max (-1600000) (min 1600000 (-1600000)) : Int) * 511 < (s.val Obj.DISC_THRESHOLD 255 - s.val Obj.DISC_HYST 255) * 500000) ∧
    (∀ k, k < 272 → State.reset.nat Obj.TDC_ARM k < 2) ∧
    (([(-(158 * 256), true), (-(157 * 256), false)].all fun k =>
      let s := hitSt fun x => { x with prev := some k.1, losses := [-1, 5] }
      let time : Int := (256 * (s.clk.ord * 2 ^ 19) : Nat) + (leNat (slice (s.blob Obj.TDC_CAL_TABLE 255) 0 2) : Nat)
      decide ((s.tdcOf 255).prev = some k.1 ∧ (158 * 256 ≤ time - k.1 ↔ k.2 = true))) = true) ∧
    64 ≤ ((hitSt fun x => { x with stored := 64 }).tdcOf 255).stored ∧
    (blankSt.blankedAt 255 0 = true ∧ blankSt.on Obj.BLANK_GATES_TDC 255 = true) ∧
    (let st (hi : Int) (ord : Nat) : State :=
       { (hitSt fun t => { t with starts := [startAt hi] }).setVal Obj.TDC_OFFSET 0 255 with clk := { ord } }
     ((st 524286 1).tdcOf 255).starts = [startAt 524286] ∧ ((st 524286 1).tdcOf 255).edges = [] ∧
     (startAt 524286).at_ + 524286 + (st 524286 1).tdcOffset 255 + 1 < ((1 * 2 ^ 19 : Nat) : Int) ∧
     ¬(startAt 524287).at_ + 524287 + (st 524287 1).tdcOffset 255 + 1 < ((1 * 2 ^ 19 : Nat) : Int) ∧
     (startAt 0).ord < (st (2 ^ 30) 35).clk.ord ∧ (startAt 0).ord + 35 ≤ (st (2 ^ 30) 35).clk.ord ∧ (st 0 0).clk.ord ≤ (startAt 0).ord) := by decide

/-- A gate in progress, one that ends with eight stamps and one with seven, and a result to publish. -/
theorem witness_FrequencyGates :
    (atMode 6).tdcOf 271 = {} ∧
    (let g : Gate := { first := 0, g := 250, n := 8 }
     let s : State := { atMode 6 with clk := { tick := 250 }, tdc := { tdcs := [(271, { gate := some g })] } }
     (s.tdcOf 271).gate = some g ∧ g.first + g.g ≤ s.tick ∧ 8 ≤ g.n) ∧
    (let g : Gate := { first := 0, g := 250, n := 7 }
     let s : State := { (atMode 6).setVal Obj.FREQ_ENABLE 1 271 with clk := { tick := 250 }, tdc := { tdcs := [(271, { gate := some g })] } }
     (s.tdcOf 271).gate = some g ∧ g.first + g.g ≤ s.tick ∧ g.n < 8 ∧ s.on Obj.FREQ_ENABLE 271 = true ∧
     s.tick < g.first + g.g + s.nat Obj.FREQ_GATE 271) ∧
    (let g : Gate := { first := 0, g := 250, n := 7 }
     let s : State := { atMode 6 with clk := { tick := 249 }, tdc := { tdcs := [(271, { gate := some g })] } }
     (s.tdcOf 271).gate = some g ∧ g.first ≤ s.tick ∧ s.tick < g.first + g.g) ∧
    (let g : Gate := { n := 8, sy := 28000, sxy := 140000, syy := 140000000 }
     let s : State := { atMode 6 with tdc := { tdcs := [(271, { done := some g })] } }
     (s.tdcOf 271).done = some g ∧ (s.tdcOf 271).done.isSome = true ∧ g.result.isSome = true) := by decide

/-! ### Witnesses: lanes and frames (15, 16) -/

/-- Lane 47 in a state. -/
def lnSt (st : Int) (f : LnSt → LnSt) : State := { ((atMode 3).setVal Obj.LANE_STATE st 47).setLn 47 f with clk := { ord := 100000, tick := 100000 } }

/-- A message of 16 bytes of body with its check value. -/
def exchWord (hi : Nat) : BitVec 128 :=
  let body := leBytes 2 0 ++ leBytes 4 7 ++ leBytes 8 hi
  BitVec.ofNat 128 (leNat (leBytes 2 (crc16 body) ++ body))

set_option maxRecDepth 10000 in
/-- A lane in each state of its bring-up, at its last tick and one before, sweeps, and a partner's messages. -/
theorem witness_LaneBringUp :
    ((lnSt 1 fun x => { x with detOrd := 99744 }).laneState 47 = 1 ∧ ((lnSt 1 fun x => { x with detOrd := 99744 }).ln 47).detOrd + 256 ≤ 100000) ∧
    (lnSt 1 fun x => { x with detOrd := 99745 }).clk.ord < ((lnSt 1 fun x => { x with detOrd := 99745 }).ln 47).detOrd + 256 ∧
    (lnSt 2 id).laneState 47 = 2 ∧ (lnSt 3 id).laneState 47 = 3 ∧ (lnSt 4 id).laneState 47 = 4 ∧ (lnSt 6 id).laneState 47 = 6 ∧
    (let e : Eye := { w := 64, h := 64, phaseCentre := 0, voltCentre := 0, locked := true, idle := 58983 }
     let s := lnSt 2 fun x => { x with sweepOrd := 99744, good := 1 }
     s.laneFlushing 47 = false ∧ (s.ln 47).sweepOrd + 256 ≤ s.clk.ord ∧ s.nat Obj.LANE_FOM_MIN 47 ≤ min 255 (e.w * e.h / 16) ∧
     ((lnSt 2 id).ln 47).good = 0 ∧ 0 < (s.ln 47).good ∧ 58982 < e.idle ∧ ¬ s.nat Obj.LANE_FOM_MIN 47 ≤ min 255 (0 * e.h / 16)) ∧
    (let s := lnSt 2 fun x => { x with sweepOrd := 99745 }
     s.clk.ord < (s.ln 47).sweepOrd + 256) ∧
    (let s := lnSt 4 fun x => { x with cleanOrd := 0 }
     65536 ≤ Lane.symbols (s.laneRate 47) * (s.clk.ord + 1 - (s.ln 47).cleanOrd)) ∧
    (let s := lnSt 4 fun x => { x with cleanOrd := 100001 }
     ¬ 65536 ≤ Lane.symbols (s.laneRate 47) * (s.clk.ord + 1 - (s.ln 47).cleanOrd)) ∧
    ({ lnSt 3 id with clk := { flushing := [.lane 47] } } : State).laneFlushing 47 = true ∧
    (lnSt 5 id).laneState 47 = 5 ∧ exchValid 0 = false ∧ exchValid ((lnSt 5 id).exchMsg 47) = true ∧
    (lnSt 5 id).exchRefusal 47 ((lnSt 5 id).exchMsg 0).toNat = none ∧ exchValid ((lnSt 5 id).exchMsg 0) = true ∧
    (let s := lnSt 5 fun x => { x with gotAck := true, sentAck := 4 }
     (s.ln 47).gotAck = true ∧ 4 ≤ (s.ln 47).sentAck) ∧ ((lnSt 5 fun x => { x with sentAck := 3 }).ln 47).sentAck < 4 := by decide

set_option maxRecDepth 10000 in
/-- Timeouts at their last tick, a message of another version, losses, errors, and a backoff that ends. -/
theorem witness_LanesFailAndAreCommanded :
    (let s := lnSt 4 fun x => { x with trainOrd := 97500 }
     2 ≤ s.laneState 47 ∧ s.laneState 47 ≤ 4 ∧ (s.ln 47).trainOrd + 2500 ≤ s.clk.ord) ∧
    (let s := lnSt 4 fun x => { x with trainOrd := 97501, exchOrd := 98751, backOrd := 99751 }
     s.clk.ord < (s.ln 47).trainOrd + 2500 ∧ s.clk.ord < (s.ln 47).exchOrd + 1250 ∧
     s.clk.ord < (s.ln 47).backOrd + 250 * 2 ^ (min (s.nat Obj.LANE_FAIL_RUN 47) 8 - 1)) ∧
    (let s := lnSt 5 fun x => { x with exchOrd := 98750 }
     s.laneState 47 = 5 ∧ (s.ln 47).exchOrd + 1250 ≤ s.clk.ord) ∧
    exchValid (exchWord (0xE * 2 ^ 60 + 2 * 2 ^ 56)) = true ∧ (exchWord (0xE * 2 ^ 60 + 2 * 2 ^ 56)).toNat / 2 ^ 120 % 16 ≠ 1 ∧
    (lnSt 5 id).exchRefusal 47 (exchWord (0xE * 2 ^ 60 + 2 * 2 ^ 56)).toNat = some 3 ∧
    (lnSt 6 id).laneState 47 = 6 ∧ (lnSt 6 id).laneFlushing 47 = false ∧ 64 < 65 ∧ (lnSt 7 id).laneState 47 = 7 ∧ (lnSt 0 id).laneState 47 < 1 ∧
    (lnSt 1 id).laneState 47 = 1 ∧ (lnSt 4 id).laneState 47 = 4 ∧
    ({ lnSt 6 id with clk := { flushing := [.lane 47] } } : State).laneFlushing 47 = true ∧
    (let s := (lnSt 7 fun x => { x with backOrd := 100000 - 250 * 2 ^ 7 }).setVal Obj.LANE_FAIL_RUN 8 47
     (s.ln 47).backOrd + 250 * 2 ^ (min (s.nat Obj.LANE_FAIL_RUN 47) 8 - 1) ≤ s.clk.ord) ∧
    (([1, 2, 3].all fun c => accepts (atMode 3) .owner (objAddr 0x9002 0 8 47) [c]) = true) ∧
    accepts (atMode 1) .owner (objAddr 0x9011 0 0 0) (leBytes 1 1) = true ∧ accepts (atMode 1) .owner (objAddr 0x9010 0 0 0) (leBytes 1 1) = true := by
  decide

/-- Acknowledgements of none, of all, and of more than were sent; replays with and without progress, by the partner's request and by time,
and not yet; credits at their last value. -/
theorem witness_FrameLinks :
    (let f : TxFrame := { vc := 0, type := 1, module := 0, ftick := 0, gseq := 0, payload := [] }
     let s := lnSt 6 fun x => { x with unacked := [f], stuckReplays := 7, ackOrd := 99999, rxLimit := 2 ^ 32 - 1 }
     s.laneState 47 = 6 ∧ s.laneFlushing 47 = false ∧ (s.ln 47).unacked ≠ [] ∧ (s.ln 47).replaySyms = 0 ∧ (s.ln 47).stuckReplays < 8 ∧
     (s.ln 47).ackOrd < s.clk.ord ∧ (s.ln 47).rxLimit < 2 ^ 32 ∧ (0x00000000FFFFFFFF : BitVec 64).getLsbD 55 = false ∧
     ((0x00000000FFFFFFFF : BitVec 64).toNat / 2 ^ 56 + 256 - (s.ln 47).lastAck) % 256 = 1 ∧ 1 ≤ (s.ln 47).unacked.length ∧
     ((0xFF000000FFFFFFFF : BitVec 64).toNat / 2 ^ 56 + 256 - (s.ln 47).lastAck) % 256 = 0 ∧
     (0xFF800000FFFFFFFF : BitVec 64).getLsbD 55 = true ∧
     ((0xFF800000FFFFFFFF : BitVec 64).toNat / 2 ^ 56 + 256 - (s.ln 47).lastAck) % 256 = 0 ∧
     (s.ln 47).unacked.length < ((0x01000000FFFFFFFF : BitVec 64).toNat / 2 ^ 56 + 256 - (s.ln 47).lastAck) % 256) ∧
    (let f : TxFrame := { vc := 0, type := 1, module := 0, ftick := 0, gseq := 0, payload := [] }
     let s := lnSt 6 fun x => { x with unacked := [f], stuckReplays := 8, ackOrd := 99999 }
     8 ≤ (s.ln 47).stuckReplays ∧ (s.ln 47).ackOrd < s.clk.ord ∧ (s.ln 47).unacked ≠ []) ∧
    (lnSt 6 fun x => { x with ackOrd := 100000 }).clk.ord ≤ ((lnSt 6 fun x => { x with ackOrd := 100000 }).ln 47).ackOrd ∧
    ({ lnSt 6 id with clk := { flushing := [.lane 47] } } : State).laneFlushing 47 = true ∧
    ((lnSt 6 id).ln 47).unacked = [] ∧ (lnSt 5 id).laneState 47 ≠ 6 := by decide

/-- A frame with fields. -/
def rxf (vc : Fin 8) (alive : BitVec 8) (gseq : BitVec 32) (module : BitVec 12) : RxFrame :=
  { vc, type_ := 1, alive, gseq, module, ftick := 0, payload := List.replicate 16 1 }

set_option maxRecDepth 10000 in
/-- Frames that are duplicates, in order, for another module with and without a cascade, that fail a Domino CRC, and of the cascade. -/
theorem witness_FramesReceivedAndHandedOut_received :
    (let s := (lnSt 6 id).setVal Obj.LANE_STATE 6 31
     s.laneState 31 = 6 ∧ s.laneFlushing 31 = false ∧ s.laneFlushing 47 = false ∧ (rxf 0 0 0xFFFFFFFF 4095).alive.toNat = (s.ln 31).rxNext ∧ s.fr.rxDown.waiting = [] ∧ s.fr.rxDown.next = none ∧
     (rxf 0 0 0 4095).module.toNat ≠ s.nat Obj.MODULE_NUMBER ∧ s.cascadeUp = true ∧ (rxf 0 128 0 0).alive.toNat ≠ (s.ln 31).rxNext ∧
     rxDuplicate (s.ln 31).rxNext (rxf 0 128 0 0).alive.toNat = true ∧
     ((s.setVal Obj.DOMINO_ROLE 1).val Obj.DOMINO_ROLE ≠ 0) ∧ Mode.lanes s.mode = true ∧
     (rxf 0 0 0 0).payload.length = 16 ∧ domCrcOk (leNat (rxf 0 0 0 0).payload) = false ∧
     (rxf 7 0 0 0).alive.toNat = (s.ln 47).rxNext ∧ s.fr.rxCasc.waiting = [] ∧ s.fr.rxCasc.next = none ∧ (rxf 7 0 0 0).vc.val ≠ 1 ∧
     relayType (rxf 7 0 0 0).vc (rxf 7 0 0 0).type_ = true ∧ s.fr.casc = []) ∧
    (let s : State := { (atMode 3).setVal Obj.LANE_STATE 6 31 with fr := { rxDown := { next := some (2 ^ 32 - 1) } } }
     s.cascadeUp = false ∧ s.fr.rxDown.next = some (rxf 0 0 0xFFFFFFFF 4095).gseq.toNat) ∧
    ({ atMode 3 with clk := { flushing := [.lane 31] } } : State).laneFlushing 31 = true ∧
    ((atMode 3).setVal Obj.LANE_STATE 5 31).laneState 31 = 5 ∧ (atMode 3).laneState 31 ≠ 6 := by decide

/-- Lane 31 open. -/
def outSt (fr : Framer) : State :=
  { ((atMode 3).setVal Obj.LANE_STATE 6 31).setLn 31 fun x => { x with limit := 1000000 } with clk := { ord := 1000, tick := 1000 }, fr }

/-- A `TICK` and a frame to hand out, a gap of 256 ticks, and a hold that has run. -/
theorem witness_FramesReceivedAndHandedOut_handedOut :
    (let h : TickHdr := { tick := 1000, ord := 1000, mode := 3, cond := 0, swapped := 0, inputs := 0, prescale := 0, boost := 0 }
     let s := outSt { ticks := [h] }
     s.fr.resendCasc = [] ∧ s.fr.fwdCasc = [] ∧ s.fr.resendDown = [] ∧ s.fr.casc = [] ∧ Mode.lanes s.mode = true ∧ s.fr.ticks = [h] ∧
     s.holdEnded h = true ∧ s.pickLane true 32 = some 31 ∧ s.framePoisoned h.place 32 = false) ∧
    (let f : Frame := { cls := 2, vc := 2, type := 2, payload := List.replicate 64 0, born := 0 }
     let s := outSt { queue := [f], buckets := [(0, 2 ^ 200)] }
     s.mode ≠ 11 ∧ s.fr.ticks = [] ∧ s.fr.queue = [f] ∧ f.cls < 7 ∧ f.cls ≠ 5 ∧ s.framePoisoned f.place f.payload.length = false ∧
     s.pickLane true f.payload.length = some 31) ∧
    (let w : RxWait := { lane := 47, at_ := 744, frame := rxf 7 0 5 0 }
     let s := outSt { rxCasc := { next := some (2 ^ 32 - 1), waiting := [w] } }
     s.fr.rxCasc.next = some (2 ^ 32 - 1) ∧ s.fr.rxCasc.waiting = [w] ∧ w.at_ + 256 ≤ s.clk.ord ∧
     w.frame.gseq.toNat ≠ (2 ^ 32 - 1 + 1) % 2 ^ 32 ∧ s.clk.ord < { w with at_ := 745 }.at_ + 256) ∧
    (let h : TickHdr := { tick := 0, ord := 0, mode := 3, cond := 0, swapped := 0, inputs := 0, prescale := 0, boost := 0 }
     let s := outSt { ticks := [h] }
     s.fr.ticks = [h] ∧ h.ord + s.nat Obj.CASCADE_HOLD ≤ s.clk.ord ∧ s.clk.ord < { h with ord := 1000 }.ord + s.nat Obj.CASCADE_HOLD) ∧
    (outSt {}).fr.ticks = [] ∧ Mode.lanes (atMode 0).mode = false := by decide

/-! ### Witnesses: the dictionary protocol (17) -/

/-- A request's header under a `MAC`. -/
def hdr0 (mac : BitVec 64) : SdpHdr := { src := .udp 1 2, session := 65535, reqId := 0, resp := false, lengthOk := true, mac }

/-- An open session. -/
def sess (role : Nat) : Session := { num := 65535, src := .udp 1 2, slot := 7, role, isOpen := true }

/-- A module with a session. -/
def sessSt (m : Int) (x : Session) : State := { atMode m with sdp := { sessions := [x] }, clk := { ord := 250000 } }

/-- The `MAC` of a body under a session's key. -/
def macOf (s : State) (x : Session) (op : Nat) (b : List Byte) : BitVec 64 :=
  BitVec.ofNat 64 (leNat (macBytes (s.sessionKey x) (rowReq (hdr0 0) op b).hdr b))

/-- A request that a session takes. -/
theorem takes {s : State} {x : Session} {op : Nat} {b : List Byte} (hs : s.serves = true) (hx : s.session 65535 = some x)
    (ho : x.isOpen = true) (hr : x.src = .udp 1 2) (hk : x.kept = []) (hl : x.lastReq = none) (hb : bodyOk op b = true)
    (hj : s.sdp.jobs = []) : sessionTakes s (hdr0 (macOf s x op b)) op b x := by
  refine ⟨hs, hx, ho, hr.trans rfl, rfl, rfl, ?_, ?_, hb, by rw [hj]; decide, by simp only [hdr0, macOf, rowReq]⟩
  · rw [hk]; rfl
  · rw [hl]; rfl

/-- Its session after the request. -/
def afterReq (s : State) (x : Session) : State := s.setSession x.num fun y => { y with lastReq := some 0, since := s.clk.ord }

theorem noted_hdr0 (s : State) (x : Session) (m : BitVec 64) : noted s (hdr0 m) x = afterReq s x := rfl

theorem takesAt (m : Int) (role op : Nat) (b : List Byte) (h : (sessSt m (sess role)).serves = true) (hb : bodyOk op b = true) :
    sessionTakes (sessSt m (sess role)) (hdr0 (macOf (sessSt m (sess role)) (sess role) op b)) op b (sess role) := by
  have hx : (sessSt m (sess role)).session 65535 = some (sess role) := by simp [State.session, sessSt, sess]
  have hj : (sessSt m (sess role)).sdp.jobs = [] := by simp [sessSt]
  exact takes h hx rfl rfl rfl rfl hb hj

/-- Sessions that open, a key slot whose role is too low, a request without a session, kept and old requests, and limits on time. -/
theorem witness_SessionsOpenAndClose :
    (let s := ((atMode 3).setBlob Obj.KEY_PUBLIC (List.replicate 32 1) 0 8).setVal Obj.KEY_ROLE 3 0 8
     s.serves = true ∧ s.sdp.banned = [] ∧ s.sdp.jobs.length < 32 ∧ s.blob Obj.KEY_PUBLIC 0 8 ≠ List.replicate 32 0 ∧
     3 ≤ s.nat Obj.KEY_ROLE 0 8 ∧ s.nat Obj.KEY_ROLE 0 8 < 4 ∧ s.sdp.sessions.length < 8 ∧ s.session 65535 = none) ∧
    (let x : Session := { sess 3 with isOpen := false }
     (sessSt 3 x).session 65535 = some x ∧ x.since + 250000 ≤ (sessSt 3 x).clk.ord) ∧
    (let x : Session := { sess 3 with kept := [(0, 0, { tick := 0, session := 65535, reqId := 0, opcode := 14, status := 0, body := [], mac := [] })] }
     ((x.kept.find? fun e => e.1 == (hdr0 0).reqId && e.2.1 == (hdr0 0).mac).isSome = true ∧
      (x.kept.find? fun e => e.1 == (hdr0 0).reqId && e.2.1 == (hdr0 1).mac) = none)) ∧
    reqRises (some 1) (hdr0 0).reqId = false ∧ (hdr0 0).mac ≠ (hdr0 1).mac ∧ 15 ∉ sdpOps ∧ bodyOk 15 [] = true ∧ bodyOk 3 [] = true ∧
    (let s := (sessSt 3 (sess 3)).setVal Obj.SDP_IDLE_TIMEOUT 1
     (sess 3).since + 250000 * s.nat Obj.SDP_IDLE_TIMEOUT ≤ s.clk.ord ∧ (sess 3) ∈ s.sdp.sessions) := by decide

/-- `CLOSE`, `PING` and an unknown opcode that the session takes. -/
theorem witness_SessionsOpenAndClose_taken :
    (∃ h, sessionTakes (sessSt 3 (sess 3)) h 3 [] (sess 3)) ∧ (∃ h, sessionTakes (sessSt 3 (sess 3)) h 14 (List.replicate 64 0) (sess 3)) ∧
    (∃ h, sessionTakes (sessSt 3 (sess 3)) h 15 [1] (sess 3)) :=
  ⟨⟨_, takesAt _ _ _ _ (by decide) (by decide)⟩, ⟨_, takesAt _ _ _ _ (by decide) (by decide)⟩, ⟨_, takesAt _ _ _ _ (by decide) (by decide)⟩⟩

/-- A module with a session whose ticks are counted, and an application that runs. -/
def readSt : State :=
  { ((atMode 3).setVal Obj.APP_STATE 3).setVal Obj.APP_SLOT_RUNNING 2 with
    sdp := { sessions := [sess 0] }, clk := { ord := 250000, counting := true } }

/-- Reads the session takes: of an object without and with a generation, of an object that waits for the hand-out and of the application's,
of a segment within and past the end, of 16 and 17 events. -/
theorem witness_RequestsThatRead :
    (∃ h, sessionTakes (sessSt 3 (sess 0)) h 4 (addrBytes (objAddr 0x1000 0 0 0)) (sess 0)) ∧
    (∃ h, sessionTakes (sessSt 3 (sess 0)) h 4 (addrBytes (objAddr 0xA021 4 0 0)) (sess 0)) ∧
    (∃ h, sessionTakes readSt h 4 (addrBytes (objAddr 0x5013 0 6 255)) (sess 0)) ∧
    (∃ h, sessionTakes readSt h 4 (addrBytes (objAddr 0xEFFF 0 0 0)) (sess 0)) ∧
    (∃ h, sessionTakes (sessSt 3 (sess 0)) h 6 (addrBytes (objAddr 0x7811 0 0 0) ++ leBytes 4 0 ++ leBytes 2 1024 ++ leBytes 2 0) (sess 0)) ∧
    (∃ h, sessionTakes (sessSt 3 (sess 0)) h 0x0B (leBytes 4 0 ++ leBytes 1 16 ++ leBytes 3 0) (sess 0)) ∧
    (∃ h, sessionTakes (sessSt 3 (sess 0)) h 0x0B (leBytes 4 (2 ^ 32 - 1) ++ leBytes 1 17 ++ leBytes 3 0) (sess 0)) ∧
    (let u := afterReq (sessSt 3 (sess 0)) (sess 0)
     (u.readItem (objAddr 0x1000 0 0 0)).gen = none ∧ (u.readItem (objAddr 0xA021 4 0 0)).gen.isSome = true ∧
     (u.readItem (objAddr 0xA021 4 0 0)).value.length ≤ 256 ∧ addrOf (addrBytes (objAddr 0xA021 4 0 0)) = objAddr 0xA021 4 0 0 ∧
     u.resolve (objAddr 0x7811 0 0 0) = .ok (Obj.SPEC_CAND_ENTRY, 0) ∧ u.readLen Obj.SPEC_CAND_ENTRY 0 0 < 33 ∧
     0 ≤ u.readLen Obj.SPEC_CAND_ENTRY 0 0 ∧ u.readWaits 0x7811 = false ∧ appIndex 0x1000 = false) ∧
    (let u := afterReq readSt (sess 0)
     u.readWaits 0x5013 = true ∧ u.appRuns = true ∧ appIndex 0xEFFF = true ∧ u.indexServed 0xEFFF = true) :=
  ⟨⟨_, takesAt _ _ _ _ (by decide) (by decide)⟩, ⟨_, takesAt _ _ _ _ (by decide) (by decide)⟩,
    ⟨_, takes (by decide) (by decide) rfl rfl rfl rfl (by decide) rfl⟩, ⟨_, takes (by decide) (by decide) rfl rfl rfl rfl (by decide) rfl⟩,
    ⟨_, takesAt _ _ _ _ (by decide) (by decide)⟩,
    ⟨_, takesAt _ _ _ _ (by decide) (by decide)⟩, ⟨_, takesAt _ _ _ _ (by decide) (by decide)⟩, by decide, by decide⟩

/-- A setting in a `WRITE`. -/
def wItem : WItem := { addr := objAddr 0xB084 0 0 0, value := [1] }

/-- A module with a session that has all of a value but its last four bytes. -/
def partSt : State :=
  let p : Partial := { key := key Obj.HIST_INPUT_MASK 0 0, addr := objAddr 0x6801 0 0 0, session := 65535, data := List.replicate 28 0, done := 28, since := 0 }
  { atMode 1 with sdp := { sessions := [sess 3], partials := [p] }, clk := { ord := 250000 } }

/-- Writes the session takes: one item, the first segment of a value, one out of order and the last; values in range and out of it. -/
theorem witness_RequestsThatWrite :
    (∃ h, sessionTakes (sessSt 3 (sess 3)) h 5 ([wItem].flatMap itemBytes) (sess 3)) ∧
    bodyItems 16 ([wItem].flatMap itemBytes) = some [wItem] ∧ appIndex wItem.addr.index = false ∧
    (let u := afterReq (sessSt 3 (sess 3)) (sess 3)
     let ds := [wItem].map (u.decodeItem 3 false)
     u.firstFailing (viewOf (passed ds)) 1 0 [] ds = none) ∧
    (let u := afterReq (sessSt 3 (sess 0)) (sess 0)
     let ds := [wItem].map (u.decodeItem 0 false)
     (u.firstFailing (viewOf (passed ds)) 1 0 [] ds).isSome = true) ∧
    (∃ h, sessionTakes (sessSt 1 (sess 3)) h 7
      (addrBytes (objAddr 0x6801 0 0 0) ++ leBytes 4 0 ++ leBytes 2 4 ++ leBytes 2 0 ++ pad4 [1, 2, 3, 4]) (sess 3)) ∧
    (let a := objAddr 0x6801 0 0 0
     let u := afterReq (sessSt 1 (sess 3)) (sess 3)
     let o := Obj.HIST_INPUT_MASK
     addrOf (addrBytes a) = a ∧ u.resolve a = .ok (o, 0) ∧ o.access ≠ .ro ∧ o.role ≤ 3 ∧ u.modeAllows o [] = true ∧
     u.elemOutFor o a 0 = false ∧ o.ty = .blob ∧ o.size = 32 ∧ (sessSt 1 (sess 3)).sdp.partials = [] ∧ u.partialOf (key o 0 0) = none ∧
     0 + 4 < o.size) ∧
    (∃ h, sessionTakes partSt h 7
      (addrBytes (objAddr 0x6801 0 0 0) ++ leBytes 4 28 ++ leBytes 2 4 ++ leBytes 2 1 ++ pad4 [1, 2, 3, 4]) (sess 3)) ∧
    (let u := afterReq partSt (sess 3)
     (u.partialOf (key Obj.HIST_INPUT_MASK 0 0)).map (fun p => p.done) = some 28 ∧ 28 + 4 = Obj.HIST_INPUT_MASK.size ∧
     (∀ p ∈ partSt.sdp.partials, p.session = 65535 ∧ p.timedOut = false ∧ p.since + 250000 ≤ partSt.clk.ord)) ∧
    (match (atMode 3).decodeItem 3 false { addr := objAddr 0xB084 0 0 0, value := [2] } with | .ok _ => false | .error _ => true) = true ∧
    (match (atMode 3).decodeItem 3 false { addr := objAddr 0x2030 0 1 255, value := [1] } with
      | .ok d => waitsForBoundary d.o.idx && !d.o.long && (atMode 3).lateSteps (viewOf [d]) 1 [] d == St.OK
      | .error _ => false) = true ∧
    accepts (atMode 3) .owner (objAddr 0xB084 0 0 0) [1] = true ∧
    accepts (atMode 1) .owner (objAddr 0x0023 8 0 0) [1] = true :=
  ⟨⟨_, takesAt _ _ _ _ (by decide) (by decide)⟩, by decide, by decide, by decide, by decide, ⟨_, takesAt _ _ _ _ (by decide) (by decide)⟩,
    by decide, ⟨_, takes (by decide) (by decide) rfl rfl rfl rfl (by decide) rfl⟩, by decide, by decide, by decide, by decide, by decide⟩

/-- Subscriptions the session takes: the first, the eighth and one too many, an element out of range; messages to send. -/
theorem witness_SubscriptionsAndEventMessages :
    (∃ h, sessionTakes (sessSt 3 (sess 0)) h 8 (leBytes 2 0 ++ leBytes 2 0 ++ leBytes 1 11 ++ leBytes 1 0 ++ leBytes 2 0xFFFF) (sess 0)) ∧
    (∃ h, sessionTakes (sessSt 3 (sess 0)) h 9 (leBytes 1 255 ++ leBytes 3 0) (sess 0)) ∧ (sess 0).subs.length < 8 ∧ (0 : Nat) < kindCount 1 ∧
    (let e : Event := { seq := 0, code := 1, kind := 0, num := 0, tick := 0, arg := [] }
     let x : Session := { sess 0 with waiting := List.replicate 17 e, sentThisSecond := 99 }
     let s := sessSt 3 x
     s.session 65535 = some x ∧ x.isOpen = true ∧ s.serves = true ∧ x.sentThisSecond < 100 ∧ x.waiting ≠ [] ∧ x.lost = none) ∧
    (let x : Session := { sess 0 with lost := some { count := 1, oldest := 5, newest := 5 } }
     (sessSt 3 x).session 65535 = some x ∧ x.lost.isSome = true ∧ x.waiting = []) ∧
    (let x : Session := { sess 0 with sentThisSecond := 100 }
     (sessSt 3 x).session 65535 = some x ∧ 100 ≤ x.sentThisSecond) ∧
    (∃ h, sessionTakes (sessSt 3 (sess 0)) h 8 (leBytes 2 0 ++ leBytes 2 0 ++ leBytes 1 12 ++ leBytes 1 0 ++ leBytes 2 0) (sess 0)) ∧
    (∃ h x, sessionTakes (sessSt 3 x) h 8 (leBytes 2 0 ++ leBytes 2 0 ++ leBytes 1 1 ++ leBytes 1 0 ++ leBytes 2 255) x ∧
      8 ≤ x.subs.length ∧ 255 < kindCount 1) :=
  ⟨⟨_, takesAt _ _ _ _ (by decide) (by decide)⟩, ⟨_, takesAt _ _ _ _ (by decide) (by decide)⟩, by decide, by decide, by decide, by decide, by decide,
    ⟨_, takesAt _ _ _ _ (by decide) (by decide)⟩,
    ⟨_, { sess 0 with subs := (List.range 8).map fun i => (i, ⟨0, 0, 0, 0⟩) },
      takes (by decide) (by decide) rfl rfl rfl rfl (by decide) rfl, by decide, by decide⟩⟩

/-- A save and a restore the session takes, and their ends. -/
theorem witness_SavedSets :
    (∃ h, sessionTakes (sessSt 10 (sess 2)) h 0x0C (leBytes 1 7 ++ leBytes 3 0 ++ slice [] 0 12) (sess 2)) ∧
    (∃ h, sessionTakes (sessSt 1 (sess 1)) h 0x0D (leBytes 1 7 ++ leBytes 3 0) (sess 1)) ∧
    (∃ h, sessionTakes (sessSt 3 (sess 1)) h 0x0D (leBytes 1 7 ++ leBytes 3 0) (sess 1)) ∧ (sessSt 3 (sess 1)).mode ≠ 1 ∧
    (sessSt 10 (sess 2)).sdp.saving = none ∧ (sessSt 10 (sess 2)).mode = 10 ∧ (sessSt 1 (sess 1)).mode = 1 ∧
    (sessSt 1 (sess 1)).sdp.restoring = none ∧
    (let set : SavedSet := { layout := 0, tick := 0, name := [], vals := [], blobs := [], size := 0, crc := 0, valid := false }
     let s : State := { atMode 1 with sdp := { saving := some (7, 5, set), restoring := some (7, 6), sets := [(7, set)] } }
     s.sdp.saving = some (7, 5, set) ∧ s.sdp.restoring = some (7, 6) ∧ (s.sdp.sets.find? fun e => e.1 == 7) = some (7, set) ∧ set.valid = false) :=
  ⟨⟨_, takesAt _ _ _ _ (by decide) (by decide)⟩, ⟨_, takesAt _ _ _ _ (by decide) (by decide)⟩, ⟨_, takesAt _ _ _ _ (by decide) (by decide)⟩,
    by decide, by decide, by decide, by decide, by decide, by decide⟩

/-! ### Witnesses: the application, images, the dump (19, 21) -/

/-- The application in a state, started from slot 3. -/
def appSt (st : Int) (f : App → App) : State :=
  { ((atMode 3).setVal Obj.APP_STATE st).setVal Obj.APP_SLOT_RUNNING 3 with clk := { ord := 150000000 }, app := f {} }

/-- A start that fails in each way; stops within and past the hour's limit; the watchdog and the trial at their last tick. A start that
passes: the next witness. -/
theorem witness_ApplicationSupervision :
    (let s := appSt 1 fun a => { a with starting := some 3 }
     s.app.starting = some 3 ∧ s.slotPasses 3 = false ∧ 5 - 3 ∉ s.app.failed ∧ 5 - 3 ≠ 3) ∧
    (let s := appSt 1 fun a => { a with starting := some 3, failed := [2] }
     s.app.starting = some 3 ∧ s.slotPasses 3 = false ∧ 5 - 3 ∈ s.app.failed) ∧
    (let s := appSt 3 id
     s.appRuns = true ∧ s.sdp.jobs = [] ∧ 2 ≤ s.nat Obj.APP_SLOT_RUNNING ∧ s.nat Obj.APP_SLOT_RUNNING ≤ 3 ∧
     (if s.app.hour = s.tick / 900000000 then s.app.restarts else 0) < s.nat Obj.APP_RESTART_LIMIT ∧
     s.app.kickOrd + s.nat Obj.APP_WATCHDOG ≤ s.clk.ord) ∧
    (let s := appSt 3 fun a => { a with restarts := 65535, kickOrd := 150000000, startOrd := 150000000 }
     s.nat Obj.APP_RESTART_LIMIT ≤ (if s.app.hour = s.tick / 900000000 then s.app.restarts else 0) ∧
     s.clk.ord < s.app.kickOrd + s.nat Obj.APP_WATCHDOG ∧ s.clk.ord < s.app.startOrd + s.nat Obj.IMAGE_TRIAL_LIMIT) ∧
    (let s := appSt 2 id
     s.val Obj.APP_STATE = 2 ∧ s.app.startOrd + s.nat Obj.IMAGE_TRIAL_LIMIT ≤ s.clk.ord) ∧ (atMode 3).appRuns = false ∧
    (appSt 1 id).app.starting = none := by decide

set_option maxRecDepth 100000 in
/-- A start from slot 3 that passes. -/
theorem witness_application_that_starts :
    (let s := withApp (appSt 1 fun a => { a with starting := some 3 }) 3
     s.app.starting = some 3 ∧ s.slotPasses 3 = true) := by decide +kernel

set_option maxRecDepth 10000 in
/-- The application's services on each kind of operand. -/
theorem witness_ApplicationServices :
    (appSt 3 id).appRuns = true ∧ appIndex 0x1000 = false ∧ appIndex 0xC000 = true ∧
    (let s := appSt 3 id
     let it : WItem := { addr := objAddr 0xB084 0 0 0, value := [1] }
     (match s.decodeItem 2 true it with | .ok d => s.lateSteps (viewOf [d]) 1 [] d == St.OK | .error _ => false) = true ∧
     (match s.decodeItem 2 true { it with value := [] } with | .ok _ => false | .error _ => true) = true) ∧
    ((appSt 3 id).eng 255).inRoom = true ∧ (((appSt 3 id).setEng 255 fun x => { x with inq := List.replicate 64 [], arriving := List.replicate 64 [] }).eng 255).inRoom = false ∧
    (((appSt 3 id).setEng 255 fun x => { x with outq := [[1, 2, 3, 4]] }).eng 255).outq = [[1, 2, 3, 4]] ∧ ((appSt 3 id).eng 255).outq = [] ∧
    ((appSt 3 id).cvuRefusal 3 0).isSome = true ∧ (appSt 3 id).cvuRefusal 3 (BitVec.ofNat 256 (8 * 2 ^ 176 + 2 ^ 97 + 2 ^ 96)) = none ∧
    926 * 1024 + 26576 + 48 = 974848 ∧ (appSt 3 id).flt.spans = [] ∧ (appSt 3 id).flt.mramDead = false ∧
    (let it : WItem := { addr := objAddr 0xC000 0 0 0, value := [] }
     let s : State := { appSt 3 id with sdp := { jobs := [{ hdr := none, role := 2, writes := false, items := [it], waits := [(1, 0, 149999875)] }] } }
     s.sdp.jobs = [{ hdr := none, role := 2, writes := false, items := [it], waits := [(1, 0, 149999875)] }] ∧ appIndex it.addr.index = true ∧
     149999875 + 125 ≤ s.clk.ord ∧ s.clk.ord < 149999876 + 125 ∧ (∀ j ∈ s.sdp.jobs, ∀ w ∈ j.waits, w.1 ≠ 2)) ∧
    (appSt 3 id).indexServed 0xC000 = true ∧ (appSt 3 id).readWaits 0x1000 = false ∧
    ({ appSt 3 id with clk := { counting := true } } : State).readWaits 0x5013 = true := by decide

set_option maxRecDepth 10000 in
/-- Verifications and erasures that start and end, confirmations, fuse burns. -/
theorem witness_ImagesAndFuses :
    accepts ((atMode 1).setImgState 67 2) .owner (objAddr 0xB013 68 0 0) [1] = true ∧
    accepts (atMode 1) .owner (objAddr 0xB014 68 0 0) [1] = true ∧ accepts (atMode 1) .owner (objAddr 0xB001 0 0 0) [1] = true ∧
    accepts (atMode 1) .owner (objAddr 0xB003 0 0 0) [1] = true ∧ accepts (atMode 1) .owner (objAddr 0xB005 4 0 0) (List.replicate 32 1) = true ∧
    (let s := (atMode 1).setBlob Obj.FUSE_OWNER_KEY (List.replicate 32 1) 0 4
     accepts s .owner (objAddr 0xB006 4 0 0) [1] = true) ∧
    (let s : State := { atMode 1 with acts := { verifies := [(67, 5)], burn := some (3, 0, [], 6) } }
     (s.acts.verifies.find? fun v => v.1 == 67) = some (67, 5) ∧ s.acts.burn = some (3, 0, [], 6) ∧
     (s.acts.verifies.find? fun v => v.1 == 66) = none) := by decide

set_option maxRecDepth 10000 in
/-- Fatal faults in a running mode with and without a dump that is held; the dump's two ends. -/
theorem witness_FatalFaultsAndTheDump :
    (atMode 3).boot.step ≠ 0 ∧ (atMode 3).mode ≠ 11 ∧ (atMode 3).flt.dumping = false ∧
    ((atMode 3).setVal Obj.DUMP_KEEP_FIRST 0).on Obj.DUMP_KEEP_FIRST = false ∧
    (let s := ((atMode 3).setVal Obj.DUMP_KEEP_FIRST 1).setVal Obj.DUMP_STATE 3
     s.flt.dumping = false ∧ s.on Obj.DUMP_KEEP_FIRST = true ∧ s.val Obj.DUMP_STATE = 3 ∧ s.flt.dumpAcked = false) ∧
    (let s : State := { atMode 11 with flt := { dumping := true } }
     s.flt.dumping = true ∧ s.flt.dumpLost = false ∧ s.flt.dumpDram = false ∧ s.flt.dumpNoMram = false) ∧
    (let s : State := { atMode 11 with flt := { dumping := true, dumpNoMram := true } }
     s.flt.dumping = true ∧ s.flt.dumpNoMram = true) ∧
    (let s : State := { atMode 11 with flt := { dumping := true, dumpDram := true } }
     s.flt.dumping = true ∧ s.flt.dumpNoMram = false ∧ s.flt.dumpDram = true) ∧
    accepts { (atMode 1).setVal Obj.DUMP_STATE 2 with flt := {} } .owner (objAddr 0xB083 0 0 0) [1] = true ∧ (booting 0).boot.step = 0 := by decide

/-! ### Witnesses: memory integrity, check values, upsets, self-test (18, 20, 21) -/

/-- A scrubber of the last reader die at a granule. -/
def scrSt (dom : Nat) (g : Nat) : State :=
  { (atMode 3).setVal Obj.SCRUB_ENABLE 1 dom with ecc := { lapAt := smPut 0 [] dom g }, clk := { ord := 10000000, tick := 1000000 } }

/-- The first granule and the last of a lap, a domain without a scrubber, and a slow lap. -/
theorem witness_Scrubbers :
    (let s := scrSt 0 0
     (0 : Nat) ≠ 13 ∧ Mode.lanes s.mode = true ∧ s.on Obj.SCRUB_ENABLE 0 = true ∧ s.scrubSkips 0 0 = false ∧
     smGet false s.poison (granuleAddr 0 0) = false ∧ s.val Obj.ECC_BUCKET_LEVEL 0 < s.val Obj.ECC_BUCKET_CAPACITY 0 ∧
     smGet 0 s.ecc.lapAt 0 + 1 < domGranules 0 ∧ smGet false s.ecc.slow 0 = false) ∧
    (let s := scrSt 3 (2 ^ 32 - 1)
     s.on Obj.SCRUB_ENABLE 3 = true ∧ domGranules 3 ≤ smGet 0 s.ecc.lapAt 3 + 1) ∧
    (let s := scrSt 4 (cdBytes / 4 - 1)
     4 * smGet 0 s.ecc.lapAt 4 < cdBytes ∧ smGet 0 s.ecc.lapAt 4 + 1 < domGranules 4 ∧ s.scrubSkips 4 (cdBytes / 4 - 1) = false) ∧
    (([cdBytes / 4, (cdBytes + supBytes) / 4 - 1].all fun g =>
      let s := scrSt 4 g
      decide (s.on Obj.SCRUB_ENABLE 4 = true ∧ s.scrubSkips 4 g = false ∧ smGet false s.poison (granuleAddr 4 g) = false ∧
        smGet 0 s.ecc.lapAt 4 = g ∧ cdBytes ≤ 4 * g ∧ 4 * g < cdBytes + supBytes)) = true) ∧
    (let s := scrSt 4 ((cdBytes + supBytes) / 4)
     cdBytes + supBytes ≤ 4 * smGet 0 s.ecc.lapAt 4 ∧ smGet 0 s.ecc.lapAt 4 + 1 < domGranules 4) ∧
    (let s := (scrSt 0 0).setVal Obj.SCRUB_LAP_LIMIT 9999999 0
     s.nat Obj.SCRUB_LAP_LIMIT 0 < s.clk.ord - smGet 0 s.ecc.lapOrd 0) ∧
    ((scrSt 0 0).setVal Obj.SCRUB_ENABLE 0 0).on Obj.SCRUB_ENABLE 0 = false ∧
    smGet false ({ scrSt 0 0 with ecc := { slow := [(0, true)] } } : State).ecc.slow 0 = true := by decide

/-- A leak at a multiple and between two, for the last domain. -/
theorem witness_LeakyBuckets :
    (let s : State := { (atMode 3).setVal Obj.ECC_BUCKET_LEAK 250 12 with clk := { tick := 500 } }
     s.tick % s.nat Obj.ECC_BUCKET_LEAK 12 = 0 ∧ smGet 0 s.ecc.leaked 12 ≠ s.clk.ord + 1) ∧
    (let s : State := { (atMode 3).setVal Obj.ECC_BUCKET_LEAK 250 12 with clk := { tick := 501 } }
     s.tick % s.nat Obj.ECC_BUCKET_LEAK 12 ≠ 0) ∧ (scrSt 0 0).scrubSkips 0 0 = false ∧ domNum (.reader 7) = 12 ∧ 0 < domGranules 0 := by decide

/-- A descriptor of the last 8 bytes of the application region, as a whole CRC-32C. -/
def cvuDesc : BitVec 256 := BitVec.ofNat 256 (8 * 2 ^ 176 + 2 ^ 97 + 2 ^ 96)

/-- A unit that takes a descriptor, completes one, refuses one out of order, and a slot written. -/
theorem witness_CheckValueUnits :
    accepts (atMode 3) .owner (objAddr 0xA020 4 0 0) (leBytes 32 cvuDesc.toNat) = true ∧
    (let s : State := { atMode 3 with ecc := { cvus := [(3, { queue := [{ desc := cvuDesc, action := 7 }] })] } }
     (s.cvu 3).queue = [{ desc := cvuDesc, action := 7 }]) ∧ ((atMode 3).cvu 3).queue = [] ∧
    cvuDesc.toNat.testBit 97 = true ∧ cvuDesc.toNat.testBit 96 = true ∧ descField cvuDesc 98 2 = 0 ∧ cvuDesc.toNat.testBit 95 = false ∧
    (let a := spaceAddr (descField cvuDesc 252 4) (descField cvuDesc 208 44)
     (atMode 3).poisoned (a / granuleOf a * granuleOf a) (descField cvuDesc 176 32 + a % granuleOf a) = false) ∧
    (0 : BitVec 256).toNat.testBit 97 = false ∧ descField 0 104 8 ≠ (0 + 1) % 256 ∧
    accepts (atMode 3) .owner (objAddr 0xA023 4 0 0) (leBytes 12 5) = true := by decide

/-- Upsets of a setting, its comparison and repair, and spans that end. -/
theorem witness_UpsetsRepairsAndSpans :
    (let a := objAddr 0x1019 0 0 0
     a.index ≠ 0xFFFF ∧ objAt a.index = some Obj.SWAP_DEFER_LIMIT ∧ elemOf Obj.SWAP_DEFER_LIMIT.scope 0 0 0 = some 0 ∧
     Obj.SWAP_DEFER_LIMIT.ty ≠ .blob ∧ Obj.SWAP_DEFER_LIMIT.ty ≠ .str ∧
     (Obj.SWAP_DEFER_LIMIT.access = .rw ∨ Obj.SWAP_DEFER_LIMIT.access = .rwm) ∧ subOk Obj.SWAP_DEFER_LIMIT 0 0 0 = true ∧
     (atMode 3).flt.master = [] ∧ (atMode 3).flt.repair = [] ∧
     (let s : State := { atMode 3 with clk := { tick := 251, ord := 2 }, flt := { repair := [(8, key Obj.SWAP_DEFER_LIMIT 0 0, a, 9)], checkOrd := 1 } }
      s.flt.repair = [(8, key Obj.SWAP_DEFER_LIMIT 0 a.sub, a, 9)] ∧ s.flt.checkOrd < s.clk.ord ∧ s.tick % 250 ≠ 0 ∧
      (atMode 3).flt.repair = [] ∧ { s.flt with checkOrd := 2 }.checkOrd = s.clk.ord)) ∧
    (atMode 3).tick % 250 = 0 ∧ domGranules 0 ≤ 2 ^ 32 ∧
    (let x : Span := { code := 0x1080, kind := 4, num := 7, start := 0 }
     let s : State := { atMode 3 with clk := { ord := 250000 }, flt := { spans := [x] } }
     s.flt.spans = [x] ∧ x.sameAs 0x1080 4 7 = true ∧ x.start + 250000 ≤ s.clk.ord ∧ s.flt.mramDead = false) ∧
    (let x : Span := { code := 0x1080, kind := 4, num := 7, start := 1 }
     let s : State := { atMode 3 with clk := { ord := 250000 }, flt := { spans := [x] } }
     ∀ x ∈ s.flt.spans, s.clk.ord < x.start + 250000) := by decide

/-- A self-test of the last partition, of none, and one that runs; ARP requests. -/
theorem witness_SelfTestAndNetwork :
    accepts (atMode 10) .owner (objAddr 0xB060 0 0 0) (leBytes 8 (2 ^ 55)) = true ∧ nextPartition (2 ^ 55) 0 = some 55 ∧
    nextPartition 0 0 = none ∧ nextPartition (2 ^ 55) 56 = none ∧ nextPartition (2 ^ 55) 1 = some 55 ∧
    ((atMode 10).setVal Obj.SELFTEST_RUNNING 55).val Obj.SELFTEST_RUNNING = 55 ∧ (atMode 10).val Obj.SELFTEST_RUNNING = 0xFF ∧
    (atMode 3).serves = true ∧ (atMode 0).serves = false ∧
    ((atMode 3).setVal Obj.NET_IP_ADDR 0xC0A80101).nat Obj.NET_IP_ADDR = (0xC0A80101 : BitVec 32).toNat := by decide

/-! ### Witnesses: the rest, and the spec's check values -/

/-- An encoded engine instruction that is well formed, and the state after reset. -/
theorem witness_EngineWordsDecodeAndEncodeAgree_StepsKeepMemoryCanonical :
    (EngIns.ofWord (.add) 0).wf 0 = true ∧ State.reset.memoryOk = true := by decide

/-- The bytes of "123456789". -/
def nine : List Byte := [0x31, 0x32, 0x33, 0x34, 0x35, 0x36, 0x37, 0x38, 0x39]

set_option maxRecDepth 100000 in
/-- The check values of the table of 18 R438. -/
theorem test_check_values : crc32c nine = 0xE3069283 ∧ crc32 nine = 0xCBF43926 ∧ crc16 nine = 0x29B1 := by decide

set_option maxRecDepth 100000 in
/-- The example of FIPS 180-4 (00 R9). -/
theorem test_sha256_of_abc : sha256 [0x61, 0x62, 0x63] =
    beBytes 32 0xBA7816BF8F01CFEA414140DE5DAE2223B00361A396177A9CB410FF61F20015AD := by decide +kernel

set_option maxRecDepth 100000 in
/-- The first test of RFC 8032 (00 R9). -/
theorem test_ed25519_signature :
    ed25519 signer [] (beBytes 64 0xe5564300c360ac729086e2cc806e828a84877f1eb8e5d974d873e065224901555fb8821590a33bacc61e39701cf9b46bd25bf5f0595bbe24655141438e7a100b) =
      true := by decide +kernel

/-- The worked example after 16 R388: a frame's header. -/
theorem test_frame_header :
    ({ vc := 2, type := 1, module := 1234, ftick := 0xF5244, gseq := 0x12345, alive := 0x5A, payload := List.replicate 2064 0 } : TxFrame).header =
      0x4140805A000123454D2F5244 := by decide +kernel

/-- The example after 22 R513: the lands of CH187 on the north edge and the ends of its die's `VFEED`; a corner. -/
theorem test_lands :
    landAt 72 9 = .feed 187 ∧ landAt 71 9 = .ain 187 false ∧ landAt 70 9 = .ain 187 true ∧ landAt 68 9 = .vfeed 5 ∧ landAt 68 36 = .vfeed 5 ∧
    landAt 68 37 = .vfeed 4 ∧ landAt 1 1 = .gnd := by decide

/-- A frame of 2,048 channels that are not all zero. -/
theorem witness_RequantisedSamples :
    (List.replicate 2048 ((1 : Int), (0 : Int))).length = 2048 ∧ nth (0, 0) (List.replicate 2048 ((1 : Int), (0 : Int))) 2047 ≠ (0, 0) := by
  decide +kernel

/-- A descriptor over the bytes from an offset of the application region's scratch: `START`, or `FINAL` of the next `ALIVE`. -/
def nineDesc (off n alive : Nat) (start final : Bool) : BitVec 256 :=
  BitVec.ofNat 256 (off * 2 ^ 208 + n * 2 ^ 176 + alive * 2 ^ 104 + (if start then 2 ^ 97 else 0) + (if final then 2 ^ 96 else 0))

set_option maxRecDepth 10000 in
/-- 18 R442: "1234" with `START` and "56789" with `FINAL` on one slot give the check value of the whole. -/
theorem test_check_value_in_two_descriptors :
    (let s := State.reset.putBytes (spaceAddr 0 4096) nine
     let a := s.cvuRun {} (nineDesc 4096 4 1 true false)
     let b := s.cvuRun a.1 (nineDesc 4100 5 2 false true)
     a.2.2.1 = St.OK ∧ b.2.1 = 0xE3069283 ∧ b.1.count = 9 ∧ (s.cvuRun b.1 (nineDesc 4100 5 2 false true)).2.2.2.1 = 2 ∧
     (s.cvuRun b.1 (nineDesc 4100 5 4 false true)).2.2.2.1 = 4) := by decide

end Sys2Proof.Machine.Tests
end

section
/-! The requantiser (05 R128-R131): its samples and its count, whatever words of its tables are poisoned, and what
`Obligations.RequantisedSamples` turns on. -/

namespace Sys2Proof.Machine

/-! ### Rounding and limiting (05 R128) -/

theorem clampInt_eq_max_min (lo hi x : Int) (h : lo ≤ hi) : clampInt lo hi x = max lo (min hi x) := by
  unfold clampInt
  split
  · omega
  · split <;> omega

theorem divAway_two_pow (a : Int) (k : Nat) :
    divAway a (2 ^ k) =
      if 0 ≤ a then (2 * a + (2 : Int) ^ k) / (2 * 2 ^ k) else -((2 * -a + (2 : Int) ^ k) / (2 * 2 ^ k)) := by
  simp [divAway]

theorem divAway_zero_two_pow (k : Nat) : divAway 0 (2 ^ k) = 0 := by
  have hpos : (0 : Int) < 2 ^ k := by positivity
  rw [divAway_two_pow, if_pos (le_refl 0)]
  exact Int.ediv_eq_zero_of_lt (by omega) (by omega)

theorem requant_zero (g : Int × Int) (sh : Nat) : (requant g (0, 0) sh).1 = (0, 0) := by
  simp [requant, divAway_zero_two_pow, clampInt]

theorem requant_bounds (g c : Int × Int) (sh : Nat) :
    -127 ≤ (requant g c sh).1.1 ∧ (requant g c sh).1.1 ≤ 127 ∧ -127 ≤ (requant g c sh).1.2 ∧ (requant g c sh).1.2 ≤ 127 := by
  simp only [requant, clampInt_eq_max_min (-127) 127 _ (by decide)]
  omega

/-! ### The tables a frame is requantised with (05 R129, 18 R432) -/

/-- The gain bytes the requantiser works with, poisoned words being zero. -/
def State.gainsUsed (s : State) (n ord : Nat) : Array Byte :=
  (holed (s.reqHoles n ord) (s.tabBlob Obj.REQ_GAIN_SHADOW ord n)).toArray

/-- The shift the requantiser works with, zero when its word is poisoned. -/
def State.shiftUsed (s : State) (n ord : Nat) : Nat :=
  if (s.reqHoles n ord).contains 2048 then 0 else s.tabNat Obj.REQ_SHIFT ord n

/-- What the requantiser makes of channel `f`: the sample and how many of its components were limited. -/
def State.requantAt (s : State) (n ord : Nat) (c : List (Int × Int)) (f : Nat) : (Int × Int) × Nat :=
  requant (gainAt (s.gainsUsed n ord) f) (nth (0, 0) c f) (s.shiftUsed n ord)

theorem State.gainsUsed_of_no_holes {s : State} {n ord : Nat} (h : s.reqHoles n ord = []) :
    s.gainsUsed n ord = (s.tabBlob Obj.REQ_GAIN_SHADOW ord n).toArray := by
  simp [State.gainsUsed, h, holed]

theorem State.shiftUsed_of_no_holes {s : State} {n ord : Nat} (h : s.reqHoles n ord = []) :
    s.shiftUsed n ord = s.tabNat Obj.REQ_SHIFT ord n := by
  simp [State.shiftUsed, h]

/-- 05 R128 for an input none of whose gains is poisoned. -/
theorem State.requantAt_of_no_holes (s : State) {n ord : Nat} (h : s.reqHoles n ord = []) (c : List (Int × Int)) (f : Nat) :
    let gain := gainAt (s.tabBlob Obj.REQ_GAIN_SHADOW ord n).toArray f
    let raw := nth (0, 0) c f
    let d : Int := 2 ^ (8 + s.tabNat Obj.REQ_SHIFT ord n)
    let round (x : Int) : Int := if 0 ≤ x then (2 * x + d) / (2 * d) else -((2 * -x + d) / (2 * d))
    let re := round (gain.1 * raw.1 - gain.2 * raw.2)
    let im := round (gain.1 * raw.2 + gain.2 * raw.1)
    let held (m : Int) : Int := max (-127) (min 127 m)
    let lost (m : Int) : Nat := if held m = m then 0 else 1
    s.requantAt n ord c f = ((held re, held im), lost re + lost im) := by
  intro gain raw d round re im held lost
  simp only [State.requantAt, State.gainsUsed_of_no_holes h, State.shiftUsed_of_no_holes h, requant, divAway_two_pow,
    clampInt_eq_max_min (-127) 127 _ (by decide)]
  rfl

/-- A byte of holed bytes: zero in a holed word, else the byte itself. -/
theorem getD_holed (ws : List Nat) (l : List Byte) (i : Nat) :
    (holed ws l).toArray.getD i 0 = if ws.contains (i / 4) then 0 else l.toArray.getD i 0 := by
  unfold holed
  split
  case isTrue h => simp [List.isEmpty_iff.mp h]
  case isFalse =>
    by_cases hi : i < l.length
    · simp [hi]
    · simp [hi]

theorem gainAt_of_bytes {b : Array Byte} {f : Nat} {v : Byte} (h : ∀ k, k < 4 → b.getD (4 * f + k) 0 = v) :
    gainAt b f = (ofTwos 16 (v.toNat + 256 * v.toNat), ofTwos 16 (v.toNat + 256 * v.toNat)) := by
  have h0 : b.getD (4 * f) 0 = v := h 0 (by decide)
  simp only [gainAt, h0, h 1 (by decide), h 2 (by decide), h 3 (by decide)]

theorem gainAt_holed_of_mem {ws : List Nat} {f : Nat} (h : f ∈ ws) (l : List Byte) :
    gainAt (holed ws l).toArray f = (0, 0) := by
  refine gainAt_of_bytes (v := 0) fun k hk => ?_
  have hword : (4 * f + k) / 4 = f := by omega
  rw [getD_holed, hword, if_pos (List.contains_iff_mem.mpr h)]

/-! ### The samples and the count -/

theorem zip_range_eq_map_nth {α : Type} (d : α) (c : List α) :
    (List.range c.length).zip c = (List.range c.length).map fun f => (f, nth d c f) := by
  apply List.ext_getElem
  · simp
  · intro i h _
    have hi : i < c.length := by simpa using h
    simp [nth, hi]

theorem foldl_add_eq_sum_map {α : Type} (g : α → Nat) (l : List α) :
    l.foldl (fun a v => a + g v) 0 = (l.map g).sum := by
  rw [List.sum_eq_foldl, List.foldl_map]

theorem all_zero_iff (c : List (Int × Int)) :
    c.all (fun v => v.1 == 0 && v.2 == 0) = true ↔ ∀ f, f < c.length → nth (0, 0) c f = (0, 0) := by
  simp only [List.all_eq_true, Bool.and_eq_true, beq_iff_eq]
  constructor
  · intro h f hf
    have hzero := h _ (List.getElem_mem hf)
    simpa [nth, hf, Prod.ext_iff] using hzero
  · intro h v hv
    obtain ⟨f, hf, rfl⟩ := List.getElem_of_mem hv
    simpa [nth, hf, Prod.ext_iff] using h f hf

section
variable (s : State) (n ord : Nat) {c : List (Int × Int)}

theorem State.requantise_of_all_zero (h : c.all (fun v => v.1 == 0 && v.2 == 0) = true) :
    s.requantise n ord c = ([], s) := by
  simp only [State.requantise, h, if_true]

theorem State.requantise_of_not_all_zero (hc : c.length = 2048) (h : ¬ c.all (fun v => v.1 == 0 && v.2 == 0) = true) :
    s.requantise n ord c =
      ((List.range 2048).map fun f => (s.requantAt n ord c f).1,
        s.inc Obj.REQ_SAT_COUNT n (n := ((List.range 2048).map fun f => (s.requantAt n ord c f).2).sum)) := by
  have hzip := zip_range_eq_map_nth (0, 0) c
  rw [hc] at hzip
  simp only [State.requantise, h, hzip, foldl_add_eq_sum_map, List.map_map]
  rfl

/-- All-zero data requantises to zeros whatever the tables hold, so its empty list reads as every channel's sample. -/
theorem State.nth_requantise (hc : c.length = 2048) {f : Nat} (hf : f < 2048) :
    nth (0, 0) (s.requantise n ord c).1 f = (s.requantAt n ord c f).1 := by
  by_cases h : c.all (fun v => v.1 == 0 && v.2 == 0) = true
  · rw [s.requantise_of_all_zero n ord h, State.requantAt, (all_zero_iff c).mp h f (by omega), requant_zero]
    rfl
  · simp [s.requantise_of_not_all_zero n ord hc h, nth, hf]

/-- 05 R131, also with poisoned gains. -/
theorem State.requantise_bounds (hc : c.length = 2048) {y : Int × Int} (hy : y ∈ (s.requantise n ord c).1) :
    -127 ≤ y.1 ∧ y.1 ≤ 127 ∧ -127 ≤ y.2 ∧ y.2 ≤ 127 := by
  by_cases h : c.all (fun v => v.1 == 0 && v.2 == 0) = true
  · simp [s.requantise_of_all_zero n ord h] at hy
  · rw [s.requantise_of_not_all_zero n ord hc h] at hy
    simp only [List.mem_map] at hy
    obtain ⟨f, -, rfl⟩ := hy
    exact requant_bounds ..

theorem State.requantise_count (hc : c.length = 2048) (h : ∃ f, f < 2048 ∧ nth (0, 0) c f ≠ (0, 0)) :
    (s.requantise n ord c).2.val Obj.REQ_SAT_COUNT n =
      (s.val Obj.REQ_SAT_COUNT n + (((List.range 2048).map fun f => (s.requantAt n ord c f).2).sum : Nat)) %
        2 ^ Obj.REQ_SAT_COUNT.ty.bits := by
  obtain ⟨f, hf, hraw⟩ := h
  have hz : ¬ c.all (fun v => v.1 == 0 && v.2 == 0) = true := fun hz => hraw ((all_zero_iff c).mp hz f (by omega))
  rw [s.requantise_of_not_all_zero n ord hc hz]
  exact smGet_smPut_same ..

theorem State.requantise_frame (hc : c.length = 2048) :
    (s.requantise n ord c).2 = { s with vals := (s.requantise n ord c).2.vals } := by
  by_cases h : c.all (fun v => v.1 == 0 && v.2 == 0) = true
  · rw [s.requantise_of_all_zero n ord h]
  · rw [s.requantise_of_not_all_zero n ord hc h]
    rfl

end

/-! ### The granules that hold gains and shifts (18 R423, R432) -/

/-- No granule of a reader die's SRAM holds a word of table ID 2. -/
def NoGainGranule : Prop := ∀ d g, d < 8 → g < 2 ^ 38 → Config.dieWord d g % 6 ≠ 2

theorem dieWord_eq_some_gain_iff {d g e w : Nat} :
    dieWord d g = some (2, e, w) ↔
      Config.dieWord d g % 6 = 2 ∧ e = 2 * d + Config.dieWord d g / 6 % 2 ∧ w = Config.dieWord d g / 12 % 32784 := by
  unfold dieWord
  generalize Config.dieWord d g = v
  have hrow : v % 6 = 0 ∨ v % 6 = 1 ∨ v % 6 = 2 ∨ v % 6 = 3 ∨ v % 6 = 4 ∨ v % 6 = 5 := by omega
  obtain hrow | hrow | hrow | hrow | hrow | hrow := hrow <;> simp [dieTables, hrow, eq_comm]

theorem wordAt_ne_gain (h : NoGainGranule) (a e w : Nat) : wordAt a ≠ some (2, e, w) := by
  unfold wordAt spaceBase
  split
  · simp
  · intro hw
    exact h _ _ (by omega) (by omega) (dieWord_eq_some_gain_iff.mp hw).1

theorem State.reqHoles_eq_nil (h : NoGainGranule) (s : State) (n ord : Nat) : s.reqHoles n ord = [] := by
  have hbad : s.badWords 2 (n / 16) = [] := by
    apply List.filterMap_eq_nil_iff.mpr
    intro x _
    split
    case h_1 w hw =>
      rw [if_neg]
      rintro ⟨h1, -⟩
      exact wordAt_ne_gain h x.1 w.2.1 w.2.2 (by rw [hw, ← h1])
    case h_2 => rfl
  simp [State.reqHoles, State.holesAt, hbad]

theorem wordAt_granule {d g : Nat} (hd : d < 8) (hg : g < 2 ^ 38) : wordAt (spaceBase (5 + d) + 4 * g) = dieWord d g := by
  unfold wordAt spaceBase
  rw [if_neg (by omega), show ((5 + d) * 2 ^ 40 + 4 * g) / 2 ^ 40 - 5 = d by omega,
    show ((5 + d) * 2 ^ 40 + 4 * g) % 2 ^ 40 / 4 = g by omega]

/-! ### What the obligation turns on -/

/-- The gain bytes of an input whose every gain is 257 + 257 i. -/
def flatGains : List Byte := List.replicate 8192 1

/-- Channel values that those gains and the shift after reset take to 1 + 1 i. -/
def flatChannels : List (Int × Int) := List.replicate 2048 (2 ^ 14, 0)

theorem length_flatChannels : flatChannels.length = 2048 := List.length_replicate

/-- The state after reset but for the gains of input `n` and one poisoned granule. -/
def poisonedGains (a n : Nat) : State :=
  { liveBlobs := [(key Obj.REQ_GAIN_SHADOW n Obj.REQ_GAIN_SHADOW.subLo, flatGains)], poison := [(a, true)] }

theorem getD_flatGains {i : Nat} (h : i < 8192) : flatGains.toArray.getD i 0 = 1 := by
  simp [flatGains, h, -List.reduceReplicate]

theorem nth_flatChannels {f : Nat} (h : f < 2048) : nth (0, 0) flatChannels f = (2 ^ 14, 0) := by
  simp [nth, flatChannels, h, -List.reduceReplicate]

theorem gainAt_flatGains {f : Nat} (hf : f < 2048) : gainAt flatGains.toArray f = (257, 257) :=
  gainAt_of_bytes (v := 1) fun k _ => getD_flatGains (i := 4 * f + k) (by omega)

theorem gainAt_holed_flatGains {f : Nat} (hf : f < 2048) : gainAt (holed [2048] flatGains).toArray f = (257, 257) := by
  refine gainAt_of_bytes (v := 1) fun k hk => ?_
  have hword : (4 * f + k) / 4 = f := by omega
  have hout : ¬ [2048].contains f = true := by simp; omega
  rw [getD_holed, hword, if_neg hout, getD_flatGains (by omega)]

theorem tabBlob_poisonedGains (a n ord : Nat) : (poisonedGains a n).tabBlob Obj.REQ_GAIN_SHADOW ord n = flatGains := by
  have hshadow : shadowOf Obj.REQ_GAIN_SHADOW.idx n = some (2, n / 16) := rfl
  have hret : (poisonedGains a n).retiredFor 2 (n / 16) ord = none := rfl
  simp only [State.tabBlob, hshadow, hret]
  exact if_pos rfl

theorem tabNat_poisonedGains (a n ord : Nat) : (poisonedGains a n).tabNat Obj.REQ_SHIFT ord n = 14 := rfl

section
variable {a e w n ord : Nat} (hw : wordAt a = some (2, e, w)) (hlt : w < 32784) (hn : n = 16 * e + w / 2049)
include hw hlt hn

theorem badWords_poisonedGains : (poisonedGains a n).badWords 2 (n / 16) = [w] := by
  have he : e = n / 16 := by omega
  subst he
  simp only [State.badWords, poisonedGains, List.filterMap_cons, List.filterMap_nil, hw, and_self, if_true]

theorem reqHoles_poisonedGains : (poisonedGains a n).reqHoles n ord = [w % 2049] := by
  have hret : (poisonedGains a n).retiredFor 2 (n / 16) ord = none := rfl
  have hmark : (poisonedGains a n).poison.isEmpty = false := rfl
  have hwin : 2049 * (n % 16) ≤ w ∧ w < 2049 * (n % 16) + 2049 := by omega
  have hoff : w - 2049 * (n % 16) = w % 2049 := by omega
  simp [State.reqHoles, State.holesAt, badWords_poisonedGains hw hlt hn, hret, hmark, hwin, hoff]

/-- A poisoned gain reads as zero, a poisoned shift as zero: neither gives the sample of the tables as they were written. -/
theorem requantAt_poisonedGains_ne {f : Nat} (hf : f < 2048) (hword : w % 2049 = f ∨ w % 2049 = 2048) :
    ((poisonedGains a n).requantAt n ord flatChannels f).1 ≠ (1, 1) := by
  unfold State.requantAt State.gainsUsed State.shiftUsed
  rw [nth_flatChannels hf, reqHoles_poisonedGains hw hlt hn, tabBlob_poisonedGains, tabNat_poisonedGains]
  obtain hgain | hshift := hword
  · rw [hgain, gainAt_holed_of_mem (List.mem_singleton.mpr rfl)]
    simp [requant, divAway_zero_two_pow, clampInt]
  · rw [hshift, gainAt_holed_flatGains hf]
    decide

end

/-- A granule that holds a gain or shift, marked poisoned, is a state in which the obligation's first clause fails. -/
theorem not_requantisedSamples_of_gain_granule {d g : Nat} (hd : d < 8) (hg : g < 2 ^ 38)
    (hrow : Config.dieWord d g % 6 = 2) : ¬ Obligations.RequantisedSamples := by
  intro h
  obtain ⟨a, e, w, hw, hlt⟩ : ∃ a e w, wordAt a = some (2, e, w) ∧ w < 32784 :=
    ⟨_, _, _, (wordAt_granule hd hg).trans (dieWord_eq_some_gain_iff.mpr ⟨hrow, rfl, rfl⟩), Nat.mod_lt _ (by decide)⟩
  obtain ⟨f, hf, hword⟩ : ∃ f, f < 2048 ∧ (w % 2049 = f ∨ w % 2049 = 2048) := by
    by_cases hshift : w % 2049 = 2048
    · exact ⟨0, by decide, Or.inr hshift⟩
    · exact ⟨w % 2049, by omega, Or.inl rfl⟩
  let s := poisonedGains a (16 * e + w / 2049)
  obtain ⟨hsamples, -⟩ := h s (16 * e + w / 2049) 0 flatChannels length_flatChannels
  apply requantAt_poisonedGains_ne (ord := 0) hw hlt rfl hf hword
  rw [← State.nth_requantise s _ 0 length_flatChannels hf, hsamples f hf]
  simp only [s, nth_flatChannels hf, tabBlob_poisonedGains, tabNat_poisonedGains, gainAt_flatGains hf]
  decide

/-- The obligation leaves out that the requantiser takes a poisoned gain or shift as zero (18 R432), so it holds exactly when no
granule can hold one. Which granules do is `Config.dieWord` (assumption log 28), a constant without a body: the model
decides neither side, and this equivalence is all that can be said of O60. -/
theorem requantisedSamples_iff_noGainGranule : Obligations.RequantisedSamples ↔ NoGainGranule := by
  constructor
  · intro h d g hd hg hrow
    exact not_requantisedSamples_of_gain_granule hd hg hrow h
  · intro h s n ord c hc gain raw d round re im held lost r
    have hat (f : Nat) : s.requantAt n ord c f = ((held (re f), held (im f)), lost (re f) + lost (im f)) :=
      s.requantAt_of_no_holes (s.reqHoles_eq_nil h n ord) c f
    refine ⟨fun f hf => ?_, fun y hy => s.requantise_bounds n ord hc hy, fun hraw => ?_, s.requantise_frame n ord hc⟩
    · rw [s.nth_requantise n ord hc hf, hat]
    · simpa only [hat] using s.requantise_count n ord hc hraw

end Sys2Proof.Machine
end

section
/-! Instructions whose predicate bars them (09 R198): every engine row runs through `State.engRunC`, and that retires a barred
instruction as one that falls through in one cycle. -/

namespace Sys2Proof.Machine

/-! ### Decoding and the predicate -/

theorem engDecode_of_pred_gt {pc w : Nat} (h : 4 < EngW.pred w) : engDecode pc w = none :=
  if_pos h

theorem engExecutes_of_pred_eq_zero {s : State} {k w : Nat} (h : EngW.pred w = 0) : s.engExecutes k w = true := by
  simp [State.engExecutes, h]

theorem engExecutes_of_pred_ne_zero {s : State} {k w : Nat} (h : EngW.pred w ≠ 0) :
    s.engExecutes k w = s.pr k (EngW.pred w - 1) := by
  simp [State.engExecutes, h]

/-! ### A barred instruction retires -/

/-- A row of fixed cost is a case of `State.engRunC`. -/
theorem exists_engRunC_of_engRun {s : State} {k : Nat} {kind : EK} {o : Out}
    (h : ∃ cost body, o = .next (s.engRun k kind cost body)) :
    ∃ cost body, o = .next (s.engRunC k kind cost body) := by
  obtain ⟨cost, body, rfl⟩ := h
  exact ⟨fun _ _ => cost, body, rfl⟩

/-- The command of an engine row has its engine take one instruction of that row; only the loops' cost depends on the word. -/
theorem exec_engRow (kind : EK) (k : Se) (s : State) :
    ∃ cost body, exec (engRow kind k) s = .next (s.engRunC k kind cost body) := by
  cases kind with
  | loop | loopi => exact ⟨_, _, rfl⟩
  | _ => exact exists_engRunC_of_engRun ⟨_, _, rfl⟩

/-- Neither the cost nor the effect of an instruction that does not execute plays a part, nor does a poison mark of its word. -/
theorem engRunC_of_not_executes {s : State} {k : Nat} {kind : EK} (hready : s.engReady k = true)
    (hpc : (s.eng k).pc ≤ 16383) (hdecode : engDecode (s.eng k).pc (s.engWord k) = some kind)
    (hbarred : s.engExecutes k (s.engWord k) = false) (hcyc : (s.eng k).cyc < 1792)
    (cost : State → Nat → Nat) (body : State → Nat → EngNext) :
    s.engRunC k kind cost body = s.engRetire k 1 (.seq s) := by
  have hbefore : ¬ 1792 ≤ (s.eng k).cyc := by omega
  have hfits : ¬ (s.eng k).cyc + 1 > 1792 := by omega
  have hinside : ¬ (s.eng k).pc > 16383 := by omega
  simp [State.engRunC, hready, hbefore, hinside, hdecode, hbarred, hfits]

theorem loopEnd_cyc (x : Eng) (pc nx : Nat) : (x.loopEnd pc nx).1.cyc = x.cyc := by
  rw [loopEnd_eq]

theorem State.setEng_congr {s : State} {k : Nat} {f g : Eng → Eng} (h : f (s.eng k) = g (s.eng k)) :
    s.setEng k f = s.setEng k g :=
  congrArg (fun x => { s with engs := smPut {} s.engs k x }) h

/-- Falling through with no effect is the loop evaluation and the cycles alone. -/
theorem engRetire_seq_self (s : State) (k c : Nat) :
    s.engRetire k c (.seq s) = s.setEng k fun x =>
      { (x.loopEnd x.pc (x.pc + 1)).1 with pc := (x.loopEnd x.pc (x.pc + 1)).2, cyc := x.cyc + c } := by
  rw [engRetire_seq]
  exact State.setEng_congr (by simp only [loopEnd_cyc])

/-- Settles O9: every row runs through `State.engRunC`, which retires a barred instruction with its own state in one cycle. -/
theorem engineClearedPredicateSkips : Obligations.EngineClearedPredicateSkips := by
  refine ⟨fun pc w h => engDecode_of_pred_gt h,
    fun s k w => ⟨engExecutes_of_pred_eq_zero, engExecutes_of_pred_ne_zero⟩, ?_⟩
  rintro s k _ kind hready hpc rfl hdecode hpred hclear hcyc
  have hbarred : s.engExecutes k (s.engWord k) = false := (engExecutes_of_pred_ne_zero hpred).trans hclear
  obtain ⟨cost, body, hexec⟩ := exec_engRow kind k s
  rw [hexec, engRunC_of_not_executes hready hpc hdecode hbarred hcyc, engRetire_seq_self]

end Sys2Proof.Machine
end

section
/-! The leaky buckets of the domains (18 R434, R435): which values the fault log and the end of a scrubber's lap leave alone, what
one corrected error and one leak do to a level, and `Obligations.LeakyBuckets`. -/

namespace Sys2Proof.Machine

/-! ### What is kept of the dictionary's values -/

theorem keepsVals.mono {s t : State} {l m : List ObjDef} (h : keepsVals s t l) (hlm : l ⊆ m) : keepsVals s t m :=
  fun o e sub hm => h o e sub fun p hp => hm p (hlm hp)

theorem keepsVals.val_eq {s t : State} {l : List ObjDef} (h : keepsVals s t l) {o : ObjDef} {e sub : Nat} (he : e < 65536)
    (hs : sub < 256) (ho : ∀ p ∈ l, o.idx ≠ p.idx) : t.val o e sub = s.val o e sub :=
  h o e sub fun p hp => by rw [keyIdx_key o he hs]; exact ho p hp

theorem keepsVals_setVal_of_mem (s : State) (o : ObjDef) (v : Int) {e sub : Nat} (he : e < 65536) (hs : sub < 256)
    {l : List ObjDef} (ho : o ∈ l) : keepsVals s (s.setVal o v e sub) l :=
  keepsVals_setVal s o v he hs ⟨o, ho, rfl⟩

theorem keepsVals_inc_of_mem (s : State) (o : ObjDef) {e sub : Nat} (n : Nat) (he : e < 65536) (hs : sub < 256)
    {l : List ObjDef} (ho : o ∈ l) : keepsVals s (s.inc o e sub n) l :=
  keepsVals_setVal_of_mem s o _ he hs ho

/-- A counter of an element leaves the values of other objects at that element. -/
theorem val_inc_idx (s : State) (o p : ObjDef) {e sub j : Nat} (n : Nat) (he : e < 65536) (hs : sub < 256) (hj : j < 256)
    (h : p.idx ≠ o.idx) : (s.inc o e sub n).val p e j = s.val p e j :=
  val_setVal_idx s o p _ he hs he hj h

/-! ### The fault log (21 R498) -/

/-- The objects that an entry of the fault log changes. -/
def logObjs : List ObjDef := [Obj.FAULT_HEAD, Obj.FAULT_SEQ]

theorem keepsVals_logEntry (s : State) (code kind num rep t0 t1 : Nat) (arg : List Byte) :
    keepsVals s (s.logEntry code kind num rep t0 t1 arg) logObjs := by
  unfold State.logEntry
  dsimp only
  split
  case isTrue => exact keepsVals.refl s _
  case isFalse =>
    have hbytes (a : Nat) (b : List Byte) : keepsVals s (s.putBytes a b) logObjs :=
      keepsVals_of_vals (by rw [putBytes_mem_only]) _
    exact (hbytes _ _).trans <|
      (keepsVals_setVal_of_mem _ Obj.FAULT_HEAD _ (by decide) (by decide) (by decide)).trans <|
      (keepsVals_setVal_of_mem _ Obj.FAULT_SEQ _ (by decide) (by decide) (by decide)).trans <|
      keepsVals_of_vals (State.raise_vals ..) _

theorem keepsVals_logSummary (s : State) (x : Span) : keepsVals s (s.logSummary x) logObjs := by
  unfold State.logSummary
  split
  case isTrue => exact keepsVals.refl s _
  case isFalse => exact keepsVals_logEntry _ _ _ _ _ _ _ _

theorem keepsVals_logSummaries (xs : List Span) (s : State) : keepsVals s (xs.foldl State.logSummary s) logObjs := by
  induction xs generalizing s with
  | nil => exact keepsVals.refl s _
  | cons x xs ih => exact (keepsVals_logSummary s x).trans (ih _)

/-- A logged fault changes the counter of its class and, where no span of its code and scope is open, the log's objects. -/
theorem keepsVals_logFault (s : State) {code : Nat} (hcode : code < 2 ^ 20) (kind num : Nat) (arg : List Byte) :
    keepsVals s (s.logFault code kind num arg) (Obj.FAULT_CLASS_COUNT :: logObjs) := by
  have hclass : keepsVals s (s.inc Obj.FAULT_CLASS_COUNT 0 (code / 4096)) (Obj.FAULT_CLASS_COUNT :: logObjs) :=
    keepsVals_inc_of_mem s _ 1 (by decide) (by omega) (List.mem_cons_self ..)
  unfold State.logFault
  dsimp only
  split
  case h_1 => exact hclass
  case h_2 =>
    exact hclass.trans <| ((keepsVals_logSummaries _ _).trans (keepsVals_logEntry _ _ _ _ _ _ _ _)).mono
      (List.subset_cons_self _ _)

/-! ### One corrected error (18 R427, R434, R435) -/

/-- The level of a domain's bucket after one correctable error more (18 R434, R435). -/
def State.levelWithError (s : State) (d : Nat) : Int :=
  if s.val Obj.ECC_BUCKET_LEVEL d < s.val Obj.ECC_BUCKET_CAPACITY d then s.val Obj.ECC_BUCKET_LEVEL d + 1
  else s.val Obj.ECC_BUCKET_LEVEL d

/-- A counter plays no part in what an error does to the level. -/
theorem State.levelWithError_inc (s : State) (o : ObjDef) {d : Nat} (hd : d < 65536) (hs : o.subLo < 256)
    (hlevel : Obj.ECC_BUCKET_LEVEL.idx ≠ o.idx) (hcapacity : Obj.ECC_BUCKET_CAPACITY.idx ≠ o.idx) :
    (s.inc o d).levelWithError d = s.levelWithError d := by
  have hkept (p : ObjDef) (hp : p.subLo < 256) (h : p.idx ≠ o.idx) : (s.inc o d).val p d = s.val p d :=
    val_inc_idx s o p 1 hd hs hp h
  simp only [State.levelWithError, hkept _ (by decide : Obj.ECC_BUCKET_LEVEL.subLo < 256) hlevel,
    hkept _ (by decide : Obj.ECC_BUCKET_CAPACITY.subLo < 256) hcapacity]

/-- An error that finds the bucket full changes a counter and the fault log, not the level. -/
theorem State.bucketAdd_level (s : State) {d : Nat} (hd : d < 65536) :
    (s.bucketAdd d).val Obj.ECC_BUCKET_LEVEL d = s.levelWithError d := by
  have hcount : (s.inc Obj.ECC_BUCKET_OVERFLOW_COUNT d).val Obj.ECC_BUCKET_LEVEL d = s.val Obj.ECC_BUCKET_LEVEL d :=
    val_inc_idx s _ _ 1 hd (by decide) (by decide) (by decide)
  unfold State.bucketAdd State.levelWithError
  split
  case isTrue => exact val_setVal_same ..
  case isFalse =>
    dsimp only
    split
    case isTrue => exact hcount
    case isFalse =>
      rw [State.setEcc_val, (keepsVals_logFault _ (by decide) _ _ _).val_eq hd (by decide) (by decide), State.raise_val, hcount]

/-- Errors in data and in check bits have counters of their own (R427); both fill the same bucket. -/
theorem State.eccCorrected_level (s : State) {d : Nat} (hd : d < 13) (data : Bool) :
    (s.eccCorrected d data).val Obj.ECC_BUCKET_LEVEL d = s.levelWithError d := by
  have hmram : d ≠ 13 := by omega
  rw [State.eccCorrected, if_neg hmram, State.bucketAdd_level _ (by omega)]
  cases data with
  | true => exact s.levelWithError_inc Obj.ECC_CE_COUNT (by omega) (by decide) (by decide) (by decide)
  | false => exact s.levelWithError_inc Obj.ECC_CB_COUNT (by omega) (by decide) (by decide) (by decide)

/-! ### An error met by a scrubber (18 R436, R437) -/

/-- The objects that the end of a lap changes. -/
def lapObjs : List ObjDef := [Obj.SCRUB_LAP_LAST, Obj.SCRUB_LAP_COUNT, Obj.SCRUB_LAP_MIN, Obj.SCRUB_LAP_MAX]

theorem State.keepsVals_lapEnd (s : State) {d : Nat} (hd : d < 65536) : keepsVals s (s.lapEnd d) lapObjs := by
  have hrecord (u : State) (c : Prop) [Decidable c] (o : ObjDef) (v : Int) (hs : o.subLo < 256) (ho : o ∈ lapObjs) :
      keepsVals u (if c then u.setVal o v d else u) lapObjs := by
    split
    · exact keepsVals_setVal_of_mem u o v hd hs ho
    · exact keepsVals.refl u _
  exact (keepsVals_setVal_of_mem s Obj.SCRUB_LAP_LAST _ hd (by decide) (by decide)).trans <|
    (keepsVals_inc_of_mem _ Obj.SCRUB_LAP_COUNT 1 hd (by decide) (by decide)).trans <|
    (hrecord _ _ Obj.SCRUB_LAP_MIN _ (by decide) (by decide)).trans <|
    (hrecord _ _ Obj.SCRUB_LAP_MAX _ (by decide) (by decide)).trans <| keepsVals_of_vals (State.setEcc_vals ..) _

/-- A scrubber that reads a granule leaves the level as reading the granule does, at the end of a lap too. -/
theorem State.scrub_level (s : State) {d : Nat} (hd : d < 13) (err : EccError) (hmode : Mode.lanes s.mode = true)
    (hon : s.on Obj.SCRUB_ENABLE d = true) (hskip : s.scrubSkips d (smGet 0 s.ecc.lapAt d) = false)
    (hpoison : smGet false s.poison (granuleAddr d (smGet 0 s.ecc.lapAt d)) = false) :
    (s.scrub d err).val Obj.ECC_BUCKET_LEVEL d =
      (s.eccRead d (smGet 0 s.ecc.lapAt d) err).val Obj.ECC_BUCKET_LEVEL d := by
  have hmram : d ≠ 13 := by omega
  simp only [State.scrub, hmram, hmode, hon, hskip, hpoison, decide_false, Bool.not_true, Bool.or_self, Bool.false_eq_true, if_false]
  split
  case isTrue => exact (State.keepsVals_lapEnd _ (by omega)).val_eq (by omega) (by decide) (by decide)
  case isFalse => exact State.setEcc_val ..

/-! ### The leak (18 R434, R435) -/

theorem State.bucketLeak_of_not_due {s : State} {d : Nat}
    (h : s.tick % s.nat Obj.ECC_BUCKET_LEAK d ≠ 0 ∨ smGet 0 s.ecc.leaked d = s.clk.ord + 1) : s.bucketLeak d = s := by
  obtain h | h := h <;> simp [State.bucketLeak, h]

/-- The state in which a leak has acted on a domain and its bucket is not yet armed. -/
def State.afterLeak (s : State) (d : Nat) : State :=
  (s.setEcc fun x => { x with leaked := smPut 0 x.leaked d (s.clk.ord + 1) }).setVal Obj.ECC_BUCKET_LEVEL
    (s.nat Obj.ECC_BUCKET_LEVEL d - 1 : Nat) d

/-- Arming changes the integrity unit alone, and not its note of the leak. -/
theorem State.bucketLeak_of_due {s : State} {d : Nat} (hmul : s.tick % s.nat Obj.ECC_BUCKET_LEAK d = 0)
    (hfirst : smGet 0 s.ecc.leaked d ≠ s.clk.ord + 1) :
    ∃ m, s.bucketLeak d = (s.afterLeak d).setEcc fun x => { x with disarmed := m } := by
  simp only [State.bucketLeak, hmul, bne_iff_ne.2 hfirst, beq_self_eq_true, Bool.and_self, Bool.not_true, Bool.false_eq_true, if_false]
  split
  case isTrue => exact ⟨_, rfl⟩
  case isFalse => exact ⟨s.ecc.disarmed, rfl⟩

theorem State.bucketLeak_spec {s : State} {d : Nat} (hd : d < 65536) (hmul : s.tick % s.nat Obj.ECC_BUCKET_LEAK d = 0)
    (hfirst : smGet 0 s.ecc.leaked d ≠ s.clk.ord + 1) :
    (s.bucketLeak d).nat Obj.ECC_BUCKET_LEVEL d = s.nat Obj.ECC_BUCKET_LEVEL d - 1 ∧
      keepsVals s (s.bucketLeak d) [Obj.ECC_BUCKET_LEVEL] ∧ smGet 0 (s.bucketLeak d).ecc.leaked d = s.clk.ord + 1 ∧
      s.bucketLeak d = { s with vals := (s.bucketLeak d).vals, ecc := (s.bucketLeak d).ecc } := by
  obtain ⟨m, hleak⟩ := State.bucketLeak_of_due hmul hfirst
  rw [hleak]
  refine ⟨?level, ?others, ?noted, rfl⟩
  case level =>
    have hval : (s.afterLeak d).val Obj.ECC_BUCKET_LEVEL d = (s.nat Obj.ECC_BUCKET_LEVEL d - 1 : Nat) := val_setVal_same ..
    rw [State.setEcc_nat, State.nat, hval, Int.toNat_natCast]
  case others => exact keepsVals_setVal_of_mem _ Obj.ECC_BUCKET_LEVEL _ hd (by decide) (List.mem_singleton_self _)
  case noted => exact smGet_smPut_same 0 s.ecc.leaked d (s.clk.ord + 1)

/-- Settles O50: both ways to meet a correctable error read its granule, and the leak is `State.bucketLeak`. -/
theorem leakyBuckets : Obligations.LeakyBuckets := by
  intro s dom d up hd
  have hmram : domNum dom ≠ 13 := by omega
  have hread (g : Nat) : (∀ b, up (s.eccRead d g (.dataBit b))) ∧ up (s.eccRead d g .checkBit) :=
    ⟨fun _ => s.eccCorrected_level hd true, s.eccCorrected_level hd false⟩
  have hupset (g : Nat) (err : EccError) (hg : g < domGranules d) :
      exec (.singleEventUpset (.granule dom g err)) s = .next (s.eccRead d g err) := congrArg _ (if_pos hg)
  have hleak : exec (.eccBucketLeak dom) s = .next (s.bucketLeak d) := congrArg _ (if_neg hmram)
  refine ⟨fun g b hg => ⟨⟨_, hupset g _ hg, (hread g).1 b⟩, _, hupset g _ hg, (hread g).2⟩, ?scrubber, ?leak, ?noLeak⟩
  case scrubber =>
    intro b g hmode hon hskip hpoison
    have hlevel (err : EccError) := s.scrub_level hd err hmode hon hskip hpoison
    exact ⟨⟨_, rfl, (hlevel _).trans ((hread g).1 b)⟩, _, rfl, (hlevel _).trans (hread g).2⟩
  case leak => exact fun hmul hfirst => ⟨_, hleak, State.bucketLeak_spec (by omega) hmul hfirst⟩
  case noLeak => exact fun h => by rw [hleak, State.bucketLeak_of_not_due h]

end Sys2Proof.Machine
end
